-- ==== Sys2Proof/Word.lean ====
section
/-!
DEFINITION. The word types of the KW8: control-space registers are 32 bits wide (R8), scalar registers 64 bits (R108),
memory is bytes in little-endian order (R6), and the unit indices of "Names and indices" of spec/00_scope.md.
-/

namespace Sys2Proof

/-- A byte of memory, of a cell or of a frame. -/
abbrev Byte := BitVec 8
/-- A control-space register (R8). -/
abbrev Word := BitVec 32
/-- A scalar register or a 64-bit memory word (R108). -/
abbrev Dword := BitVec 64

/-- Global core index g = 32 d + c. -/
abbrev CoreId := Fin 128
/-- Compute die. -/
abbrev DieId := Fin 4
/-- Edge die. -/
abbrev EdgeId := Fin 2
/-- Context CTX0 to CTX7. -/
abbrev CtxId := Fin 8
/-- Submission ring of a context. -/
abbrev RingId := Fin 4
/-- Fabric port F0 to F47. -/
abbrev PortId := Fin 48
/-- Reduction engine RDX0 to RDX3. -/
abbrev RdxId := Fin 4
/-- Management core MGC0 to MGC3. -/
abbrev MgcId := Fin 4
/-- Who makes a control-space access (R400): a management core, the security core or the host. -/
inductive Initiator where
  | mgc (m : Fin 4)
  | sec
  | host
  deriving DecidableEq, Repr

/-- Its identifier (R400). -/
def Initiator.id : Initiator → Nat
  | .mgc m => m.val
  | .sec => 0x10
  | .host => 0x20

/-- Mailbox channel. -/
abbrev Channel := Fin 32

end Sys2Proof
end

