-- ==== Sys2Proof/Syntax.lean ====
section
/-!
DEFINITION. The commands of the KW8: one constructor per row of spec/opcode_table.json, with the unit it acts on and
the values it carries from outside. A row whose values come from the machine's own state (a galley's head, a ring's
command, a thread's next word) carries only the unit.
-/

namespace Sys2Proof

/-- What the host port's filters look at in a frame that arrives (R379, R381): the VID of its C-tag, whether it is free of
fragmentation, IPv4 options and IPv6 extension headers, whether its UDP checksum is right, and whether it is marked CE. -/
structure FrameHead where
  vid : Option Nat
  plain : Bool
  sumOk : Bool
  ce : Bool
  deriving DecidableEq, Repr

/-- The packet header of an MCTP request (R438): the endpoint it is for, the endpoint that sent it, and its message tag. -/
structure MctpHead where
  dst : BitVec 8
  src : BitVec 8
  tag : Fin 8
  deriving DecidableEq, Repr

/-- The sender of an SPDM request (R416): for a management datagram the number that its answer echoes, its source address and port,
its destination port and its frame's head; for MCTP the packet header. -/
structure SpdmPeer where
  id : Nat
  addr : List Byte
  sport : BitVec 16
  dport : BitVec 16
  frame : FrameHead
  mctp : MctpHead
  deriving DecidableEq, Repr

/-- An operand of a frame that arrives at the host port, with what the port's filters look at in the frame. -/
structure Framed (α : Type) where
  val : α
  frame : FrameHead
  deriving DecidableEq, Repr

/-- Where a UDP datagram comes from (R385). -/
structure UdpSource where
  addr : List Byte
  port : BitVec 16
  deriving DecidableEq, Repr

/-- The destination port and the payload of a UDP datagram (R385). -/
structure Datagram where
  dport : BitVec 16
  data : List Byte
  deriving DecidableEq, Repr

/-- An MCTP or PLDM request (R438, R439): its packet header and its instance. -/
structure MctpReq where
  head : MctpHead
  iid : Fin 32
  deriving DecidableEq, Repr

/-- A request for a record of the colophon log (R438): its packet header and the record's SEQ. -/
structure RecordReq where
  head : MctpHead
  seq : BitVec 32
  deriving DecidableEq, Repr

/-- The units of a compute die that fail with a reset of it beside its cores (R449): its stacks, and its bridges in the order of
Table 16-5. -/
structure DieParts where
  hbm : BitVec 3
  bridges : BitVec 4
  deriving DecidableEq, Repr

/-- The bytes that an access to control space asks for (R444). -/
inductive Width where
  | byte | half | word
  deriving DecidableEq, Repr

/-- Who accesses control space, and whether its target is silent (R445). -/
structure Access where
  who : Initiator
  mute : Bool
  deriving DecidableEq, Repr

/-- The offset of an access to control space and the bytes it asks for (R444). -/
structure CsAddr where
  off : Word
  width : Width
  deriving DecidableEq, Repr

/-- The commands (the rows of the table of operations and events). The rows without operands stand last: compiled Lean
code can build at most 244 constructors that have fields. -/
inductive Instr where
  /-- MGC_HEARTBEAT_SILENT (R26). -/
  | mgcHeartbeatSilent (m : MgcId)
  /-- MANAGEMENT_PLANE_RETURN (R26). -/
  | managementPlaneReturn (m : Fin 2)
  /-- HELD_COMMAND_TIMEOUT (R26). -/
  | heldCommandTimeout (c : CtxId) (r : RingId)
  /-- LOAD_FORME (R209). -/
  | loadForme (c : CtxId) (r : RingId)
  /-- ADMIT (R211). -/
  | admitForme (c : CtxId) (r : RingId)
  /-- RUN_STEPS (R209). -/
  | runSteps (c : CtxId) (r : RingId)
  /-- PREEMPT (R219). -/
  | preempt (c : CtxId) (r : RingId)
  /-- SAVE (R209). -/
  | saveCmd (c : CtxId) (r : RingId)
  /-- RESTORE (R223). -/
  | restore (c : CtxId) (r : RingId)
  /-- MIGRATE (R229). -/
  | migrate (c : CtxId) (r : RingId)
  /-- TEARDOWN (R231). -/
  | teardownCmd (c : CtxId) (r : RingId)
  /-- SET_IMPOSITION (R311). -/
  | setImposition (c : CtxId) (r : RingId)
  /-- QUERY_CONTEXT (R394). -/
  | queryContext (c : CtxId) (r : RingId)
  /-- QUERY_COLOPHON (R394). -/
  | queryColophon (c : CtxId) (r : RingId)
  /-- QUERY_FROZEN_STATE (R394). -/
  | queryFrozenState (c : CtxId) (r : RingId)
  /-- QUERY_CAPABILITY (R394). -/
  | queryCapability (c : CtxId) (r : RingId)
  /-- LDW (R457). -/
  | ldw (g : CoreId)
  /-- OPEN (R77). -/
  | openGroup (g : CoreId)
  /-- MMA (R78). -/
  | mma (g : CoreId)
  /-- PARK (R78). -/
  | park (g : CoreId)
  /-- RESUME (R78). -/
  | resume (g : CoreId)
  /-- DRAIN (R81). -/
  | drain (g : CoreId)
  /-- ABORT (R78). -/
  | abort (g : CoreId)
  /-- TILE_VERDICT (R88). -/
  | tileVerdict (g : CoreId)
  /-- DRAIN_ENTRY (R81). -/
  | drainEntry (g : CoreId)
  /-- SHADOW_TILE (R91). -/
  | shadowTile (g : CoreId)
  /-- SHADOW_CRC_RETURN (R92). -/
  | shadowCrcReturn (g : CoreId)
  /-- MONITOR_FLUSH_ARRIVAL (R95). -/
  | monitorFlushArrival (d : DieId)
  /-- RANGE_VERDICT (R96). -/
  | rangeVerdict (d : DieId) (e : Fin 64)
  /-- ALU (R110). -/
  | alu (g : CoreId)
  /-- ADDI (R110). -/
  | addi (g : CoreId)
  /-- ORSH (R110). -/
  | orsh (g : CoreId)
  /-- LD (R110). -/
  | ld (g : CoreId)
  /-- ST (R110). -/
  | st (g : CoreId)
  /-- BEQ (R110). -/
  | beq (g : CoreId)
  /-- BNE (R110). -/
  | bne (g : CoreId)
  /-- BLT (R110). -/
  | blt (g : CoreId)
  /-- JMPR (R110). -/
  | jmpr (g : CoreId)
  /-- QADD (R153). -/
  | qadd (g : CoreId)
  /-- QWAIT (R110). -/
  | qwait (g : CoreId)
  /-- QREAD (R110). -/
  | qread (g : CoreId)
  /-- GPEEK (R110). -/
  | gpeek (g : CoreId)
  /-- ISSUE_MXE (R75). -/
  | issueMxe (g : CoreId)
  /-- ISSUE_VXE (R111). -/
  | issueVxe (g : CoreId)
  /-- ISSUE_XFE (R155). -/
  | issueXfe (g : CoreId)
  /-- ENDI (R106). -/
  | endi (g : CoreId)
  /-- FENCE (R110). -/
  | fence (g : CoreId)
  /-- ADD (R116). -/
  | addV (g : CoreId)
  /-- SUB (R116). -/
  | subV (g : CoreId)
  /-- MUL (R116). -/
  | mulV (g : CoreId)
  /-- FMA (R117). -/
  | fma (g : CoreId)
  /-- MAX (R117). -/
  | maxV (g : CoreId)
  /-- MIN (R117). -/
  | minV (g : CoreId)
  /-- ABS (R116). -/
  | absV (g : CoreId)
  /-- NEG (R116). -/
  | negV (g : CoreId)
  /-- SHL (R116). -/
  | shl (g : CoreId)
  /-- SRA (R116). -/
  | sra (g : CoreId)
  /-- SRL (R116). -/
  | srl (g : CoreId)
  /-- SHRR (R116). -/
  | shrr (g : CoreId)
  /-- AND (R115). -/
  | andV (g : CoreId)
  /-- OR (R115). -/
  | orV (g : CoreId)
  /-- XOR (R115). -/
  | xorV (g : CoreId)
  /-- CMPEQ (R117). -/
  | cmpeq (g : CoreId)
  /-- CMPNE (R117). -/
  | cmpne (g : CoreId)
  /-- CMPLT (R117). -/
  | cmplt (g : CoreId)
  /-- CMPLE (R117). -/
  | cmple (g : CoreId)
  /-- SEL (R117). -/
  | sel (g : CoreId)
  /-- SUM (R118). -/
  | sum (g : CoreId)
  /-- SUMSQ (R118). -/
  | sumsq (g : CoreId)
  /-- RMAX (R118). -/
  | rmax (g : CoreId)
  /-- RMIN (R118). -/
  | rmin (g : CoreId)
  /-- AMAX (R118). -/
  | amax (g : CoreId)
  /-- EXP2 (R119). -/
  | exp2 (g : CoreId)
  /-- LOG2 (R119). -/
  | log2 (g : CoreId)
  /-- RCP (R119). -/
  | rcp (g : CoreId)
  /-- RSQRT (R119). -/
  | rsqrt (g : CoreId)
  /-- SQRT (R119). -/
  | sqrt (g : CoreId)
  /-- TANH (R119). -/
  | tanh (g : CoreId)
  /-- SIGM (R119). -/
  | sigm (g : CoreId)
  /-- ERF (R119). -/
  | erf (g : CoreId)
  /-- CVT (R121). -/
  | cvt (g : CoreId)
  /-- RSC (R122). -/
  | rsc (g : CoreId)
  /-- MFLUSH (R124). -/
  | mflush (g : CoreId)
  /-- COPY (R156). -/
  | copy (g : CoreId)
  /-- ZERO (R156). -/
  | zero (g : CoreId)
  /-- QSET (R155). -/
  | qset (g : CoreId)
  /-- HINT (R155). -/
  | hint (g : CoreId)
  /-- DESCRIPTOR_CHAIN_NEXT (R157). -/
  | descriptorChainNext (g : CoreId)
  /-- REQUEST_LANDED (R161). -/
  | requestLanded (g : CoreId) (i : Fin 48)
  /-- REQUEST_AGED (R161). -/
  | requestAged (g : CoreId) (i : Fin 48)
  /-- MEM_BANK_DEGRADED (R161). -/
  | memBankDegraded (g : CoreId) (i : Fin 48)
  /-- DESCRIPTOR_COMPLETE (R156). -/
  | descriptorComplete (g : CoreId) (i : Fin 16)
  /-- XFE_REFETCH (R164). -/
  | xfeRefetch (g : CoreId)
  /-- PATROL_SCRUB (R168). -/
  | patrolScrub (addr : BitVec 48)
  /-- SRAM_SCRUB (R168). -/
  | sramScrub (addr : BitVec 48)
  /-- PROOF_PASS (R178). -/
  | proofPass (c : CtxId)
  /-- RAMP_START (R194). -/
  | rampStart (c : CtxId) (k : Fin 8)
  /-- IMPRESSION_END (R106). -/
  | impressionEnd (g : CoreId)
  /-- TCK_PERIOD_WRITE (R192). -/
  | tckPeriodWrite (w : Word)
  /-- OVERRUN_LIMIT (R202). -/
  | overrunLimit (c : CtxId)
  /-- SAVE_COMPLETE (R222). -/
  | saveComplete (c : CtxId)
  /-- RESTORE_CORE_START (R213). -/
  | restoreCoreStart (c : CtxId) (g : CoreId)
  /-- CORE_RESTORE_DONE (R223). -/
  | coreRestoreDone (c : CtxId) (g : CoreId)
  /-- CORES_BUSY_TIMEOUT (R213). -/
  | coresBusyTimeout (c : CtxId) (r : RingId)
  /-- TEARDOWN_DONE (R231). -/
  | teardownDone (c : CtxId)
  /-- BUSY_RETRY (R228). -/
  | busyRetry (x : Nat)
  /-- PEER_TIMEOUT (R228). -/
  | peerTimeout (x : Nat)
  /-- MIGRATE_CONFIRM (R229). -/
  | migrateConfirm (c : CtxId)
  /-- MIGRATE_FAILURE (R230). -/
  | migrateFailure (c : CtxId) (cause : Fin 4)
  /-- PORT_ENABLE (R237). -/
  | portEnable (p : PortId) (w : Word)
  /-- PORT_RETRAIN (R238). -/
  | portRetrain (p : PortId) (w : Word)
  /-- PORT_TRAINED (R237). -/
  | portTrained (p : PortId)
  /-- PORT_TRAIN_TIMEOUT (R238). -/
  | portTrainTimeout (p : PortId)
  /-- PORT_RETRAIN_TIMER (R238). -/
  | portRetrainTimer (p : PortId)
  /-- LANE_LOCK_LOSS (R238). -/
  | laneLockLoss (p : PortId) (lane : Fin 8)
  /-- LINK_FRAME (R240). -/
  | linkFrame (p : PortId) (frame : List Byte) (corrected : Nat) (uncorrectable : Nat)
  /-- LINK_ACK (R241). -/
  | linkAck (p : PortId) (lseq : Fin 4096)
  /-- LINK_NAK (R241). -/
  | linkNak (p : PortId) (lseq : Fin 4096)
  /-- LINK_REPLAY_TIMEOUT (R241). -/
  | linkReplayTimeout (p : PortId)
  /-- LINK_ACK_TIMER (R240). -/
  | linkAckTimer (p : PortId)
  /-- LINK_DOWN_WORD (R238). -/
  | linkDownWord (p : PortId)
  /-- PORT_FEC_DEGRADED (R243). -/
  | portFecDegraded (p : PortId)
  /-- WRITE (R250). -/
  | writeCell (p : PortId)
  /-- READ_REQ (R246). -/
  | readReqCell (p : PortId)
  /-- READ_DATA (R250). -/
  | readDataCell (p : PortId)
  /-- ACK (R246). -/
  | ackCell (p : PortId)
  /-- QUPD (R154). -/
  | qupdCell (p : PortId)
  /-- BUCKET (R281). -/
  | bucketCell (p : PortId)
  /-- TICK_CELL (R190). -/
  | tickCell (p : PortId) (atNs : Nat)
  /-- DELAY_REQ (R257). -/
  | delayReq (p : PortId) (atNs : Nat)
  /-- DELAY_RESP (R257). -/
  | delayResp (p : PortId) (atNs : Nat)
  /-- SLIP_REQ (R191). -/
  | slipReq (p : PortId)
  /-- MEMBERSHIP (R259). -/
  | membershipCell (p : PortId)
  /-- LEAVING (R262). -/
  | leavingCell (p : PortId)
  /-- REQUEST_TIMEOUT (R251). -/
  | requestTimeout (x : Nat)
  /-- ROUTE_COMMIT (R254). -/
  | routeCommit (i : Fin 1024) (w : Word)
  /-- BUCKET_START (R265). -/
  | bucketStart (c : CtxId) (b : Fin 4096)
  /-- REDUCE_OPERATION (R276). -/
  | reduceOperation (c : CtxId) (b : Fin 4096) (dir : Fin 2)
  /-- GATHER_HOP (R287). -/
  | gatherHop (c : CtxId) (b : Fin 4096) (dir : Fin 2)
  /-- BUCKET_STALL (R291). -/
  | bucketStall (c : CtxId) (b : Fin 4096)
  /-- EPOCH_DRAINED (R298). -/
  | epochDrained (c : CtxId)
  /-- IMPOSITION_TAKES_EFFECT (R314). -/
  | impositionTakesEffect (c : CtxId)
  /-- STREAM_DEADLINE (R323). -/
  | streamDeadline (c : CtxId) (i : Fin 4096)
  /-- GATE_RELEASE (R339). -/
  | gateRelease (c : CtxId)
  /-- FP_REPAIRED (R333). -/
  | fpRepaired (c : CtxId)
  /-- RECOVER (R351). -/
  | recover (c : CtxId) (w : Word)
  /-- RECOVER_DONE (R351). -/
  | recoverDone (c : CtxId)
  /-- ENGINE_WATCHDOG (R361). -/
  | engineWatchdog (g : CoreId) (u : Fin 3)
  /-- THREAD_WATCHDOG (R361). -/
  | threadWatchdog (g : CoreId) (t : Fin 8)
  /-- TRANSFER_TIMEOUT (R361). -/
  | transferTimeout (g : CoreId) (i : Fin 4096)
  /-- GENERATION_WAIT (R361). -/
  | generationWait (g : CoreId)
  /-- TEARDOWN_TIMEOUT (R361). -/
  | teardownTimeout (c : CtxId)
  /-- EDGE_ENGINE_WATCHDOG (R361). -/
  | edgeEngineWatchdog (u : Fin 22)
  /-- BRIDGE_STALL (R361). -/
  | bridgeStall (b : Fin 12)
  /-- SCAN_TIMEOUT (R372). -/
  | scanTimeout (u : Fin 32768)
  /-- CAPTURE_END (R372). -/
  | captureEnd (missing : BitVec 7)
  /-- WARM_RECOVERY_DONE (R369). -/
  | warmRecoveryDone (absent : List Nat) (mhz : List Nat)
  /-- COLOPHON_PERSIST (R376). -/
  | colophonPersist (e : Nat)
  /-- HOLDUP_REMEASURE (R376). -/
  | holdupRemeasure (e : Nat)
  /-- CAPACITANCE_MEASURE (R376). -/
  | capacitanceMeasure (c : Nat)
  /-- WARM (R368). -/
  | warm (w : Word)
  /-- CONNECT (R385). -/
  | connect (src : UdpSource) (m : Framed Datagram)
  /-- DISCONNECT (R385). -/
  | disconnect (m : Framed Datagram)
  /-- RDMA_WRITE (R386). -/
  | rdmaWrite (qp : Fin 4096) (psn : BitVec 24) (vaddr : BitVec 64) (rkey : Word) (data : List Byte) (mute : Framed (List Nat))
  /-- RDMA_READ (R386). -/
  | rdmaRead (qp : Fin 4096) (psn : BitVec 24) (vaddr : BitVec 64) (rkey : Word) (len : BitVec 32) (mute : Framed (List Nat))
  /-- SEND (R380). -/
  | sendMsg (qp : Fin 4096) (psn : BitVec 24) (len : Nat) (h : FrameHead)
  /-- RDMA_READ_RESPONSE (R393). -/
  | rdmaReadResponse (qp : Fin 4096) (data : List Byte) (h : FrameHead)
  /-- ROCE_ACK (R388). -/
  | roceAck (qp : Fin 4096) (psn : BitVec 24) (code : Framed (Fin 4))
  /-- QP_RETRY_EXHAUSTED (R388). -/
  | qpRetryExhausted (qp : Fin 4096)
  /-- CNP (R381). -/
  | cnp (qp : Framed (Fin 4096))
  /-- RATE_INCREASE (R381). -/
  | rateIncrease (qp : Fin 4096)
  /-- PTP_MESSAGE (R383). -/
  | ptpMessage (offset : Framed Int)
  /-- PFC_FRAME (R379). -/
  | pfcFrame (enable : BitVec 8) (quanta : List Nat)
  /-- ARP (R379). -/
  | arp (smac : List Byte) (sip : List Byte) (tip : Framed (List Byte))
  /-- NEIGHBOR_DISCOVERY (R379). -/
  | neighborDiscovery (src : List Byte) (target : Framed (List Byte))
  /-- ICMP_ECHO (R379). -/
  | icmpEcho (src : List Byte) (dst : List Byte) (m : Framed (List Byte))
  /-- ICMPV6_ECHO (R379). -/
  | icmpv6Echo (src : List Byte) (dst : List Byte) (m : Framed (List Byte))
  /-- SQ_DB (R390). -/
  | sqDb (c : CtxId) (r : RingId) (count : BitVec 16)
  /-- CR_CI (R397). -/
  | crCi (c : CtxId) (v : Word)
  /-- CR_CFG (R396). -/
  | crCfg (c : CtxId) (w : Word) (qp : Fin 4096)
  /-- COMMAND_TAKE (R391). -/
  | commandTake (c : CtxId)
  /-- COMPLETION_WRITE (R397). -/
  | completionWrite (c : CtxId)
  /-- EVENT_RING_ENABLE (R399). -/
  | eventRingEnable (w : Word)
  /-- EVENT_RING_CI (R399). -/
  | eventRingCi (w : Word)
  /-- MBX_LO_WRITE (R402). -/
  | mbxLoWrite (n : Channel) (a : Access) (sec : Bool) (v : Word)
  /-- MBX_HI_WRITE (R402). -/
  | mbxHiWrite (n : Channel) (a : Access) (sec : Bool) (v : Word)
  /-- MBX_HI_READ (R402). -/
  | mbxHiRead (n : Channel) (a : Access) (sec : Bool)
  /-- MBX_CLAIM_TIMEOUT (R402). -/
  | mbxClaimTimeout (n : Channel)
  /-- COLD_START (R404). -/
  | coldStart (resetN : Bool) (throttleN : Bool)
  /-- MODULE_READY (R404). -/
  | moduleReady (absent : List Nat) (mhz : List Nat)
  /-- DHCPV6_MESSAGE (R413). -/
  | dhcpv6Message (m : List Byte)
  /-- TFTP_DATA (R413). -/
  | tftpData (n : Nat) (data : List Byte)
  /-- GET_VERSION (R416). -/
  | getVersion (t : Fin 2) (n : SpdmPeer) (m : List Byte)
  /-- GET_CAPABILITIES (R416). -/
  | getCapabilities (t : Fin 2) (n : SpdmPeer) (m : List Byte)
  /-- NEGOTIATE_ALGORITHMS (R416). -/
  | negotiateAlgorithms (t : Fin 2) (n : SpdmPeer) (m : List Byte)
  /-- GET_DIGESTS (R416). -/
  | getDigests (t : Fin 2) (n : SpdmPeer) (m : List Byte)
  /-- GET_CERTIFICATE (R415). -/
  | getCertificate (t : Fin 2) (n : SpdmPeer) (m : List Byte)
  /-- CHALLENGE (R416). -/
  | challenge (t : Fin 2) (n : SpdmPeer) (m : List Byte)
  /-- GET_MEASUREMENTS (R417). -/
  | getMeasurements (t : Fin 2) (n : SpdmPeer) (m : List Byte)
  /-- SPDM_UNSUPPORTED_REQUEST (R416). -/
  | spdmUnsupportedRequest (t : Fin 2) (n : SpdmPeer) (m : List Byte)
  /-- PIN_WINDOW_END (R431). -/
  | pinWindowEnd (i : Fin 3)
  /-- PIN_STEADY (R432). -/
  | pinSteady (i : Fin 3)
  /-- POWER_MANAGER_STEP (R425). -/
  | powerManagerStep (vin : Nat) (iin : Nat) (avg : Nat)
  /-- HOST_CAP_WRITE (R424). -/
  | hostCapWrite (w : Word)
  /-- MODULE_LIMITER (R427). -/
  | moduleLimiter (w : Nat)
  /-- FLOOR_POWER_EXCEEDED (R428). -/
  | floorPowerExceeded (w : Nat) (rail : List Nat)
  /-- THERMAL_SAMPLE (R429). -/
  | thermalSample (tj : List Nat) (edge : List Nat) (stk : List Nat)
  /-- ENEC (R437). -/
  | enec (b : BitVec 8)
  /-- DISEC (R437). -/
  | disec (b : BitVec 8)
  /-- ENTDAA (R437). -/
  | entdaa (a : BitVec 7)
  /-- SETDASA (R437). -/
  | setdasa (sa : BitVec 7) (a : BitVec 7)
  /-- SETMWL (R437). -/
  | setmwl (n : BitVec 16)
  /-- SETMRL (R437). -/
  | setmrl (n : BitVec 16)
  /-- SET_ENDPOINT_ID (R438). -/
  | setEndpointId (x : MctpReq) (op : Fin 4) (eid : BitVec 8)
  /-- GET_ENDPOINT_ID (R438). -/
  | getEndpointId (x : MctpReq)
  /-- GET_MCTP_VERSION_SUPPORT (R438). -/
  | getMctpVersionSupport (x : MctpReq) (type : BitVec 8)
  /-- GET_MESSAGE_TYPE_SUPPORT (R438). -/
  | getMessageTypeSupport (x : MctpReq)
  /-- READ_COLOPHON (R438). -/
  | readColophon (x : RecordReq) (off : BitVec 32) (len : BitVec 16)
  /-- GETTID (R439). -/
  | gettid (x : MctpReq)
  /-- SETTID (R439). -/
  | settid (x : MctpReq) (tid : BitVec 8)
  /-- GETPLDMVERSION (R439). -/
  | getpldmversion (x : MctpReq) (op : BitVec 8) (type : BitVec 8)
  /-- GETPLDMTYPES (R439). -/
  | getpldmtypes (x : MctpReq)
  /-- GETPLDMCOMMANDS (R439). -/
  | getpldmcommands (x : MctpReq) (type : BitVec 8) (version : BitVec 32)
  /-- GETPDRREPOSITORYINFO (R439). -/
  | getpdrrepositoryinfo (x : MctpReq)
  /-- GETPDR (R439). -/
  | getpdr (x : MctpReq) (handle : BitVec 32) (off : BitVec 32) (op : BitVec 8) (count : BitVec 16)
  /-- GETSENSORREADING (R439). -/
  | getsensorreading (x : MctpReq) (id : BitVec 16)
  /-- GETSTATESENSORREADINGS (R439). -/
  | getstatesensorreadings (x : MctpReq) (id : BitVec 16)
  /-- GETNUMERICEFFECTERVALUE (R439). -/
  | getnumericeffectervalue (x : MctpReq) (id : BitVec 16)
  /-- SETNUMERICEFFECTERVALUE (R439). -/
  | setnumericeffectervalue (x : MctpReq) (id : BitVec 16) (size : BitVec 8) (v : BitVec 32)
  /-- TCK_NUM_LO_READ (R445). -/
  | tckNumLoRead (a : Access)
  /-- READ_CLEAR (R8). -/
  | readClear (who : Initiator) (sec : Bool) (mute : Bool) (a : CsAddr)
  /-- REGISTER_WRITE (R8). -/
  | registerWrite (who : Initiator) (sec : Bool) (mute : Bool) (a : CsAddr) (v : Word)
  /-- MGC_HEARTBEAT_RESUMED (R26). -/
  | mgcHeartbeatResumed (m : MgcId)
  /-- TICK_UNIT_ENABLE (R190). -/
  | tickUnitEnable (w : Word)
  /-- PARITY_READ_DONE (R338). -/
  | parityReadDone (c : CtxId)
  /-- CORE_RESET_DONE (R364). -/
  | coreResetDone (g : CoreId) (ok : Bool)
  /-- DIE_RESET_DONE (R358). -/
  | dieResetDone (d : DieId) (cores : BitVec 32) (rest : DieParts)
  /-- RC_RETRANSMIT_TIMEOUT (R388). -/
  | rcRetransmitTimeout (qp : Fin 4096)
  /-- TFTP_OACK (R413). -/
  | tftpOack (b : Nat)
  /-- INPUT_CHANGE_IN_WINDOW (R432). -/
  | inputChangeInWindow (i : Fin 3) (v : Bool)
  /-- MANAGEMENT_PLANE_DOWN (R26). -/
  | managementPlaneDown
  /-- CONTROL_PLANE_DOWN (R27). -/
  | controlPlaneDown
  /-- IMPRESSION_TICK (R198). -/
  | impressionTick
  /-- SLIP_CUTOFF (R197). -/
  | slipCutoff
  /-- TICK_CELL_SEND (R187). -/
  | tickCellSend
  /-- DELAY_MEASUREMENT (R257). -/
  | delayMeasurement
  /-- TICK_HOLDOVER (R190). -/
  | tickHoldover
  /-- TICK_LOST (R190). -/
  | tickLost
  /-- PERIOD_CHANGE_APPLY (R192). -/
  | periodChangeApply
  /-- SEC_WATCHDOG (R361). -/
  | secWatchdog
  /-- RESET_ESCALATED (R363). -/
  | resetEscalated
  /-- RECOVERY_RESTARTED (R363). -/
  | recoveryRestarted
  /-- MGMT_HEARTBEAT (R384). -/
  | mgmtHeartbeat
  /-- COLD (R368). -/
  | cold
  /-- HOST_LINK_DOWN (R379). -/
  | hostLinkDown
  /-- HOST_LINK_UP (R379). -/
  | hostLinkUp
  /-- EVENT_RECORD_WRITE (R398). -/
  | eventRecordWrite
  /-- TFTP_ACK_TIMEOUT (R413). -/
  | tftpAckTimeout
  /-- NET_RECOVERY_RETRY (R413). -/
  | netRecoveryRetry
  /-- SET_ENTRY (R419). -/
  | setEntry
  /-- CLEAR_ENTRY (R419). -/
  | clearEntry
  /-- REQUIRE_ON (R419). -/
  | requireOn
  /-- REQUIRE_OFF (R419). -/
  | requireOff
  /-- SET_OWNER (R419). -/
  | setOwner
  /-- INPUT_POWER_FAULT (R423). -/
  | inputPowerFault
  /-- INPUT_RETURN (R423). -/
  | inputReturn
  /-- PWR_EN_DEASSERT (R433). -/
  | pwrEnDeassert
  /-- MOD_RESET_N_ASSERT (R434). -/
  | modResetNAssert
  /-- MOD_RESET_N_DEASSERT (R434). -/
  | modResetNDeassert
  /-- THROTTLE_ASSERTED (R435). -/
  | throttleAsserted
  /-- THROTTLE_N_DEASSERT (R435). -/
  | throttleNDeassert
  /-- THROTTLE_HELD (R435). -/
  | throttleHeld
  /-- CAP_CHANGED (R424). -/
  | capChanged
  /-- RSTDAA (R437). -/
  | rstdaa
  /-- GETMWL (R437). -/
  | getmwl
  /-- GETMRL (R437). -/
  | getmrl
  /-- GETPID (R437). -/
  | getpid
  /-- GETBCR (R437). -/
  | getbcr
  /-- GETDCR (R437). -/
  | getdcr
  /-- GETSTATUS (R437). -/
  | getstatus
  /-- DHCPV6_RETRANSMIT (R413). -/
  | dhcpv6Retransmit
  /-- HOLDUP_BANK_SPENT (R423). -/
  | holdupBankSpent
  deriving DecidableEq, Repr

end Sys2Proof
end

