-- ==== Sys2Proof/Machine/Bits.lean ====
section
/-!
DEFINITION. Bit fields, little-endian bytes and keyed tables: the helpers every chapter of spec/ uses (R6, R7).
-/

namespace Sys2Proof.Machine

/-- The field [hi:lo] of `w` (R7). -/
def bits (w hi lo : Nat) : Nat := w / 2 ^ lo % 2 ^ (hi - lo + 1)

/-- Bit `i` of `w`. -/
def bit (w i : Nat) : Bool := decide (w / 2 ^ i % 2 = 1)

/-- `w` with its field [hi:lo] replaced by `v`. -/
def setBits (w hi lo v : Nat) : Nat :=
  w / 2 ^ (hi + 1) * 2 ^ (hi + 1) + v % 2 ^ (hi - lo + 1) * 2 ^ lo + w % 2 ^ lo

/-- A Bool as a bit. -/
def b2n (b : Bool) : Nat := if b then 1 else 0

/-- The low `n` bits of `v` read as a two's complement number. -/
def sext (n v : Nat) : Int :=
  if v % 2 ^ n < 2 ^ (n - 1) then (v % 2 ^ n : Nat) else (v % 2 ^ n : Nat) - (2 ^ n : Nat)

/-- An integer wrapped to `n` bits. -/
def wrap (n : Nat) (v : Int) : Nat := (v % (2 ^ n : Nat)).toNat

/-- A sum that saturates at `m`. -/
def satAdd (m a b : Nat) : Nat := if a + b ≤ m then a + b else m

/-- `n` bytes of `v`, least significant first (R6). -/
def leBytes : Nat → Nat → List Byte
  | 0, _ => []
  | n + 1, v => BitVec.ofNat 8 v :: leBytes n (v / 256)

/-- The number whose bytes, least significant first, are given (R6). -/
def leNat : List Byte → Nat
  | [] => 0
  | b :: r => b.toNat + 256 * leNat r

/-- The number whose bytes, most significant first, are given. -/
def beNat (l : List Byte) : Nat := leNat l.reverse

/-- `n` bytes of `v`, most significant first. -/
def beBytes (n v : Nat) : List Byte := (leBytes n v).reverse

/-- The `n` bytes of `l` from `off`, zeros past its end. -/
def slice (l : List Byte) (off n : Nat) : List Byte :=
  let t := (l.drop off).take n
  t ++ List.replicate (n - t.length) 0

/-- The little-endian number of `n` bytes of `l` at `off`. -/
def leAt (l : List Byte) (off n : Nat) : Nat := leNat (slice l off n)

/-- A table keyed by number. -/
structure Tbl (α : Type) where
  entries : List (Nat × α)
  deriving DecidableEq, Repr

/-- The empty table. -/
def Tbl.empty {α : Type} : Tbl α := ⟨[]⟩

/-- The first entry of key `k`. -/
def Tbl.findIn {α : Type} (k : Nat) : List (Nat × α) → Option α
  | [] => none
  | (a, v) :: r => if a = k then some v else Tbl.findIn k r

/-- The entry of key `k`, if there is one. -/
def Tbl.find {α : Type} (t : Tbl α) (k : Nat) : Option α := Tbl.findIn k t.entries

/-- The entry of key `k`, or `d`. -/
def Tbl.get {α : Type} (t : Tbl α) (d : α) (k : Nat) : α := (t.find k).getD d

/-- Insertion in rising key order, replacing the entry of the same key. -/
def Tbl.insertIn {α : Type} (k : Nat) (v : α) : List (Nat × α) → List (Nat × α)
  | [] => [(k, v)]
  | (a, w) :: r =>
    if a = k then (k, v) :: r else if k < a then (k, v) :: (a, w) :: r else (a, w) :: Tbl.insertIn k v r

/-- The table with `k` mapped to `v`. -/
def Tbl.set {α : Type} (t : Tbl α) (k : Nat) (v : α) : Tbl α := ⟨Tbl.insertIn k v t.entries⟩

/-- The table without the entries whose key satisfies `p`. -/
def Tbl.dropIf {α : Type} (t : Tbl α) (p : Nat → Bool) : Tbl α := ⟨t.entries.filter fun e => !p e.1⟩

/-- The table without key `k`. -/
def Tbl.erase {α : Type} (t : Tbl α) (k : Nat) : Tbl α := t.dropIf (fun a => a == k)

/-- The keys. -/
def Tbl.keys {α : Type} (t : Tbl α) : List Nat := t.entries.map (·.1)

/-- Every value mapped, keys kept. -/
def Tbl.map {α : Type} (t : Tbl α) (f : Nat → α → α) : Tbl α := ⟨t.entries.map fun e => (e.1, f e.1 e.2)⟩

/-- `l` with element `i` replaced. -/
def listSet {α : Type} : List α → Nat → α → List α
  | [], _, _ => []
  | _ :: r, 0, v => v :: r
  | a :: r, i + 1, v => a :: listSet r i v

/-- A left fold over 0 … n-1. -/
def iter {σ : Type} : Nat → (Nat → σ → σ) → σ → σ
  | 0, _, s => s
  | n + 1, f, s => f n (iter n f s)

/-- `v` rounded up to a multiple of `m`. -/
def alignUp (v m : Nat) : Nat := (v + m - 1) / m * m

/-- The base 2 logarithm, rounded up. -/
def log2Up (n : Nat) : Nat := if n ≤ 1 then 0 else Nat.log2 (n - 1) + 1

end Sys2Proof.Machine
end

