-- ==== Sys2Proof/Machine/Hash.lean ====
section
/-!
DEFINITION. The check codes, the hash and the random-word generator that spec/ names: CRC-32C (R91, R249), the 802.3
CRC-32 (R253), CRC-64 ECMA-182 (R331, R342), SHA-384 (R178, R409), the GF(2^8) multiply of R344 and Philox4x32-10 (R55).
-/

namespace Sys2Proof.Machine

/-- One step of a reflected CRC over one bit, for a CRC of any width. -/
def crcBit (poly c : Nat) : Nat := if c % 2 = 1 then (c / 2) ^^^ poly else c / 2

/-- One step of a reflected CRC over one byte. -/
def crcByte (poly : Nat) (c : Nat) (b : Byte) : Nat := iter 8 (fun _ x => crcBit poly x) (c ^^^ b.toNat)

/-- A reflected CRC with all-ones start and final complement. -/
def crcReflected (width poly : Nat) (l : List Byte) : Nat :=
  (l.foldl (crcByte poly) (2 ^ width - 1)) ^^^ (2 ^ width - 1)

/-- CRC-32C (R249). -/
def crc32c (l : List Byte) : Nat := crcReflected 32 0x82F63B78 l

/-- The CRC-32C of R249 with its register started at `f` as it stands. -/
def crc32cSeeded (f : Nat) (l : List Byte) : Nat := l.foldl (crcByte 0x82F63B78) f ^^^ 0xFFFFFFFF

/-- The CRC-32 of IEEE 802.3. -/
def crc32 (l : List Byte) : Nat := crcReflected 32 0xEDB88320 l

/-- One byte of the unreflected CRC-64 with the ECMA-182 polynomial. -/
def crc64Byte (c : Nat) (b : Byte) : Nat :=
  iter 8 (fun _ x => if x / 2 ^ 63 % 2 = 1 then (x * 2 % 2 ^ 64) ^^^ 0x42F0E1EBA9EA3693 else x * 2 % 2 ^ 64)
    (c ^^^ (b.toNat * 2 ^ 56))

/-- CRC-64 with the ECMA-182 polynomial, start value 0 and no final complement. -/
def crc64 (l : List Byte) : Nat := l.foldl crc64Byte 0

/-- x · v in GF(2^8) modulo 0x11D. -/
def gfDouble (v : Nat) : Nat := if v < 128 then 2 * v else (2 * v) ^^^ 0x11D

/-- a · v with the bits of `a` taken from the top down (Horner's rule). -/
def gfTimes (a v : Nat) : Nat :=
  iter 8 (fun i acc => (gfDouble acc) ^^^ (if bit a (7 - i) then v else 0)) 0

/-- One Philox4x32 round: the four counter words and the two key words (R55). -/
def philoxRound (c : Nat × Nat × Nat × Nat) (k0 k1 : Nat) : Nat × Nat × Nat × Nat :=
  let p0 := 0xD2511F53 * c.1
  let p1 := 0xCD9E8D57 * c.2.2.1
  ((p1 / 2 ^ 32) ^^^ c.2.1 ^^^ k0, p1 % 2 ^ 32, (p0 / 2 ^ 32) ^^^ c.2.2.2 ^^^ k1, p0 % 2 ^ 32)

/-- Philox4x32-10 of Salmon, Moraes, Dror and Shaw: ten rounds with the Weyl key schedule (R55). -/
def philox (c0 c1 c2 c3 k0 k1 : Nat) : Nat × Nat × Nat × Nat :=
  iter 10 (fun i c => philoxRound c ((k0 + i * 0x9E3779B9) % 2 ^ 32) ((k1 + i * 0xBB67AE85) % 2 ^ 32)) (c0, c1, c2, c3)

/-- The random word of element `e`: word e mod 4 of the call whose counter c0 holds e div 4 (R55). -/
def philoxWord (e c1 c2 c3 k0 k1 : Nat) : Nat :=
  let w := philox (e / 4 % 2 ^ 32) c1 c2 c3 k0 k1
  if e % 4 = 0 then w.1 else if e % 4 = 1 then w.2.1 else if e % 4 = 2 then w.2.2.1 else w.2.2.2

/-- The bits below `2 ^ b` of the `k`-th root of `v`, rounded down, found from the top; `x` holds the bits above. -/
def rootBits (k v : Nat) : Nat → Nat → Nat
  | 0, x => x
  | b + 1, x => rootBits k v b (if (x + 2 ^ b) ^ k ≤ v then x + 2 ^ b else x)

/-- The first 64 bits of the fraction of the `k`-th root of a number below 512 (FIPS 180-4, 4.2.3 and 5.3.4). -/
def rootFraction (k p : Nat) : Nat := rootBits k (p * 2 ^ (64 * k)) 69 0 % 2 ^ 64

/-- The first 80 primes. -/
def shaPrimes : List Nat :=
  ((List.range 408).map (· + 2)).filter fun n => (List.range 19).all fun d => n % (d + 2) != 0 || n == d + 2

/-- The words added in the rounds: the fractions of the primes' cube roots. -/
def shaAddends : List Nat := shaPrimes.map (rootFraction 3)

/-- The chaining value that SHA-384 starts with: the fractions of the square roots of the ninth to sixteenth primes. -/
def shaStart : List Nat := ((shaPrimes.drop 8).take 8).map (rootFraction 2)

/-- A 64-bit right rotation. -/
def ror64 (n v : Nat) : Nat := (v / 2 ^ n) + (v % 2 ^ n) * 2 ^ (64 - n)

/-- The next word of the SHA message schedule, the schedule held newest first. -/
def shaNext (w : List Nat) : Nat :=
  let a := w.getD 1 0
  let b := w.getD 14 0
  let s1 := (ror64 19 a) ^^^ (ror64 61 a) ^^^ (a / 2 ^ 6)
  let s0 := (ror64 1 b) ^^^ (ror64 8 b) ^^^ (b / 2 ^ 7)
  (s1 + w.getD 6 0 + s0 + w.getD 15 0) % 2 ^ 64

/-- One SHA round over the eight working words. -/
def shaRound (v : List Nat) (kw : Nat) : List Nat :=
  match v with
  | [a, b, c, d, e, f, g, h] =>
    let s1 := (ror64 14 e) ^^^ (ror64 18 e) ^^^ (ror64 41 e)
    let ch := (e &&& f) ^^^ ((2 ^ 64 - 1 - e) &&& g)
    let t1 := h + s1 + ch + kw
    let s0 := (ror64 28 a) ^^^ (ror64 34 a) ^^^ (ror64 39 a)
    let mj := (a &&& b) ^^^ (a &&& c) ^^^ (b &&& c)
    [(t1 + s0 + mj) % 2 ^ 64, a, b, c, (d + t1) % 2 ^ 64, e, f, g]
  | _ => v

/-- One 128-byte block of SHA-384. -/
def shaBlock (h : List Nat) (blk : List Byte) : List Nat :=
  let w := iter 16 (fun i acc => beNat (slice blk (8 * i) 8) :: acc) []
  let w := iter 64 (fun _ acc => shaNext acc :: acc) w
  let v := List.foldl shaRound h ((w.reverse.zip shaAddends).map fun p => p.1 + p.2)
  (h.zip v).map fun p => (p.1 + p.2) % 2 ^ 64

/-- The blocks of a padded message. -/
def shaBlocks : Nat → List Nat → List Byte → List Nat
  | 0, h, _ => h
  | n + 1, h, l => shaBlocks n (shaBlock h (l.take 128)) (l.drop 128)

/-- SHA-384: 48 bytes. -/
def sha384 (l : List Byte) : List Byte :=
  let n := l.length
  let z := (239 - n % 128) % 128
  let m := l ++ [0x80#8] ++ List.replicate z 0 ++ beBytes 16 (8 * n)
  let h := shaBlocks (m.length / 128) shaStart m
  ((h.map (beBytes 8)).flatten).take 48

/-- HMAC-SHA-384. -/
def hmac384 (key msg : List Byte) : List Byte :=
  let k := slice key 0 128
  sha384 (k.map (· ^^^ 0x5C#8) ++ sha384 (k.map (· ^^^ 0x36#8) ++ msg))

/-! ### DER -/

/-- The length octets of DER. -/
def derLen (n : Nat) : List Byte :=
  if n < 128 then [BitVec.ofNat 8 n]
  else
    let k := n.log2 / 8 + 1
    BitVec.ofNat 8 (0x80 + k) :: beBytes k n

/-- A value of DER with tag `tag`. -/
def der (tag : Byte) (l : List Byte) : List Byte := tag :: (derLen l.length ++ l)

/-- An INTEGER that is not negative. -/
def derNat (n : Nat) : List Byte := der 0x02 (beBytes ((n.log2 + 1) / 8 + 1) n)

def derSeq (l : List Byte) : List Byte := der 0x30 l

/-- A BIT STRING of whole bytes. -/
def derBits (l : List Byte) : List Byte := der 0x03 (0#8 :: l)

end Sys2Proof.Machine
end

