-- ==== Sys2Proof/Config.lean ====
section
/-!
DEFINITION. What spec/ leaves to an implementation or leaves open: constants with no body (free values), and the few
figures of the KW8-1536L that are configuration.
-/

namespace Sys2Proof.Config

/-- A fresh free value: what the manual leaves open, by the model's free-value counter (assumption 5). -/
opaque freeWord : Nat → BitVec 64

/-- The word that chooses, within Table 4-8's error bound, the FP32 result of function unit `op` on an ordinary input
(R119 makes it one function of the input). -/
opaque functionUnit : BitVec 8 → BitVec 32 → BitVec 32

/-- How many significant bits the tile adder carries beyond 48 (R70 gives only the least number). -/
opaque adderExtra : BitVec 8

/-- To which side the tile adder keeps an exact sum that needs more bits than it carries, by sign, magnitude and exponent
(R70 gives no rule): away from zero, or toward it. -/
opaque adderUp : Bool → Nat → Int → Bool

/-- The SR stream field of a SHRR with RND = SR (Table 4-6 gives it none): by core, impression and instruction word. -/
opaque shrrStream : Nat → Nat → Nat → BitVec 16

/-- The 8 check bytes of a 64-byte block under RS(72,64) (R165 gives neither the field nor the generator). -/
opaque rsCheck : List (BitVec 8) → BitVec 64

/-- The nonce of an ECDSA signature under a private scalar over a message (R416: FIPS 186-5 leaves it to the signer). -/
opaque signNonce : Nat → List (BitVec 8) → BitVec 384

/-- The parts of the alias certificate that R415 does not give, in DER, by part, identity certificate and alias key: the serial
number's bytes (0), the issuer (1), the validity (2), the subject (3), and the type of the extension (4). -/
opaque certPart : Nat → List (BitVec 8) → List (BitVec 8) → List (BitVec 8)

/-- The lowest bank voltage, in mV, at which VDD_MGT stays in regulation (R376 gives no figure); 16 bits, as the module's other
voltages (R422). -/
opaque holdupMinMv : BitVec 16

/-- I3C characteristics whose values the manual does not give (R437): BCR (0), DCR (1), status bits (2, 3). -/
opaque i3cByte : Nat → BitVec 8

/-- SPDM fields whose values the manual does not give (R416, R417): CTExponent (0), the value type of measurement
block n (1 + n) below its raw bit, and a slot's attributes (64). -/
opaque spdmByte : Nat → BitVec 8

/-- The bytes of a PDR that R439 and Table 15-5 do not give: by record, field and position. -/
opaque pdrByte : Nat → Nat → Nat → BitVec 8

/-- The version that GetPLDMVersion gives for a PLDM type (R439). -/
opaque pldmVersion : Nat → BitVec 32

/-- The version entries that Get MCTP Version Support gives for a message type (R438). -/
opaque mctpVersions : Nat → List (BitVec 8)

/-- The small-state layout, which is internal to the device (R221): byte by core, offset and save number. -/
opaque smallStateByte : Nat → Nat → Nat → BitVec 8

/-- The layout of the context header (R221, R222, R266), which is internal too: byte by offset and write number. -/
opaque headerByte : Nat → Nat → BitVec 8

/-- Whether the digest that a core image of another module carries matches its small state (R233, R229). -/
opaque digestGood : List (BitVec 8) → Bool

/-- The layout of the frozen unit state that QUERY WHAT 2 returns (R394): byte by core and offset. -/
opaque frozenByte : Nat → Nat → BitVec 8

/-- The CREDIT field that returns the given frames by class (R242 gives no coding). -/
opaque creditField : List Nat → BitVec 16

/-- The frames of a class that a CREDIT field returns (R242 gives no coding). -/
opaque creditGrant : BitVec 16 → Nat → Nat

/-- The supply voltage of a compute die, in mV, that matches a clock in MHz (R425 gives only its bounds). -/
opaque railMv : Nat → BitVec 10

end Sys2Proof.Config
end

