-- ==== Sys2Proof/Machine/Operands.lean ====
section
/-!
DEFINITION. Operand forms: the number formats of spec/02_number_formats.md, exact values, the three roundings (R51),
every conversion of Table 2-9, scale records (R44, R46), the rescale (R48) and the BS8 and BS16 arithmetic (R63 to R68).
-/

namespace Sys2Proof.Machine

/-- Rounding modes (R50). -/
inductive Round where
  | rne | rto | sr
  deriving DecidableEq, Repr

/-- The rounding mode of a 2-bit field; 0b11 is reserved (R50). -/
def Round.ofBits (v : Nat) : Option Round :=
  if v = 0 then some .rne else if v = 1 then some .rto else if v = 2 then some .sr else none

/-- Fields of a floating format (Table 2-3); `fn` marks FP8-E4M3, whose top exponent is finite (R37). -/
structure Fp where
  expBits : Nat
  fracBits : Nat
  bias : Nat
  fn : Bool
  deriving DecidableEq, Repr

def fpE4M3 : Fp := ⟨4, 3, 7, true⟩
def fpE5M2 : Fp := ⟨5, 2, 15, false⟩
def fpBF16 : Fp := ⟨8, 7, 127, false⟩
def fpFP16 : Fp := ⟨5, 10, 15, false⟩
def fpFP32 : Fp := ⟨8, 23, 127, false⟩

/-- The format codes of Table 2-1 that may appear anywhere (R30, R31). -/
inductive Fmt where
  | int4 | int8 | uint8 | int16 | int32 | e4m3 | e5m2 | bf16 | fp16 | fp32
  deriving DecidableEq, Repr

/-- The format of a 4-bit code; 0xA to 0xF are reserved outside bucket and reduction descriptors (R31). -/
def Fmt.ofCode (c : Nat) : Option Fmt :=
  match c with
  | 0 => some .int4 | 1 => some .int8 | 2 => some .uint8 | 3 => some .int16 | 4 => some .int32
  | 5 => some .e4m3 | 6 => some .e5m2 | 7 => some .bf16 | 8 => some .fp16 | 9 => some .fp32
  | _ => none

/-- Width in bits (Table 2-1). -/
def Fmt.width : Fmt → Nat
  | .int4 => 4 | .int8 => 8 | .uint8 => 8 | .int16 => 16 | .int32 => 32
  | .e4m3 => 8 | .e5m2 => 8 | .bf16 => 16 | .fp16 => 16 | .fp32 => 32

/-- The floating fields of a floating format. -/
def Fmt.fp : Fmt → Option Fp
  | .e4m3 => some fpE4M3 | .e5m2 => some fpE5M2 | .bf16 => some fpBF16 | .fp16 => some fpFP16 | .fp32 => some fpFP32
  | _ => none

/-- Whether a format is floating. -/
def Fmt.isFp (f : Fmt) : Bool := f.fp.isSome

/-- The symmetric saturation limit of a signed integer format (Table 2-2). -/
def Fmt.satLimit (f : Fmt) : Nat := 2 ^ (f.width - 1) - 1

/-- Bytes of `n` elements: INT4 packs two to a byte (R34). -/
def Fmt.bytes (f : Fmt) (n : Nat) : Nat := (n * f.width + 7) / 8

/-- An exact value: ± mag × 2^exp, an infinity or a NaN (R36, R37). Zeros keep their sign (R40). -/
inductive Num where
  | fin (neg : Bool) (mag : Nat) (exp : Int)
  | inf (neg : Bool)
  | nan
  deriving DecidableEq, Repr

/-- An integer as an exact value; 0 is +0 (R40). -/
def Num.ofInt (v : Int) : Num := .fin (decide (v < 0)) v.natAbs 0

/-- The value of a floating code (R36, R37). -/
def Fp.decode (f : Fp) (code : Nat) : Num :=
  let neg := bit code (f.expBits + f.fracBits)
  let e := bits code (f.expBits + f.fracBits - 1) f.fracBits
  let m := code % 2 ^ f.fracBits
  let top := 2 ^ f.expBits - 1
  if e = top ∧ f.fn = false then (if m = 0 then .inf neg else .nan)
  else if e = top ∧ f.fn = true ∧ m = 2 ^ f.fracBits - 1 then .nan
  else if e = 0 then .fin neg m (1 - (f.bias : Int) - f.fracBits)
  else .fin neg (m + 2 ^ f.fracBits) ((e : Int) - f.bias - f.fracBits)

/-- The canonical NaN (Table 2-5): the quiet bit alone, all ones for FP8-E4M3. -/
def Fp.canonNan (f : Fp) : Nat :=
  (2 ^ f.expBits - 1) * 2 ^ f.fracBits + (if f.fn then 2 ^ f.fracBits - 1 else 2 ^ (f.fracBits - 1))

/-- The largest finite magnitude's code (Table 2-4). -/
def Fp.maxCode (f : Fp) : Nat :=
  if f.fn then (2 ^ f.expBits - 1) * 2 ^ f.fracBits + 2 ^ f.fracBits - 2
  else (2 ^ f.expBits - 1) * 2 ^ f.fracBits - 1

/-- The code of infinity. -/
def Fp.infCode (f : Fp) : Nat := (2 ^ f.expBits - 1) * 2 ^ f.fracBits

/-- The sign bit in place. -/
def Fp.sign (f : Fp) (neg : Bool) : Nat := if neg then 2 ^ (f.expBits + f.fracBits) else 0

/-- round_mag of R51. -/
def roundMag (mag n : Nat) (mode : Round) (r : Nat) : Nat :=
  if n = 0 then mag
  else
    let q := mag / 2 ^ n
    let rem := mag % 2 ^ n
    match mode with
    | .rne => if rem > 2 ^ (n - 1) ∨ (rem = 2 ^ (n - 1) ∧ q % 2 = 1) then q + 1 else q
    | .rto => if rem ≠ 0 ∧ q % 2 = 0 then q + 1 else q
    | .sr =>
      let f := if 32 ≤ n then rem / 2 ^ (n - 32) else rem * 2 ^ (32 - n)
      if 2 ^ 32 ≤ f + r then q + 1 else q

/-- Shift of a magnitude by 2^sh, rounding when bits are discarded. -/
def roundShift (mag : Nat) (sh : Int) (mode : Round) (r : Nat) : Nat :=
  if 0 ≤ sh then mag * 2 ^ sh.toNat else roundMag mag (-sh).toNat mode r

/-- What a rounding reports: the code, a saturation (R62) and a zero loss (R62). -/
structure Rounded where
  code : Nat
  sat : Bool
  zeroLoss : Bool
  deriving DecidableEq, Repr

/-- Rounding of an exact value into a floating format (R51, R53, R60, R61). -/
def Fp.round (f : Fp) (mode : Round) (satBit : Bool) (r : Nat) : Num → Rounded
  | .nan => ⟨f.canonNan, false, false⟩
  | .inf neg =>
    ⟨f.sign neg + (if f.fn || satBit then f.maxCode else f.infCode), true, false⟩
  | .fin neg mag exp =>
    if mag = 0 then ⟨f.sign neg, false, false⟩
    else
      let top : Int := exp + (Nat.log2 mag : Nat)
      let emin : Int := 1 - f.bias
      let ulp : Int := (if top < emin then emin else top) - f.fracBits
      let q := roundShift mag (exp - ulp) mode r
      let carry : Bool := decide (2 ^ (f.fracBits + 1) ≤ q)
      let q' := if carry then q / 2 else q
      let u' := if carry then ulp + 1 else ulp
      let field : Nat := if q' < 2 ^ f.fracBits then 0 else (u' + f.fracBits + f.bias).toNat
      let code := if field = 0 then q' else field * 2 ^ f.fracBits + (q' - 2 ^ f.fracBits)
      if f.maxCode < code then
        ⟨f.sign neg + (if f.fn || satBit || mode != .rne then f.maxCode else f.infCode), true, false⟩
      else ⟨f.sign neg + code, false, decide (q = 0)⟩

/-- Rounding of an exact value to an integer by the mode (R51, R58). -/
def Num.toInt (mode : Round) (r : Nat) : Num → Int
  | .fin neg mag exp =>
    let q : Nat := roundShift mag exp mode r
    if neg then -(q : Int) else q
  | _ => 0

/-- The exact value of an integer code; `z` is the zero point of UINT8 (R35). -/
def Fmt.intValue (f : Fmt) (z code : Nat) : Int :=
  if f = .uint8 then (code % 256 : Nat) - (z : Int) else sext f.width code

/-- The exact value of a code of any format. -/
def Fmt.value (f : Fmt) (z code : Nat) : Num :=
  match f.fp with
  | some p => p.decode (code % 2 ^ f.width)
  | none => Num.ofInt (f.intValue z code)

/-- Saturation of an integer into an integer format, with the destination's zero point (R33, R58). -/
def Fmt.saturate (f : Fmt) (z : Nat) (v : Int) : Nat × Bool :=
  if f = .uint8 then
    if v + z < 0 then (0, true) else if 255 < v + z then (255, true) else ((v + z).toNat, false)
  else if (f.satLimit : Int) < v then (wrap f.width f.satLimit, true)
  else if v < -(f.satLimit : Int) then (wrap f.width (-(f.satLimit : Int)), true)
  else (wrap f.width v, false)

/-- What a conversion of one element reports (R61, R62, R95). -/
structure Converted where
  code : Nat
  sat : Bool
  zeroLoss : Bool
  nonFinite : Bool
  nonZero : Bool
  deriving DecidableEq, Repr

/-- Whether a value counts as a non-zero input: an infinity does, a NaN does not (R62, R95). -/
def Num.isNonZero : Num → Bool
  | .fin _ m _ => m != 0
  | .inf _ => true
  | .nan => false

/-- Whether a value is an infinity or a NaN. -/
def Num.isNonFinite : Num → Bool
  | .fin _ _ _ => false
  | _ => true

/-- Conversion of an exact value into a format (R58, R60, R61). -/
def Fmt.ofNum (f : Fmt) (z : Nat) (mode : Round) (satBit : Bool) (r : Nat) (v : Num) : Rounded :=
  match f.fp with
  | some p => p.round mode satBit r v
  | none =>
    match v with
    | .nan => ⟨(f.saturate z 0).1, false, false⟩
    | .inf neg => ⟨if f = .uint8 then (if neg then 0 else 255)
                   else wrap f.width (if neg then -(f.satLimit : Int) else f.satLimit), true, false⟩
    | .fin _ m _ =>
      let i := v.toInt mode r
      let s := f.saturate z i
      ⟨s.1, s.2, decide (m ≠ 0 ∧ i = 0)⟩

/-- Conversion of one element from `src` to `dst` (R58 to R62). Between equal floating formats the value is copied
and a NaN becomes the canonical NaN. `shift` is the right shift of an integer to integer convert (R59). -/
def convert (src dst : Fmt) (zs zd shift : Nat) (mode : Round) (satBit : Bool) (r code : Nat) : Converted :=
  let v := src.value zs code
  let nf := v.isNonFinite
  let nz := v.isNonZero
  if src = dst ∧ src.isFp = true then
    match src.fp with
    | some p => ⟨if v = .nan then p.canonNan else code % 2 ^ src.width, nf && nz, false, nf, nz⟩
    | none => ⟨code, false, false, nf, nz⟩
  else
    let w := if src.isFp || dst.isFp then v
             else match v with
                  | .fin neg m e => .fin neg m (e - shift)
                  | x => x
    let q := dst.ofNum zd mode satBit r w
    ⟨q.code, q.sat, q.zeroLoss, nf, nz⟩

/-! ### Exact arithmetic on values -/

/-- The negated value. -/
def Num.neg : Num → Num
  | .fin s m e => .fin (!s) m e
  | .inf s => .inf (!s)
  | .nan => .nan

/-- The magnitude. -/
def Num.abs : Num → Num
  | .fin _ m e => .fin false m e
  | .inf _ => .inf false
  | .nan => .nan

/-- The signed significand of a finite value at exponent `e`, which is at most its own. -/
def finAt (neg : Bool) (m : Nat) (exp e : Int) : Int :=
  let v : Int := (m * 2 ^ (exp - e).toNat : Nat)
  if neg then -v else v

/-- The exact sum. Equal and opposite finite values give +0, two zeros of one sign keep it (IEEE 754 under RNE). -/
def Num.add : Num → Num → Num
  | .nan, _ => .nan
  | _, .nan => .nan
  | .inf s, .inf t => if s = t then .inf s else .nan
  | .inf s, _ => .inf s
  | _, .inf t => .inf t
  | .fin s m e, .fin t n f =>
    let g := if e ≤ f then e else f
    let v := finAt s m e g + finAt t n f g
    if v = 0 then .fin (s && t) 0 g else .fin (decide (v < 0)) v.natAbs g

/-- The exact product. -/
def Num.mul : Num → Num → Num
  | .nan, _ => .nan
  | _, .nan => .nan
  | .inf s, .inf t => .inf (s != t)
  | .inf s, .fin t n _ => if n = 0 then .nan else .inf (s != t)
  | .fin s m _, .inf t => if m = 0 then .nan else .inf (s != t)
  | .fin s m e, .fin t n f => .fin (s != t) (m * n) (e + f)

/-- a < b on finite and infinite values; zeros compare equal. -/
def Num.lt : Num → Num → Bool
  | .nan, _ => false
  | _, .nan => false
  | .inf s, .inf t => s && !t
  | .inf s, _ => s
  | _, .inf t => !t
  | .fin s m e, .fin t n f =>
    let g := if e ≤ f then e else f
    decide (finAt s m e g < finAt t n f g)

/-- a = b as values; a NaN equals nothing. -/
def Num.eqv : Num → Num → Bool
  | .nan, _ => false
  | _, .nan => false
  | a, b => !(a.lt b) && !(b.lt a)

/-- The bit-by-bit integer square root: the largest r with r² ≤ n, found over `k` bits. -/
def isqrt (k n : Nat) : Nat :=
  iter k (fun i r => let t := r + 2 ^ (k - 1 - i); if t * t ≤ n then t else r) 0

/-- A value whose FP32 rounding by RNE is the correctly rounded square root (R119): 64 root bits and a sticky bit. -/
def Num.sqrt : Num → Num
  | .nan => .nan
  | .inf s => if s then .nan else .inf false
  | .fin s m e =>
    if m = 0 then .fin s 0 e
    else if s then .nan
    else
      let odd := e % 2 = 1
      let m' := if odd then 2 * m else m
      let e' := if odd then e - 1 else e
      let w := m' * 2 ^ 64
      let r := isqrt 64 w
      .fin false (2 * r + (if r * r = w then 0 else 1)) ((e' - 64) / 2 - 1)

/-- The code of a format (Table 2-1). -/
def Fmt.code : Fmt → Nat
  | .int4 => 0 | .int8 => 1 | .uint8 => 2 | .int16 => 3 | .int32 => 4
  | .e4m3 => 5 | .e5m2 => 6 | .bf16 => 7 | .fp16 => 8 | .fp32 => 9

/-- `n` codes of `k` bytes each, little-endian. -/
def unpackBytes (k : Nat) : Nat → List Byte → List Nat
  | 0, _ => []
  | n + 1, l => leNat (l.take k) :: unpackBytes k n (l.drop k)

/-- `n` element codes of a format; INT4 from two to a byte (R34). -/
def Fmt.unpack (f : Fmt) (n : Nat) (l : List Byte) : List Nat :=
  if f = .int4 then ((l.map fun b => [b.toNat % 16, b.toNat / 16]).flatten).take n
  else unpackBytes (f.width / 8) n l

/-- INT4 codes packed two to a byte, an odd last one with zero above it (R34). -/
def packNibbles : List Nat → List Byte
  | [] => []
  | [a] => [BitVec.ofNat 8 (a % 16)]
  | a :: b :: r => BitVec.ofNat 8 (a % 16 + 16 * (b % 16)) :: packNibbles r

/-- The bytes of element codes. -/
def Fmt.pack (f : Fmt) (l : List Nat) : List Byte :=
  if f = .int4 then packNibbles l else (l.map (leBytes (f.width / 8))).flatten

/-- Rounding to FP32 in one direction, for the monitor's peaks (R123): up toward +∞, else toward −∞. -/
def peakCode (up : Bool) : Num → Nat
  | .nan => fpFP32.canonNan
  | .inf neg => fpFP32.sign neg + fpFP32.infCode
  | .fin neg mag exp =>
    if mag = 0 then 0
    else
      let away := up != neg
      let top : Int := exp + (Nat.log2 mag : Nat)
      let ulp : Int := (if top < -126 then -126 else top) - 23
      let sh := exp - ulp
      let q := if 0 ≤ sh then mag * 2 ^ sh.toNat
               else mag / 2 ^ (-sh).toNat + (if away && decide (mag % 2 ^ (-sh).toNat ≠ 0) then 1 else 0)
      let r := fpFP32.round .rto true 0 (.fin neg q ulp)
      if r.sat && away then fpFP32.sign neg + fpFP32.infCode else r.code

/-- An FP32 sum rounded once (R70, R118). -/
def fadd32 (a b : Nat) : Nat := (fpFP32.round .rne false 0 ((fpFP32.decode a).add (fpFP32.decode b))).code

/-! ### Sum blocks (R73) -/

/-- Consecutive pieces of `k` elements. -/
def chunks {α : Type} (k : Nat) : Nat → List α → List (List α)
  | 0, _ => []
  | n + 1, l => l.take k :: chunks k n (l.drop k)

/-- A column of exact values added up and rounded to a 32-bit code: INT32 for an integer format, FP32 otherwise. -/
def sumCode (f : Fmt) (l : List Num) : Nat :=
  if f.isFp then (fpFP32.round .rne false 0 (l.foldl Num.add (.fin false 0 0))).code
  else wrap 32 (l.foldl (fun (a : Int) n => a + n.toInt .rne 0) 0)

/-- The value of an operand's code in a sum: raw, with no zero point (R86). -/
def rawValue (f : Fmt) (c : Nat) : Num := f.value 0 c

/-- The 1,088 bytes of a sum block (Table 3-2) of `rows` rows of `len` codes: an A block has a sum per K position, a B
block one per column, so both sum down the rows. -/
def sumBlock (isB k256 : Bool) (f : Fmt) (rows len : Nat) (codes : List Nat) : List Byte :=
  let m := chunks len rows (codes.map (rawValue f))
  let col := fun (g : Num → Num) (j : Nat) => sumCode f (m.map fun r => g (r.getD j (.fin false 0 0)))
  let s := ((List.range len).map fun j => leBytes 4 (col id j)).flatten
  let t := if f.isFp then ((List.range len).map fun j => leBytes 4 (col Num.abs j)).flatten else []
  let head := [BitVec.ofNat 8 (if isB then 2 else 1), BitVec.ofNat 8 f.code, BitVec.ofNat 8 (if isB then 127 else rows - 1),
    1, BitVec.ofNat 8 (b2n k256)]
  slice (slice head 0 64 ++ (if f.isFp then slice s 0 512 ++ t else s)) 0 1088

/-- Operand formats of Table 3-1 that a SUMK value allows (R155). -/
def sumkFmtOk (sumk : Nat) (f : Fmt) : Bool :=
  match f with
  | .int4 => true
  | .int8 => sumk == 1 || sumk == 2
  | .uint8 => sumk == 1
  | .e4m3 => sumk == 1 || sumk == 2
  | .e5m2 => sumk == 1 || sumk == 2
  | .bf16 => sumk == 1 || sumk == 2
  | .fp16 => sumk == 1 || sumk == 2
  | _ => false

/-- Tile K of a SUMK value, and whether it builds a B block (Table 4-5). -/
def sumkTileK (sumk : Nat) : Nat := if sumk ≤ 2 then 128 else 256
def sumkIsB (sumk : Nat) : Bool := sumk % 2 == 0

/-- R127: rows and row length of the block that `n` elements fill under a SUMK value, or none. DESIGN CHOICE
(assumption 88): the rows are counted from N alone; Table 4-6 does not say what SN's element offset adds. -/
def sumkShape (sumk n : Nat) : Option (Nat × Nat) :=
  let k := sumkTileK sumk
  if sumkIsB sumk then (if n = k * 128 then some (k, 128) else none)
  else if n % k = 0 ∧ 1 ≤ n / k ∧ n / k ≤ 128 then some (n / k, k) else none

/-! ### Scale records -/

/-- A scale record (R44). -/
structure ScaleRec where
  scale : Nat
  zp : Nat
  fmt : Fmt
  cls : Nat
  deriving DecidableEq, Repr

/-- Whether an FP32 code is a positive normal number. -/
def posNormal (s : Nat) : Bool := decide (0x00800000 ≤ s) && decide (s < 0x7F800000)

/-- The record held in 8 little-endian bytes, or none where R46 refuses it. -/
def ScaleRec.read (w : Nat) : Option ScaleRec :=
  match Fmt.ofCode (bits w 43 40) with
  | none => none
  | some f =>
    let s := bits w 31 0
    let z := bits w 39 32
    let c := bits w 50 48
    if bits w 63 51 ≠ 0 ∨ bits w 47 44 ≠ 0 ∨ 5 < c then none
    else if f ≠ .uint8 ∧ z ≠ 0 then none
    else if posNormal s = false then none
    else if (f = .bf16 ∨ f = .fp16 ∨ f = .fp32) ∧ s ≠ 0x3F800000 then none
    else some ⟨s, z, f, c⟩

/-- The 64-bit word of a scale record (R44). -/
def ScaleRec.word (r : ScaleRec) (fmtCode : Nat) : Nat :=
  r.scale + r.zp * 2 ^ 32 + fmtCode * 2 ^ 40 + r.cls * 2 ^ 48

/-- Whether a rescale multiplier lies in 2^-40 ≤ M < 2^23 (R48): exponent fields 87 to 149, sign 0. -/
def rescaleOk (m : Nat) : Bool := decide (87 * 2 ^ 23 ≤ m) && decide (m < 150 * 2 ^ 23)

/-- R48: the accumulator `c` times the multiplier `m`, rounded once, plus the zero point, saturated. -/
def rescale (dst : Fmt) (zd : Nat) (mode : Round) (r : Nat) (m : Nat) (c : Int) : Rounded :=
  let sig := m % 2 ^ 23 + 2 ^ 23
  let k := 150 - bits m 30 23
  let q := roundMag (c.natAbs * sig) k mode r
  let v : Int := if c < 0 then -(q : Int) else q
  let s := dst.saturate zd v
  ⟨s.1, s.2, decide (c ≠ 0 ∧ q = 0)⟩

/-! ### BS8 and BS16 blocks (R41 to R43, R63 to R68) -/

/-- A wire block: its exponent byte, POISON, ESCAPE and 64 integers (none are read when POISON is set, R43). -/
structure Block where
  exp : Nat
  poison : Bool
  escape : Bool
  vals : List Int
  deriving DecidableEq, Repr

/-- Bytes of a block on the wire (R42). -/
def Block.length (b : Block) : Nat := if b.escape then 130 else 66

/-- The wire bytes of a block (Table 2-6); a poisoned block's values are zeros (R43). -/
def Block.bytes (b : Block) : List Byte :=
  let w := if b.escape then 2 else 1
  let vs := if b.poison then List.replicate 64 (0 : Int) else b.vals
  (vs.map fun v => leBytes w (wrap (8 * w) v)).flatten
    ++ [BitVec.ofNat 8 b.exp, BitVec.ofNat 8 (b2n b.poison + 2 * b2n b.escape)]

/-- The block of `l`, or none where it is malformed (R42). -/
def Block.parse (l : List Byte) : Option Block :=
  let go (w : Nat) : Option Block :=
    let e := (slice l (64 * w) 1).headD 0
    let f := (slice l (64 * w + 1) 1).headD 0
    if l.length ≠ 64 * w + 2 then none
    else if e.toNat = 0 ∨ e.toNat = 255 then none
    else if 4 ≤ f.toNat then none
    else if bit f.toNat 1 ≠ decide (w = 2) then none
    else some ⟨e.toNat, bit f.toNat 0, bit f.toNat 1,
      (List.range 64).map fun i => sext (8 * w) (leAt l (w * i) w)⟩
  if l.length = 66 then go 1 else if l.length = 130 then go 2 else none

/-- A clamp to ±m. -/
def clampInt (m : Int) (v : Int) : Int := if m < v then m else if v < -m then -m else v

/-- R63: 64 FP32 codes encoded at exponent `e`; `rw i` is element i's random word. The second value counts the
elements clamped to ±32,767 (R66). -/
def bsEncode (e : Nat) (v : List Nat) (rw : Nat → Nat) : Block × Nat :=
  let ns := v.map fpFP32.decode
  if ns.any Num.isNonFinite then (⟨e, true, false, List.replicate 64 0⟩, 0)
  else
    let q := (ns.zip (List.range 64)).map fun p =>
      match p.1 with
      | .fin s m x => (Num.fin s m (x + 127 - e)).toInt .sr (rw p.2)
      | _ => 0
    let esc := q.any fun x => decide (127 < x) || decide (x < -127)
    (⟨e, false, esc, if esc then q.map (clampInt 32767) else q⟩,
      (q.filter fun x => decide (32767 < x) || decide (x < -32767)).length)

/-- One operand aligned to 2^(E_out - 127) with 32 fraction bits, truncated toward minus infinity and clamped to
±2^47 places (R64). -/
def bsAlign (v : Int) (eIn eOut : Nat) : Int :=
  let sh : Int := (eIn : Int) - eOut + 32
  let x := if 0 ≤ sh then v * (2 ^ sh.toNat : Nat) else v / (2 ^ (-sh).toNat : Nat)
  clampInt ((2 ^ 79 : Nat) : Int) x

/-- R64 to R66: one hop. The second value counts the clamped elements. -/
def bsHop (a b : Block) (eOut : Nat) (rw : Nat → Nat) : Block × Nat :=
  if a.poison || b.poison then (⟨eOut, true, a.escape, List.replicate 64 0⟩, 0)
  else
    let q := ((a.vals.zip b.vals).zip (List.range 64)).map fun p =>
      let s := bsAlign p.1.1 a.exp eOut + bsAlign p.1.2 b.exp eOut
      let m : Int := (roundMag s.natAbs 32 .sr (rw p.2) : Nat)
      if s < 0 then -m else m
    let esc := a.escape || q.any fun x => decide (127 < x) || decide (x < -127)
    (⟨eOut, false, esc, if esc then q.map (clampInt 32767) else q⟩,
      if esc then (q.filter fun x => decide (32767 < x) || decide (x < -32767)).length else 0)

/-- R68: the FP32 codes of a decoded block, and how many of them saturated. -/
def bsDecode (b : Block) : List Nat × Nat :=
  if b.poison then (List.replicate 64 fpFP32.canonNan, 0)
  else
    let l := b.vals.map fun q => fpFP32.round .rne true 0 (.fin (decide (q < 0)) q.natAbs ((b.exp : Int) - 127))
    (l.map (·.code), (l.filter (·.sat)).length)

end Sys2Proof.Machine
end

