-- ==== Sys2Proof/Machine/Regs.lean ====
section
/-!
DEFINITION. The control-space register file of spec/16_address_map.md (Tables 16-7 to 16-20): one name per register
offset (R.<REG>), one name per field (F.<REG>_<FIELD>), and the register table with reset domain, reset value and access
types, transcribed from the field maps of the chapters.
-/

namespace Sys2Proof.Machine

/-- Access types of Table 0-4 (R8). -/
inductive Acc where
  | ro | rw | w1c | w1s | rc | wo
  deriving DecidableEq, Repr

/-- Reset domains of Table 0-5 (R12). -/
inductive Domain where
  | context | core | die | warm | cold
  deriving DecidableEq, Repr

/-- Which values of a writable field are encodings, the others being reserved (R11). -/
inductive Legal where
  | any
  | range (lo hi : Nat)
  | zeroOr (lo hi : Nat)
  | capStep
  deriving DecidableEq, Repr

/-- Whether `v` is a listed encoding. -/
def Legal.ok : Legal → Nat → Bool
  | .any, _ => true
  | .range lo hi, v => decide (lo ≤ v) && decide (v ≤ hi)
  | .zeroOr lo hi, v => decide (v = 0) || (decide (lo ≤ v) && decide (v ≤ hi))
  | .capStep, v => decide (1800 ≤ v) && decide (v ≤ 3600) && decide (v % 25 = 0)

/-- One field of one register: the register's offset and the field's bits. -/
structure Fld where
  off : Nat
  hi : Nat
  lo : Nat
  deriving DecidableEq, Repr

/-- A field of a register description. -/
structure FldDesc where
  hi : Nat
  lo : Nat
  acc : Acc
  legal : Legal
  deriving DecidableEq, Repr

/-- A register, or a family of registers spread over the strides of `dims` (stride, count). -/
structure RegDesc where
  base : Nat
  dims : List (Nat × Nat)
  dom : Domain
  reset : Nat
  fields : List FldDesc
  deriving DecidableEq, Repr

/-- Core base of global core g (R442). -/
abbrev coreBase (g : Nat) : Nat := 0x01100000 + 0x1000000 * (g / 32) + 0x20000 * (g % 32)
/-- Die base of compute die d (Table 16-1). -/
abbrev dieBase (d : Nat) : Nat := 0x01000000 + 0x1000000 * d
/-- Edge base of edge die e (Table 16-1). -/
abbrev edgeBase (e : Nat) : Nat := 0x08000000 + 0x1000000 * e
/-- RDX base of reduction engine k (Table 16-1). -/
abbrev rdxBase (k : Nat) : Nat := 0x0C000000 + 0x100000 * k

abbrev coreDims : List (Nat × Nat) := [(0x20000, 32), (0x1000000, 4)]
abbrev dieDims : List (Nat × Nat) := [(0x1000000, 4)]
abbrev edgeDims : List (Nat × Nat) := [(0x1000000, 2)]
abbrev rdxDims : List (Nat × Nat) := [(0x100000, 4)]

/-- MGT_PLANE_STAT (01_device_overview.md). -/
abbrev R.MGT_PLANE_STAT : Nat := 0x40
/-- MGT_PLANE_STAT.HELD_CMDS, RO. -/
abbrev F.MGT_PLANE_STAT_HELD_CMDS : Fld := ⟨R.MGT_PLANE_STAT, 23, 16⟩
/-- MGT_PLANE_STAT.MGC_ALIVE, RO. -/
abbrev F.MGT_PLANE_STAT_MGC_ALIVE : Fld := ⟨R.MGT_PLANE_STAT, 11, 8⟩
/-- MGT_PLANE_STAT.EVQ_OVF, W1C. -/
abbrev F.MGT_PLANE_STAT_EVQ_OVF : Fld := ⟨R.MGT_PLANE_STAT, 2, 2⟩
/-- MGT_PLANE_STAT.MGMT_DOWN, RO. -/
abbrev F.MGT_PLANE_STAT_MGMT_DOWN : Fld := ⟨R.MGT_PLANE_STAT, 1, 1⟩
/-- MGT_PLANE_STAT.CTRL_DOWN, RO. -/
abbrev F.MGT_PLANE_STAT_CTRL_DOWN : Fld := ⟨R.MGT_PLANE_STAT, 0, 0⟩
/-- MGT_EVQ_DROP (01_device_overview.md). -/
abbrev R.MGT_EVQ_DROP : Nat := 0x44
/-- MGT_EVQ_DROP.DROP_COUNT, RC. -/
abbrev F.MGT_EVQ_DROP_DROP_COUNT : Fld := ⟨R.MGT_EVQ_DROP, 31, 0⟩
/-- MXE_AG_STAT (03_matrix_engine.md). -/
abbrev R.MXE_AG_STAT (g : Nat) : Nat := coreBase g + 0x100
/-- MXE_AG_STAT, the field of item i. -/
abbrev F.MXE_AG_STAT_AG_STATE (g : Nat) (i : Nat) : Fld := ⟨R.MXE_AG_STAT g, 2 * i + 1, 2 * i⟩
/-- MXE_CHK_CTRL (03_matrix_engine.md). -/
abbrev R.MXE_CHK_CTRL (g : Nat) : Nat := coreBase g + 0x104
/-- MXE_CHK_CTRL.TOL_EXP, RW. -/
abbrev F.MXE_CHK_CTRL_TOL_EXP (g : Nat) : Fld := ⟨R.MXE_CHK_CTRL g, 20, 16⟩
/-- MXE_CHK_CTRL.SHD_LOG2, RW. -/
abbrev F.MXE_CHK_CTRL_SHD_LOG2 (g : Nat) : Fld := ⟨R.MXE_CHK_CTRL g, 11, 8⟩
/-- MXE_CHK_STAT (03_matrix_engine.md). -/
abbrev R.MXE_CHK_STAT (g : Nat) : Nat := coreBase g + 0x108
/-- MXE_CHK_STAT.QUAR, RO. -/
abbrev F.MXE_CHK_STAT_QUAR (g : Nat) : Fld := ⟨R.MXE_CHK_STAT g, 31, 31⟩
/-- MXE_CHK_STAT.NO_PARTNER, RO. -/
abbrev F.MXE_CHK_STAT_NO_PARTNER (g : Nat) : Fld := ⟨R.MXE_CHK_STAT g, 4, 4⟩
/-- MXE_CHK_STAT.OVF_SEEN, W1C. -/
abbrev F.MXE_CHK_STAT_OVF_SEEN (g : Nat) : Fld := ⟨R.MXE_CHK_STAT g, 3, 3⟩
/-- MXE_CHK_STAT.DRAIN_MISS, W1C. -/
abbrev F.MXE_CHK_STAT_DRAIN_MISS (g : Nat) : Fld := ⟨R.MXE_CHK_STAT g, 2, 2⟩
/-- MXE_CHK_STAT.SHD_MISS, W1C. -/
abbrev F.MXE_CHK_STAT_SHD_MISS (g : Nat) : Fld := ⟨R.MXE_CHK_STAT g, 1, 1⟩
/-- MXE_CHK_STAT.TILE_MISS, W1C. -/
abbrev F.MXE_CHK_STAT_TILE_MISS (g : Nat) : Fld := ⟨R.MXE_CHK_STAT g, 0, 0⟩
/-- MXE_CHK_CNT (03_matrix_engine.md). -/
abbrev R.MXE_CHK_CNT (g : Nat) : Nat := coreBase g + 0x10c
/-- MXE_CHK_CNT.DRAIN_CNT, RC. -/
abbrev F.MXE_CHK_CNT_DRAIN_CNT (g : Nat) : Fld := ⟨R.MXE_CHK_CNT g, 31, 24⟩
/-- MXE_CHK_CNT.SHD_CNT, RC. -/
abbrev F.MXE_CHK_CNT_SHD_CNT (g : Nat) : Fld := ⟨R.MXE_CHK_CNT g, 23, 12⟩
/-- MXE_CHK_CNT.TILE_CNT, RC. -/
abbrev F.MXE_CHK_CNT_TILE_CNT (g : Nat) : Fld := ⟨R.MXE_CHK_CNT g, 11, 0⟩
/-- MXE_CHK_SKIP (03_matrix_engine.md). -/
abbrev R.MXE_CHK_SKIP (g : Nat) : Nat := coreBase g + 0x110
/-- MXE_CHK_SKIP.SKIP_COLS, RC. -/
abbrev F.MXE_CHK_SKIP_SKIP_COLS (g : Nat) : Fld := ⟨R.MXE_CHK_SKIP g, 31, 0⟩
/-- MXE_TILE_CNT (03_matrix_engine.md). -/
abbrev R.MXE_TILE_CNT (g : Nat) : Nat := coreBase g + 0x114
/-- MXE_TILE_CNT.TILES, RO. -/
abbrev F.MXE_TILE_CNT_TILES (g : Nat) : Fld := ⟨R.MXE_TILE_CNT g, 31, 0⟩
/-- CD_RM_THRESH (03_matrix_engine.md). -/
abbrev R.CD_RM_THRESH (d : Nat) : Nat := dieBase d + 0x8000
/-- CD_RM_THRESH.TSAT_EXP, RW. -/
abbrev F.CD_RM_THRESH_TSAT_EXP (d : Nat) : Fld := ⟨R.CD_RM_THRESH d, 20, 16⟩
/-- CD_RM_THRESH.TUF_NUM, RW. -/
abbrev F.CD_RM_THRESH_TUF_NUM (d : Nat) : Fld := ⟨R.CD_RM_THRESH d, 7, 0⟩
/-- VXE_STAT (04_vector_engine_and_control_core.md). -/
abbrev R.VXE_STAT (g : Nat) : Nat := coreBase g + 0x200
/-- VXE_STAT.QUAR, RO. -/
abbrev F.VXE_STAT_QUAR (g : Nat) : Fld := ⟨R.VXE_STAT g, 31, 31⟩
/-- VXE_STAT.LATE_FLUSH, RC. -/
abbrev F.VXE_STAT_LATE_FLUSH (g : Nat) : Fld := ⟨R.VXE_STAT g, 23, 16⟩
/-- VXE_STAT.QDEPTH, RO. -/
abbrev F.VXE_STAT_QDEPTH (g : Nat) : Fld := ⟨R.VXE_STAT g, 7, 3⟩
/-- VXE_STAT.FROZEN, RO. -/
abbrev F.VXE_STAT_FROZEN (g : Nat) : Fld := ⟨R.VXE_STAT g, 2, 2⟩
/-- VXE_STAT.RES_FAIL, W1C. -/
abbrev F.VXE_STAT_RES_FAIL (g : Nat) : Fld := ⟨R.VXE_STAT g, 1, 1⟩
/-- VXE_STAT.RES_MISS, W1C. -/
abbrev F.VXE_STAT_RES_MISS (g : Nat) : Fld := ⟨R.VXE_STAT g, 0, 0⟩
/-- VXE_RES_CNT (04_vector_engine_and_control_core.md). -/
abbrev R.VXE_RES_CNT (g : Nat) : Nat := coreBase g + 0x204
/-- VXE_RES_CNT.FAIL_CNT, RC. -/
abbrev F.VXE_RES_CNT_FAIL_CNT (g : Nat) : Fld := ⟨R.VXE_RES_CNT g, 31, 16⟩
/-- VXE_RES_CNT.MISS_CNT, RC. -/
abbrev F.VXE_RES_CNT_MISS_CNT (g : Nat) : Fld := ⟨R.VXE_RES_CNT g, 15, 0⟩
/-- VXE_NF_CNT (04_vector_engine_and_control_core.md). -/
abbrev R.VXE_NF_CNT (g : Nat) (n : Nat) : Nat := coreBase g + 0x210 + 4 * n
/-- VXE_NF_CNT.NF_COUNT, RC. -/
abbrev F.VXE_NF_CNT_NF_COUNT (g : Nat) (n : Nat) : Fld := ⟨R.VXE_NF_CNT g n, 31, 0⟩
/-- CTC_THR_STAT (04_vector_engine_and_control_core.md). -/
abbrev R.CTC_THR_STAT (g : Nat) : Nat := coreBase g + 0x300
/-- CTC_THR_STAT, the field of item i. -/
abbrev F.CTC_THR_STAT_T_STATE (g : Nat) (i : Nat) : Fld := ⟨R.CTC_THR_STAT g, 4 * i + 3, 4 * i⟩
/-- CTC_SREG_ECC (04_vector_engine_and_control_core.md). -/
abbrev R.CTC_SREG_ECC (g : Nat) : Nat := coreBase g + 0x304
/-- CTC_SREG_ECC.DED_CNT, RC. -/
abbrev F.CTC_SREG_ECC_DED_CNT (g : Nat) : Fld := ⟨R.CTC_SREG_ECC g, 31, 24⟩
/-- CTC_SREG_ECC.SEC_CNT, RC. -/
abbrev F.CTC_SREG_ECC_SEC_CNT (g : Nat) : Fld := ⟨R.CTC_SREG_ECC g, 23, 0⟩
/-- XFE_STAT (05_memory_hierarchy.md). -/
abbrev R.XFE_STAT (g : Nat) : Nat := coreBase g + 0x400
/-- XFE_STAT.SLOTS_BUSY, RO. -/
abbrev F.XFE_STAT_SLOTS_BUSY (g : Nat) : Fld := ⟨R.XFE_STAT g, 31, 26⟩
/-- XFE_STAT.ACTIVE, RO. -/
abbrev F.XFE_STAT_ACTIVE (g : Nat) : Fld := ⟨R.XFE_STAT g, 25, 21⟩
/-- XFE_STAT.BANK_WAITS, RO. -/
abbrev F.XFE_STAT_BANK_WAITS (g : Nat) : Fld := ⟨R.XFE_STAT g, 20, 16⟩
/-- XFE_STAT.RQ_REFUSED, RC. -/
abbrev F.XFE_STAT_RQ_REFUSED (g : Nat) : Fld := ⟨R.XFE_STAT g, 15, 8⟩
/-- XFE_STAT.FROZEN, RO. -/
abbrev F.XFE_STAT_FROZEN (g : Nat) : Fld := ⟨R.XFE_STAT g, 3, 3⟩
/-- XFE_STAT.STALE_FAULT, W1C. -/
abbrev F.XFE_STAT_STALE_FAULT (g : Nat) : Fld := ⟨R.XFE_STAT g, 2, 2⟩
/-- XFE_STAT.AGED_SEEN, W1C. -/
abbrev F.XFE_STAT_AGED_SEEN (g : Nat) : Fld := ⟨R.XFE_STAT g, 1, 1⟩
/-- XFE_GEN_CNT (05_memory_hierarchy.md). -/
abbrev R.XFE_GEN_CNT (g : Nat) : Nat := coreBase g + 0x404
/-- XFE_GEN_CNT.STALE_CNT, RC. -/
abbrev F.XFE_GEN_CNT_STALE_CNT (g : Nat) : Fld := ⟨R.XFE_GEN_CNT g, 31, 16⟩
/-- XFE_GEN_CNT.REFETCH, RC. -/
abbrev F.XFE_GEN_CNT_REFETCH (g : Nat) : Fld := ⟨R.XFE_GEN_CNT g, 15, 0⟩
/-- DC_WAYLOCK (05_memory_hierarchy.md). -/
abbrev R.DC_WAYLOCK (d : Nat) (n : Nat) : Nat := dieBase d + 0x9000 + 4 * n
/-- DC_WAYLOCK, the field of item i. -/
abbrev F.DC_WAYLOCK_WAY_OWNER (d : Nat) (n : Nat) (i : Nat) : Fld := ⟨R.DC_WAYLOCK d n, 4 * i + 3, 4 * i⟩
/-- DC_ECC_CNT (05_memory_hierarchy.md). -/
abbrev R.DC_ECC_CNT (d : Nat) : Nat := dieBase d + 0x900c
/-- DC_ECC_CNT.REFETCH, RC. -/
abbrev F.DC_ECC_CNT_REFETCH (d : Nat) : Fld := ⟨R.DC_ECC_CNT d, 31, 16⟩
/-- DC_ECC_CNT.CE_CNT, RC. -/
abbrev F.DC_ECC_CNT_CE_CNT (d : Nat) : Fld := ⟨R.DC_ECC_CNT d, 15, 0⟩
/-- CD_SCRUB_CTRL (05_memory_hierarchy.md). -/
abbrev R.CD_SCRUB_CTRL (d : Nat) : Nat := dieBase d + 0xa400
/-- CD_SCRUB_CTRL.EN, RW. -/
abbrev F.CD_SCRUB_CTRL_EN (d : Nat) : Fld := ⟨R.CD_SCRUB_CTRL d, 31, 31⟩
/-- CD_SCRUB_CTRL.MEM_PERIOD, RW. -/
abbrev F.CD_SCRUB_CTRL_MEM_PERIOD (d : Nat) : Fld := ⟨R.CD_SCRUB_CTRL d, 15, 8⟩
/-- CD_SCRUB_CTRL.SRAM_PERIOD, RW. -/
abbrev F.CD_SCRUB_CTRL_SRAM_PERIOD (d : Nat) : Fld := ⟨R.CD_SCRUB_CTRL d, 7, 0⟩
/-- ED_SCRUB_CTRL (05_memory_hierarchy.md). -/
abbrev R.ED_SCRUB_CTRL (e : Nat) : Nat := edgeBase e + 0xa800
/-- ED_SCRUB_CTRL.EN, RW. -/
abbrev F.ED_SCRUB_CTRL_EN (e : Nat) : Fld := ⟨R.ED_SCRUB_CTRL e, 31, 31⟩
/-- ED_SCRUB_CTRL.MEM_PERIOD, RW. -/
abbrev F.ED_SCRUB_CTRL_MEM_PERIOD (e : Nat) : Fld := ⟨R.ED_SCRUB_CTRL e, 15, 8⟩
/-- HBM_ECC_CNT (05_memory_hierarchy.md). -/
abbrev R.HBM_ECC_CNT (d : Nat) (n : Nat) : Nat := dieBase d + 0xa000 + 256 * n
/-- HBM_ECC_CNT.UE_CNT, RC. -/
abbrev F.HBM_ECC_CNT_UE_CNT (d : Nat) (n : Nat) : Fld := ⟨R.HBM_ECC_CNT d n, 31, 24⟩
/-- HBM_ECC_CNT.CE_CNT, RC. -/
abbrev F.HBM_ECC_CNT_CE_CNT (d : Nat) (n : Nat) : Fld := ⟨R.HBM_ECC_CNT d n, 23, 0⟩
/-- HBM_BANK_DEG (05_memory_hierarchy.md). -/
abbrev R.HBM_BANK_DEG (d : Nat) (n : Nat) : Nat := dieBase d + 0xa004 + 256 * n
/-- HBM_BANK_DEG.DEG_CNT, RC. -/
abbrev F.HBM_BANK_DEG_DEG_CNT (d : Nat) (n : Nat) : Fld := ⟨R.HBM_BANK_DEG d n, 31, 16⟩
/-- HBM_BANK_DEG.PC, RO. -/
abbrev F.HBM_BANK_DEG_PC (d : Nat) (n : Nat) : Fld := ⟨R.HBM_BANK_DEG d n, 8, 4⟩
/-- HBM_BANK_DEG.BANK, RO. -/
abbrev F.HBM_BANK_DEG_BANK (d : Nat) (n : Nat) : Fld := ⟨R.HBM_BANK_DEG d n, 3, 0⟩
/-- HBM_ERR_ADDR_LO (05_memory_hierarchy.md). -/
abbrev R.HBM_ERR_ADDR_LO (d : Nat) (n : Nat) : Nat := dieBase d + 0xa008 + 256 * n
/-- HBM_ERR_ADDR_LO.ADDR_LO, RO. -/
abbrev F.HBM_ERR_ADDR_LO_ADDR_LO (d : Nat) (n : Nat) : Fld := ⟨R.HBM_ERR_ADDR_LO d n, 31, 0⟩
/-- HBM_ERR_ADDR_HI (05_memory_hierarchy.md). -/
abbrev R.HBM_ERR_ADDR_HI (d : Nat) (n : Nat) : Nat := dieBase d + 0xa00c + 256 * n
/-- HBM_ERR_ADDR_HI.VALID, W1C. -/
abbrev F.HBM_ERR_ADDR_HI_VALID (d : Nat) (n : Nat) : Fld := ⟨R.HBM_ERR_ADDR_HI d n, 31, 31⟩
/-- HBM_ERR_ADDR_HI.SCRUB, RO. -/
abbrev F.HBM_ERR_ADDR_HI_SCRUB (d : Nat) (n : Nat) : Fld := ⟨R.HBM_ERR_ADDR_HI d n, 30, 30⟩
/-- HBM_ERR_ADDR_HI.ADDR_HI, RO. -/
abbrev F.HBM_ERR_ADDR_HI_ADDR_HI (d : Nat) (n : Nat) : Fld := ⟨R.HBM_ERR_ADDR_HI d n, 15, 0⟩
/-- LPX_ECC_CNT (05_memory_hierarchy.md). -/
abbrev R.LPX_ECC_CNT (e : Nat) (n : Nat) : Nat := edgeBase e + 0xa000 + 256 * n
/-- LPX_ECC_CNT.UE_CNT, RC. -/
abbrev F.LPX_ECC_CNT_UE_CNT (e : Nat) (n : Nat) : Fld := ⟨R.LPX_ECC_CNT e n, 31, 24⟩
/-- LPX_ECC_CNT.TAG_CNT, RC. -/
abbrev F.LPX_ECC_CNT_TAG_CNT (e : Nat) (n : Nat) : Fld := ⟨R.LPX_ECC_CNT e n, 23, 16⟩
/-- LPX_ECC_CNT.CE_CNT, RC. -/
abbrev F.LPX_ECC_CNT_CE_CNT (e : Nat) (n : Nat) : Fld := ⟨R.LPX_ECC_CNT e n, 15, 0⟩
/-- LPX_BANK_DEG (05_memory_hierarchy.md). -/
abbrev R.LPX_BANK_DEG (e : Nat) (n : Nat) : Nat := edgeBase e + 0xa004 + 256 * n
/-- LPX_BANK_DEG.DEG_CNT, RC. -/
abbrev F.LPX_BANK_DEG_DEG_CNT (e : Nat) (n : Nat) : Fld := ⟨R.LPX_BANK_DEG e n, 31, 16⟩
/-- LPX_BANK_DEG.BANK, RO. -/
abbrev F.LPX_BANK_DEG_BANK (e : Nat) (n : Nat) : Fld := ⟨R.LPX_BANK_DEG e n, 3, 0⟩
/-- LPX_ERR_ADDR_LO (05_memory_hierarchy.md). -/
abbrev R.LPX_ERR_ADDR_LO (e : Nat) (n : Nat) : Nat := edgeBase e + 0xa008 + 256 * n
/-- LPX_ERR_ADDR_LO.ADDR_LO, RO. -/
abbrev F.LPX_ERR_ADDR_LO_ADDR_LO (e : Nat) (n : Nat) : Fld := ⟨R.LPX_ERR_ADDR_LO e n, 31, 0⟩
/-- LPX_ERR_ADDR_HI (05_memory_hierarchy.md). -/
abbrev R.LPX_ERR_ADDR_HI (e : Nat) (n : Nat) : Nat := edgeBase e + 0xa00c + 256 * n
/-- LPX_ERR_ADDR_HI.VALID, W1C. -/
abbrev F.LPX_ERR_ADDR_HI_VALID (e : Nat) (n : Nat) : Fld := ⟨R.LPX_ERR_ADDR_HI e n, 31, 31⟩
/-- LPX_ERR_ADDR_HI.SCRUB, RO. -/
abbrev F.LPX_ERR_ADDR_HI_SCRUB (e : Nat) (n : Nat) : Fld := ⟨R.LPX_ERR_ADDR_HI e n, 30, 30⟩
/-- LPX_ERR_ADDR_HI.ADDR_HI, RO. -/
abbrev F.LPX_ERR_ADDR_HI_ADDR_HI (e : Nat) (n : Nat) : Fld := ⟨R.LPX_ERR_ADDR_HI e n, 15, 0⟩
/-- TCK_CTRL (06_formes_and_impressions.md). -/
abbrev R.TCK_CTRL : Nat := 0x500000
/-- TCK_CTRL.EN, RW. -/
abbrev F.TCK_CTRL_EN : Fld := ⟨R.TCK_CTRL, 31, 31⟩
/-- TCK_CTRL.ROLE, RW. -/
abbrev F.TCK_CTRL_ROLE : Fld := ⟨R.TCK_CTRL, 27, 26⟩
/-- TCK_PERIOD (06_formes_and_impressions.md). -/
abbrev R.TCK_PERIOD : Nat := 0x500004
/-- TCK_PERIOD.SLIP_CUT, RW. -/
abbrev F.TCK_PERIOD_SLIP_CUT : Fld := ⟨R.TCK_PERIOD, 31, 24⟩
/-- TCK_PERIOD.PERIOD_US, RW. -/
abbrev F.TCK_PERIOD_PERIOD_US : Fld := ⟨R.TCK_PERIOD, 13, 0⟩
/-- TCK_STAT (06_formes_and_impressions.md). -/
abbrev R.TCK_STAT : Nat := 0x500008
/-- TCK_STAT.BREAK_SEEN, W1C. -/
abbrev F.TCK_STAT_BREAK_SEEN : Fld := ⟨R.TCK_STAT, 9, 9⟩
/-- TCK_STAT.PATH_LONG, W1C. -/
abbrev F.TCK_STAT_PATH_LONG : Fld := ⟨R.TCK_STAT, 8, 8⟩
/-- TCK_STAT.SRC, RO. -/
abbrev F.TCK_STAT_SRC : Fld := ⟨R.TCK_STAT, 3, 3⟩
/-- TCK_STAT.STATE, RO. -/
abbrev F.TCK_STAT_STATE : Fld := ⟨R.TCK_STAT, 2, 0⟩
/-- TCK_OFFSET (06_formes_and_impressions.md). -/
abbrev R.TCK_OFFSET : Nat := 0x50000c
/-- TCK_OFFSET.OFFSET_NS, RO. -/
abbrev F.TCK_OFFSET_OFFSET_NS : Fld := ⟨R.TCK_OFFSET, 31, 0⟩
/-- TCK_NUM_LO (06_formes_and_impressions.md). -/
abbrev R.TCK_NUM_LO : Nat := 0x500010
/-- TCK_NUM_LO.TICK_LO, RO. -/
abbrev F.TCK_NUM_LO_TICK_LO : Fld := ⟨R.TCK_NUM_LO, 31, 0⟩
/-- TCK_NUM_HI (06_formes_and_impressions.md). -/
abbrev R.TCK_NUM_HI : Nat := 0x500014
/-- TCK_NUM_HI.TICK_HI, RO. -/
abbrev F.TCK_NUM_HI_TICK_HI : Fld := ⟨R.TCK_NUM_HI, 15, 0⟩
/-- TCK_HOLD (06_formes_and_impressions.md). -/
abbrev R.TCK_HOLD : Nat := 0x500018
/-- TCK_HOLD.ELAPSED_MS, RO. -/
abbrev F.TCK_HOLD_ELAPSED_MS : Fld := ⟨R.TCK_HOLD, 31, 16⟩
/-- TCK_HOLD.HOLD_MAX, RW. -/
abbrev F.TCK_HOLD_HOLD_MAX : Fld := ⟨R.TCK_HOLD, 15, 0⟩
/-- TCK_PRI_FAB (06_formes_and_impressions.md). -/
abbrev R.TCK_PRI_FAB : Nat := 0x50001c
/-- TCK_PRI_FAB.FAB, RW. -/
abbrev F.TCK_PRI_FAB_FAB : Fld := ⟨R.TCK_PRI_FAB, 23, 0⟩
/-- TCK_STB_FAB (06_formes_and_impressions.md). -/
abbrev R.TCK_STB_FAB : Nat := 0x500020
/-- TCK_STB_FAB.FAB, RW. -/
abbrev F.TCK_STB_FAB_FAB : Fld := ⟨R.TCK_STB_FAB, 23, 0⟩
/-- TCK_ASYM (06_formes_and_impressions.md). -/
abbrev R.TCK_ASYM (n : Nat) : Nat := 0x500100 + 4 * n
/-- TCK_ASYM.ASYM_NS, RW. -/
abbrev F.TCK_ASYM_ASYM_NS (n : Nat) : Fld := ⟨R.TCK_ASYM n, 15, 0⟩
/-- TCK_OVR_CNT (06_formes_and_impressions.md). -/
abbrev R.TCK_OVR_CNT : Nat := 0x500024
/-- TCK_OVR_CNT.LATE, RC. -/
abbrev F.TCK_OVR_CNT_LATE : Fld := ⟨R.TCK_OVR_CNT, 31, 20⟩
/-- TCK_OVR_CNT.SLIPS, RC. -/
abbrev F.TCK_OVR_CNT_SLIPS : Fld := ⟨R.TCK_OVR_CNT, 19, 10⟩
/-- TCK_OVR_CNT.OVERRUNS, RC. -/
abbrev F.TCK_OVR_CNT_OVERRUNS : Fld := ⟨R.TCK_OVR_CNT, 9, 0⟩
/-- TCK_OVR_LIMIT (06_formes_and_impressions.md). -/
abbrev R.TCK_OVR_LIMIT : Nat := 0x500028
/-- TCK_OVR_LIMIT.LIMIT_MS, RW. -/
abbrev F.TCK_OVR_LIMIT_LIMIT_MS : Fld := ⟨R.TCK_OVR_LIMIT, 15, 0⟩
/-- CTX_STAT (07_contexts_and_preemption.md). -/
abbrev R.CTX_STAT (n : Nat) : Nat := 0x1000 + 64 * n
/-- CTX_STAT.STATE, RO. -/
abbrev F.CTX_STAT_STATE (n : Nat) : Fld := ⟨R.CTX_STAT n, 31, 28⟩
/-- CTX_STAT.IMAGE, RO. -/
abbrev F.CTX_STAT_IMAGE (n : Nat) : Fld := ⟨R.CTX_STAT n, 27, 27⟩
/-- CTX_STAT.STOP_PENDING, RO. -/
abbrev F.CTX_STAT_STOP_PENDING (n : Nat) : Fld := ⟨R.CTX_STAT n, 26, 26⟩
/-- CTX_STAT.BP, RO. -/
abbrev F.CTX_STAT_BP (n : Nat) : Fld := ⟨R.CTX_STAT n, 25, 25⟩
/-- CTX_STAT.STEPS_LEFT, RO. -/
abbrev F.CTX_STAT_STEPS_LEFT (n : Nat) : Fld := ⟨R.CTX_STAT n, 15, 0⟩
/-- CTX_IMP (07_contexts_and_preemption.md). -/
abbrev R.CTX_IMP (n : Nat) : Nat := 0x1004 + 64 * n
/-- CTX_IMP.IMP_COUNT, RO. -/
abbrev F.CTX_IMP_IMP_COUNT (n : Nat) : Fld := ⟨R.CTX_IMP n, 27, 16⟩
/-- CTX_IMP.IMP_POS, RO. -/
abbrev F.CTX_IMP_IMP_POS (n : Nat) : Fld := ⟨R.CTX_IMP n, 15, 0⟩
/-- CTX_LAND (07_contexts_and_preemption.md). -/
abbrev R.CTX_LAND (n : Nat) : Nat := 0x1008 + 64 * n
/-- CTX_LAND.FILL, RO. -/
abbrev F.CTX_LAND_FILL (n : Nat) : Fld := ⟨R.CTX_LAND n, 31, 0⟩
/-- CTX_REMOTE_REF (07_contexts_and_preemption.md). -/
abbrev R.CTX_REMOTE_REF (n : Nat) : Nat := 0x100c + 64 * n
/-- CTX_REMOTE_REF.BUSY_CNT, RC. -/
abbrev F.CTX_REMOTE_REF_BUSY_CNT (n : Nat) : Fld := ⟨R.CTX_REMOTE_REF n, 31, 16⟩
/-- CTX_REMOTE_REF.WIN_CNT, RC. -/
abbrev F.CTX_REMOTE_REF_WIN_CNT (n : Nat) : Fld := ⟨R.CTX_REMOTE_REF n, 15, 0⟩
/-- CTX_FAULT (07_contexts_and_preemption.md). -/
abbrev R.CTX_FAULT (n : Nat) : Nat := 0x1010 + 64 * n
/-- CTX_FAULT.VALID, W1C. -/
abbrev F.CTX_FAULT_VALID (n : Nat) : Fld := ⟨R.CTX_FAULT n, 31, 31⟩
/-- CTX_FAULT.CORE, RO. -/
abbrev F.CTX_FAULT_CORE (n : Nat) : Fld := ⟨R.CTX_FAULT n, 22, 16⟩
/-- CTX_FAULT.EVENT, RO. -/
abbrev F.CTX_FAULT_EVENT (n : Nat) : Fld := ⟨R.CTX_FAULT n, 15, 0⟩
/-- CTX_TIME (07_contexts_and_preemption.md). -/
abbrev R.CTX_TIME (n : Nat) : Nat := 0x1014 + 64 * n
/-- CTX_TIME.RESTORE_US, RO. -/
abbrev F.CTX_TIME_RESTORE_US (n : Nat) : Fld := ⟨R.CTX_TIME n, 31, 16⟩
/-- CTX_TIME.SAVE_US, RO. -/
abbrev F.CTX_TIME_SAVE_US (n : Nat) : Fld := ⟨R.CTX_TIME n, 15, 0⟩
/-- CTX_CFG (07_contexts_and_preemption.md). -/
abbrev R.CTX_CFG (n : Nat) : Nat := 0x1018 + 64 * n
/-- CTX_CFG.HOLD_ON_FAULT, RO. -/
abbrev F.CTX_CFG_HOLD_ON_FAULT (n : Nat) : Fld := ⟨R.CTX_CFG n, 31, 31⟩
/-- CTX_CFG.RANGE_KEEP, RO. -/
abbrev F.CTX_CFG_RANGE_KEEP (n : Nat) : Fld := ⟨R.CTX_CFG n, 30, 30⟩
/-- CTX_CFG.PEER_TO_MS, RO. -/
abbrev F.CTX_CFG_PEER_TO_MS (n : Nat) : Fld := ⟨R.CTX_CFG n, 29, 16⟩
/-- CTX_CFG.TICK_GROUP, RO. -/
abbrev F.CTX_CFG_TICK_GROUP (n : Nat) : Fld := ⟨R.CTX_CFG n, 15, 0⟩
/-- CORE_RES (07_contexts_and_preemption.md). -/
abbrev R.CORE_RES (g : Nat) : Nat := coreBase g + 0x500
/-- CORE_RES.OCCUPIED, RO. -/
abbrev F.CORE_RES_OCCUPIED (g : Nat) : Fld := ⟨R.CORE_RES g, 3, 3⟩
/-- CORE_RES.CTX, RO. -/
abbrev F.CORE_RES_CTX (g : Nat) : Fld := ⟨R.CORE_RES g, 2, 0⟩
/-- FAB_SELF (08_fabric_ports.md). -/
abbrev R.FAB_SELF : Nat := 0x8000000
/-- FAB_SELF.FAB, RW. -/
abbrev F.FAB_SELF_FAB : Fld := ⟨R.FAB_SELF, 23, 0⟩
/-- FAB_MGR (08_fabric_ports.md). -/
abbrev R.FAB_MGR : Nat := 0x8000004
/-- FAB_MGR.VALID, RW. -/
abbrev F.FAB_MGR_VALID : Fld := ⟨R.FAB_MGR, 31, 31⟩
/-- FAB_MGR.FAB, RW. -/
abbrev F.FAB_MGR_FAB : Fld := ⟨R.FAB_MGR, 23, 0⟩
/-- FAB_MEMB_EPOCH (08_fabric_ports.md). -/
abbrev R.FAB_MEMB_EPOCH : Nat := 0x8000008
/-- FAB_MEMB_EPOCH.EPOCH, RO. -/
abbrev F.FAB_MEMB_EPOCH_EPOCH : Fld := ⟨R.FAB_MEMB_EPOCH, 31, 0⟩
/-- FAB_MEMB_STAT (08_fabric_ports.md). -/
abbrev R.FAB_MEMB_STAT : Nat := 0x800000c
/-- FAB_MEMB_STAT.FENCED, RO. -/
abbrev F.FAB_MEMB_STAT_FENCED : Fld := ⟨R.FAB_MEMB_STAT, 1, 1⟩
/-- FAB_MEMB_STAT.VIEW, RO. -/
abbrev F.FAB_MEMB_STAT_VIEW : Fld := ⟨R.FAB_MEMB_STAT, 0, 0⟩
/-- FAB_E2E_CNT0 (08_fabric_ports.md). -/
abbrev R.FAB_E2E_CNT0 : Nat := 0x8000010
/-- FAB_E2E_CNT0.MISDIR, RC. -/
abbrev F.FAB_E2E_CNT0_MISDIR : Fld := ⟨R.FAB_E2E_CNT0, 31, 16⟩
/-- FAB_E2E_CNT0.CORRUPT, RC. -/
abbrev F.FAB_E2E_CNT0_CORRUPT : Fld := ⟨R.FAB_E2E_CNT0, 15, 0⟩
/-- FAB_E2E_CNT1 (08_fabric_ports.md). -/
abbrev R.FAB_E2E_CNT1 : Nat := 0x8000014
/-- FAB_E2E_CNT1.RESYNC_DROP, RC. -/
abbrev F.FAB_E2E_CNT1_RESYNC_DROP : Fld := ⟨R.FAB_E2E_CNT1, 31, 16⟩
/-- FAB_E2E_CNT1.REORDER, RC. -/
abbrev F.FAB_E2E_CNT1_REORDER : Fld := ⟨R.FAB_E2E_CNT1, 15, 0⟩
/-- FAB_EPOCH_DROP (08_fabric_ports.md). -/
abbrev R.FAB_EPOCH_DROP : Nat := 0x8000018
/-- FAB_EPOCH_DROP.AHEAD, RC. -/
abbrev F.FAB_EPOCH_DROP_AHEAD : Fld := ⟨R.FAB_EPOCH_DROP, 31, 16⟩
/-- FAB_EPOCH_DROP.STALE, RC. -/
abbrev F.FAB_EPOCH_DROP_STALE : Fld := ⟨R.FAB_EPOCH_DROP, 15, 0⟩
/-- FAB_SRC_DROP (08_fabric_ports.md). -/
abbrev R.FAB_SRC_DROP : Nat := 0x800001c
/-- FAB_SRC_DROP.FENCED_SRC, RC. -/
abbrev F.FAB_SRC_DROP_FENCED_SRC : Fld := ⟨R.FAB_SRC_DROP, 31, 16⟩
/-- FAB_SRC_DROP.UNKNOWN, RC. -/
abbrev F.FAB_SRC_DROP_UNKNOWN : Fld := ⟨R.FAB_SRC_DROP, 15, 0⟩
/-- FAB_XFER_FAIL (08_fabric_ports.md). -/
abbrev R.FAB_XFER_FAIL : Nat := 0x8000020
/-- FAB_XFER_FAIL.COUNT, RC. -/
abbrev F.FAB_XFER_FAIL_COUNT : Fld := ⟨R.FAB_XFER_FAIL, 31, 0⟩
/-- FAB_FEC_DEG (08_fabric_ports.md). -/
abbrev R.FAB_FEC_DEG : Nat := 0x8000024
/-- FAB_FEC_DEG.THRESH, RW. -/
abbrev F.FAB_FEC_DEG_THRESH : Fld := ⟨R.FAB_FEC_DEG, 15, 0⟩
/-- FAB_ROUTE_K (08_fabric_ports.md). -/
abbrev R.FAB_ROUTE_K (n : Nat) : Nat := 0x8020000 + 16 * n
/-- FAB_ROUTE_K.VALID, RW. -/
abbrev F.FAB_ROUTE_K_VALID (n : Nat) : Fld := ⟨R.FAB_ROUTE_K n, 31, 31⟩
/-- FAB_ROUTE_K.LEN, RW. -/
abbrev F.FAB_ROUTE_K_LEN (n : Nat) : Fld := ⟨R.FAB_ROUTE_K n, 28, 24⟩
/-- FAB_ROUTE_K.PREFIX, RW. -/
abbrev F.FAB_ROUTE_K_PREFIX (n : Nat) : Fld := ⟨R.FAB_ROUTE_K n, 23, 0⟩
/-- FAB_ROUTE_MLO (08_fabric_ports.md). -/
abbrev R.FAB_ROUTE_MLO (n : Nat) : Nat := 0x8020004 + 16 * n
/-- FAB_ROUTE_MLO.MASK_LO, RW. -/
abbrev F.FAB_ROUTE_MLO_MASK_LO (n : Nat) : Fld := ⟨R.FAB_ROUTE_MLO n, 31, 0⟩
/-- FAB_ROUTE_MHI (08_fabric_ports.md). -/
abbrev R.FAB_ROUTE_MHI (n : Nat) : Nat := 0x8020008 + 16 * n
/-- FAB_ROUTE_MHI.MASK_HI, RW. -/
abbrev F.FAB_ROUTE_MHI_MASK_HI (n : Nat) : Fld := ⟨R.FAB_ROUTE_MHI n, 15, 0⟩
/-- FAB_PORT_CTRL (08_fabric_ports.md). -/
abbrev R.FAB_PORT_CTRL (e : Nat) (n : Nat) : Nat := edgeBase e + 0x10000 + 64 * n
/-- FAB_PORT_CTRL.EN, RW. -/
abbrev F.FAB_PORT_CTRL_EN (e : Nat) (n : Nat) : Fld := ⟨R.FAB_PORT_CTRL e n, 31, 31⟩
/-- FAB_PORT_CTRL.SPARE, RW. -/
abbrev F.FAB_PORT_CTRL_SPARE (e : Nat) (n : Nat) : Fld := ⟨R.FAB_PORT_CTRL e n, 30, 30⟩
/-- FAB_PORT_CTRL.RETRAIN, WO. -/
abbrev F.FAB_PORT_CTRL_RETRAIN (e : Nat) (n : Nat) : Fld := ⟨R.FAB_PORT_CTRL e n, 29, 29⟩
/-- FAB_PORT_STAT (08_fabric_ports.md). -/
abbrev R.FAB_PORT_STAT (e : Nat) (n : Nat) : Nat := edgeBase e + 0x10004 + 64 * n
/-- FAB_PORT_STAT.SUBST_VALID, RO. -/
abbrev F.FAB_PORT_STAT_SUBST_VALID (e : Nat) (n : Nat) : Fld := ⟨R.FAB_PORT_STAT e n, 31, 31⟩
/-- FAB_PORT_STAT.SUBST_FOR, RO. -/
abbrev F.FAB_PORT_STAT_SUBST_FOR (e : Nat) (n : Nat) : Fld := ⟨R.FAB_PORT_STAT e n, 29, 24⟩
/-- FAB_PORT_STAT.LANE_LOCK, RO. -/
abbrev F.FAB_PORT_STAT_LANE_LOCK (e : Nat) (n : Nat) : Fld := ⟨R.FAB_PORT_STAT e n, 15, 8⟩
/-- FAB_PORT_STAT.STATE, RO. -/
abbrev F.FAB_PORT_STAT_STATE (e : Nat) (n : Nat) : Fld := ⟨R.FAB_PORT_STAT e n, 2, 0⟩
/-- FAB_FEC_CORR (08_fabric_ports.md). -/
abbrev R.FAB_FEC_CORR (e : Nat) (n : Nat) : Nat := edgeBase e + 0x10008 + 64 * n
/-- FAB_FEC_CORR.COUNT, RC. -/
abbrev F.FAB_FEC_CORR_COUNT (e : Nat) (n : Nat) : Fld := ⟨R.FAB_FEC_CORR e n, 31, 0⟩
/-- FAB_FEC_UNC (08_fabric_ports.md). -/
abbrev R.FAB_FEC_UNC (e : Nat) (n : Nat) : Nat := edgeBase e + 0x1000c + 64 * n
/-- FAB_FEC_UNC.COUNT, RC. -/
abbrev F.FAB_FEC_UNC_COUNT (e : Nat) (n : Nat) : Fld := ⟨R.FAB_FEC_UNC e n, 31, 0⟩
/-- FAB_LINK_RPL (08_fabric_ports.md). -/
abbrev R.FAB_LINK_RPL (e : Nat) (n : Nat) : Nat := edgeBase e + 0x10010 + 64 * n
/-- FAB_LINK_RPL.REPLAYS, RC. -/
abbrev F.FAB_LINK_RPL_REPLAYS (e : Nat) (n : Nat) : Fld := ⟨R.FAB_LINK_RPL e n, 31, 16⟩
/-- FAB_LINK_RPL.LCRC_FAIL, RC. -/
abbrev F.FAB_LINK_RPL_LCRC_FAIL (e : Nat) (n : Nat) : Fld := ⟨R.FAB_LINK_RPL e n, 15, 0⟩
/-- RDX_CTRL (09_collective_reduction.md). -/
abbrev R.RDX_CTRL (k : Nat) : Nat := rdxBase k + 0x0
/-- RDX_CTRL.HEADROOM, RW. -/
abbrev F.RDX_CTRL_HEADROOM (k : Nat) : Fld := ⟨R.RDX_CTRL k, 11, 8⟩
/-- RDX_CTRL.EN, RW. -/
abbrev F.RDX_CTRL_EN (k : Nat) : Fld := ⟨R.RDX_CTRL k, 0, 0⟩
/-- RDX_STAT (09_collective_reduction.md). -/
abbrev R.RDX_STAT (k : Nat) : Nat := rdxBase k + 0x4
/-- RDX_STAT.OPEN, RO. -/
abbrev F.RDX_STAT_OPEN (k : Nat) : Fld := ⟨R.RDX_STAT k, 22, 16⟩
/-- RDX_STAT.EXP_CLAMP, W1C. -/
abbrev F.RDX_STAT_EXP_CLAMP (k : Nat) : Fld := ⟨R.RDX_STAT k, 4, 4⟩
/-- RDX_STAT.DEC_SAT, W1C. -/
abbrev F.RDX_STAT_DEC_SAT (k : Nat) : Fld := ⟨R.RDX_STAT k, 3, 3⟩
/-- RDX_STAT.MISS_SEEN, W1C. -/
abbrev F.RDX_STAT_MISS_SEEN (k : Nat) : Fld := ⟨R.RDX_STAT k, 2, 2⟩
/-- RDX_STAT.POISON_SEEN, W1C. -/
abbrev F.RDX_STAT_POISON_SEEN (k : Nat) : Fld := ⟨R.RDX_STAT k, 1, 1⟩
/-- RDX_STAT.ESC_SEEN, W1C. -/
abbrev F.RDX_STAT_ESC_SEEN (k : Nat) : Fld := ⟨R.RDX_STAT k, 0, 0⟩
/-- RDX_ESC_CNT (09_collective_reduction.md). -/
abbrev R.RDX_ESC_CNT (k : Nat) : Nat := rdxBase k + 0x8
/-- RDX_ESC_CNT.ESC_SAT, RC. -/
abbrev F.RDX_ESC_CNT_ESC_SAT (k : Nat) : Fld := ⟨R.RDX_ESC_CNT k, 31, 16⟩
/-- RDX_ESC_CNT.ESC_BLK, RC. -/
abbrev F.RDX_ESC_CNT_ESC_BLK (k : Nat) : Fld := ⟨R.RDX_ESC_CNT k, 15, 0⟩
/-- RDX_FAULT_CNT (09_collective_reduction.md). -/
abbrev R.RDX_FAULT_CNT (k : Nat) : Nat := rdxBase k + 0xc
/-- RDX_FAULT_CNT.POISON_BLK, RC. -/
abbrev F.RDX_FAULT_CNT_POISON_BLK (k : Nat) : Fld := ⟨R.RDX_FAULT_CNT k, 31, 16⟩
/-- RDX_FAULT_CNT.MISS_UNIT, RC. -/
abbrev F.RDX_FAULT_CNT_MISS_UNIT (k : Nat) : Fld := ⟨R.RDX_FAULT_CNT k, 15, 8⟩
/-- RDX_FAULT_CNT.REREQ, RC. -/
abbrev F.RDX_FAULT_CNT_REREQ (k : Nat) : Fld := ⟨R.RDX_FAULT_CNT k, 7, 0⟩
/-- RDX_DROP_CNT (09_collective_reduction.md). -/
abbrev R.RDX_DROP_CNT (k : Nat) : Nat := rdxBase k + 0x10
/-- RDX_DROP_CNT.STALE, RC. -/
abbrev F.RDX_DROP_CNT_STALE (k : Nat) : Fld := ⟨R.RDX_DROP_CNT k, 31, 16⟩
/-- RDX_DROP_CNT.BUSY, RC. -/
abbrev F.RDX_DROP_CNT_BUSY (k : Nat) : Fld := ⟨R.RDX_DROP_CNT k, 15, 0⟩
/-- RDX_DEC_SAT (09_collective_reduction.md). -/
abbrev R.RDX_DEC_SAT (k : Nat) : Nat := rdxBase k + 0x14
/-- RDX_DEC_SAT.COUNT, RC. -/
abbrev F.RDX_DEC_SAT_COUNT (k : Nat) : Fld := ⟨R.RDX_DEC_SAT k, 31, 0⟩
/-- RDX_EPOCH (09_collective_reduction.md). -/
abbrev R.RDX_EPOCH (n : Nat) : Nat := 0xc001000 + 16 * n
/-- RDX_EPOCH.OLD_EPOCH, RO. -/
abbrev F.RDX_EPOCH_OLD_EPOCH (n : Nat) : Fld := ⟨R.RDX_EPOCH n, 31, 16⟩
/-- RDX_EPOCH.CUR_EPOCH, RO. -/
abbrev F.RDX_EPOCH_CUR_EPOCH (n : Nat) : Fld := ⟨R.RDX_EPOCH n, 15, 0⟩
/-- RDX_DRAIN (09_collective_reduction.md). -/
abbrev R.RDX_DRAIN (n : Nat) : Nat := 0xc001004 + 16 * n
/-- RDX_DRAIN.DRAINING, RO. -/
abbrev F.RDX_DRAIN_DRAINING (n : Nat) : Fld := ⟨R.RDX_DRAIN n, 31, 31⟩
/-- RDX_DRAIN.DISCARDED, RC. -/
abbrev F.RDX_DRAIN_DISCARDED (n : Nat) : Fld := ⟨R.RDX_DRAIN n, 15, 8⟩
/-- RDX_DRAIN.OLD_OPEN, RO. -/
abbrev F.RDX_DRAIN_OLD_OPEN (n : Nat) : Fld := ⟨R.RDX_DRAIN n, 7, 0⟩
/-- RDX_VERDICT (09_collective_reduction.md). -/
abbrev R.RDX_VERDICT (n : Nat) : Nat := 0xc001008 + 16 * n
/-- RDX_VERDICT.VALID, RO. -/
abbrev F.RDX_VERDICT_VALID (n : Nat) : Fld := ⟨R.RDX_VERDICT n, 31, 31⟩
/-- RDX_VERDICT.OUTCOME, RO. -/
abbrev F.RDX_VERDICT_OUTCOME (n : Nat) : Fld := ⟨R.RDX_VERDICT n, 25, 24⟩
/-- RDX_VERDICT.CAUSE, RO. -/
abbrev F.RDX_VERDICT_CAUSE (n : Nat) : Fld := ⟨R.RDX_VERDICT n, 23, 16⟩
/-- RDX_VERDICT.STEP, RO. -/
abbrev F.RDX_VERDICT_STEP (n : Nat) : Fld := ⟨R.RDX_VERDICT n, 15, 0⟩
/-- RDX_NF (09_collective_reduction.md). -/
abbrev R.RDX_NF (n : Nat) : Nat := 0xc00100c + 16 * n
/-- RDX_NF.NF_COUNT, RC. -/
abbrev F.RDX_NF_NF_COUNT (n : Nat) : Fld := ⟨R.RDX_NF n, 31, 0⟩
/-- TRN_MON_CTRL (10_imposition_and_training.md). -/
abbrev R.TRN_MON_CTRL (n : Nat) : Nat := 0x1020 + 64 * n
/-- TRN_MON_CTRL.K_X4, RW. -/
abbrev F.TRN_MON_CTRL_K_X4 (n : Nat) : Fld := ⟨R.TRN_MON_CTRL n, 31, 24⟩
/-- TRN_MON_CTRL.ALPHA_LOG2, RW. -/
abbrev F.TRN_MON_CTRL_ALPHA_LOG2 (n : Nat) : Fld := ⟨R.TRN_MON_CTRL n, 23, 20⟩
/-- TRN_MON_CTRL.WARMUP, RW. -/
abbrev F.TRN_MON_CTRL_WARMUP (n : Nat) : Fld := ⟨R.TRN_MON_CTRL n, 19, 8⟩
/-- TRN_MON_CTRL.EN, RW. -/
abbrev F.TRN_MON_CTRL_EN (n : Nat) : Fld := ⟨R.TRN_MON_CTRL n, 0, 0⟩
/-- TRN_LOSS_LO (10_imposition_and_training.md). -/
abbrev R.TRN_LOSS_LO (n : Nat) : Nat := 0x1024 + 64 * n
/-- TRN_LOSS_LO.ADDR_LO, RW. -/
abbrev F.TRN_LOSS_LO_ADDR_LO (n : Nat) : Fld := ⟨R.TRN_LOSS_LO n, 31, 0⟩
/-- TRN_LOSS_HI (10_imposition_and_training.md). -/
abbrev R.TRN_LOSS_HI (n : Nat) : Nat := 0x1028 + 64 * n
/-- TRN_LOSS_HI.VALID, RW. -/
abbrev F.TRN_LOSS_HI_VALID (n : Nat) : Fld := ⟨R.TRN_LOSS_HI n, 31, 31⟩
/-- TRN_LOSS_HI.ADDR_HI, RW. -/
abbrev F.TRN_LOSS_HI_ADDR_HI (n : Nat) : Fld := ⟨R.TRN_LOSS_HI n, 15, 0⟩
/-- TRN_MON_STAT (10_imposition_and_training.md). -/
abbrev R.TRN_MON_STAT (n : Nat) : Nat := 0x102c + 64 * n
/-- TRN_MON_STAT.SPIKES, RC. -/
abbrev F.TRN_MON_STAT_SPIKES (n : Nat) : Fld := ⟨R.TRN_MON_STAT n, 31, 16⟩
/-- TRN_MON_STAT.NF_STEPS, RC. -/
abbrev F.TRN_MON_STAT_NF_STEPS (n : Nat) : Fld := ⟨R.TRN_MON_STAT n, 15, 8⟩
/-- TRN_MON_STAT.NF_CLASS, RO. -/
abbrev F.TRN_MON_STAT_NF_CLASS (n : Nat) : Fld := ⟨R.TRN_MON_STAT n, 5, 0⟩
/-- TRN_RBAL (10_imposition_and_training.md). -/
abbrev R.TRN_RBAL (n : Nat) : Nat := 0x1030 + 64 * n
/-- TRN_RBAL.HYST_US, RW. -/
abbrev F.TRN_RBAL_HYST_US (n : Nat) : Fld := ⟨R.TRN_RBAL n, 31, 20⟩
/-- TRN_RBAL.MAXMOVE, RW. -/
abbrev F.TRN_RBAL_MAXMOVE (n : Nat) : Fld := ⟨R.TRN_RBAL n, 19, 16⟩
/-- TRN_RBAL.MBCOST_US, RW. -/
abbrev F.TRN_RBAL_MBCOST_US (n : Nat) : Fld := ⟨R.TRN_RBAL n, 15, 0⟩
/-- TRN_BNOISE (10_imposition_and_training.md). -/
abbrev R.TRN_BNOISE (n : Nat) : Nat := 0x1034 + 64 * n
/-- TRN_BNOISE.B_NOISE, RO. -/
abbrev F.TRN_BNOISE_B_NOISE (n : Nat) : Fld := ⟨R.TRN_BNOISE n, 31, 0⟩
/-- TRN_NF_LIM (10_imposition_and_training.md). -/
abbrev R.TRN_NF_LIM (n : Nat) : Nat := 0x1038 + 64 * n
/-- TRN_NF_LIM.LIMIT, RW. -/
abbrev F.TRN_NF_LIM_LIMIT (n : Nat) : Fld := ⟨R.TRN_NF_LIM n, 31, 0⟩
/-- TRN_IMP_STAT (10_imposition_and_training.md). -/
abbrev R.TRN_IMP_STAT (n : Nat) : Nat := 0x103c + 64 * n
/-- TRN_IMP_STAT.PENDING, RO. -/
abbrev F.TRN_IMP_STAT_PENDING (n : Nat) : Fld := ⟨R.TRN_IMP_STAT n, 31, 31⟩
/-- TRN_IMP_STAT.PEND_EPOCH, RO. -/
abbrev F.TRN_IMP_STAT_PEND_EPOCH (n : Nat) : Fld := ⟨R.TRN_IMP_STAT n, 15, 0⟩
/-- RES_CTRL (11_resilience.md). -/
abbrev R.RES_CTRL (n : Nat) : Nat := 0x1400 + 64 * n
/-- RES_CTRL.MIRROR_EN, RW. -/
abbrev F.RES_CTRL_MIRROR_EN (n : Nat) : Fld := ⟨R.RES_CTRL n, 31, 31⟩
/-- RES_CTRL.PARITY_EN, RW. -/
abbrev F.RES_CTRL_PARITY_EN (n : Nat) : Fld := ⟨R.RES_CTRL n, 30, 30⟩
/-- RES_CTRL.FP_EN, RW. -/
abbrev F.RES_CTRL_FP_EN (n : Nat) : Fld := ⟨R.RES_CTRL n, 29, 29⟩
/-- RES_CTRL.SHARE, RW. -/
abbrev F.RES_CTRL_SHARE (n : Nat) : Fld := ⟨R.RES_CTRL n, 26, 21⟩
/-- RES_CTRL.N_P, RW. -/
abbrev F.RES_CTRL_N_P (n : Nat) : Fld := ⟨R.RES_CTRL n, 20, 11⟩
/-- RES_CTRL.N_FP, RW. -/
abbrev F.RES_CTRL_N_FP (n : Nat) : Fld := ⟨R.RES_CTRL n, 10, 0⟩
/-- RES_TBL_LO (11_resilience.md). -/
abbrev R.RES_TBL_LO (n : Nat) : Nat := 0x1404 + 64 * n
/-- RES_TBL_LO.ADDR_LO, RW. -/
abbrev F.RES_TBL_LO_ADDR_LO (n : Nat) : Fld := ⟨R.RES_TBL_LO n, 31, 0⟩
/-- RES_TBL_HI (11_resilience.md). -/
abbrev R.RES_TBL_HI (n : Nat) : Nat := 0x1408 + 64 * n
/-- RES_TBL_HI.VALID, RW. -/
abbrev F.RES_TBL_HI_VALID (n : Nat) : Fld := ⟨R.RES_TBL_HI n, 31, 31⟩
/-- RES_TBL_HI.ADDR_HI, RW. -/
abbrev F.RES_TBL_HI_ADDR_HI (n : Nat) : Fld := ⟨R.RES_TBL_HI n, 15, 0⟩
/-- RES_STAT (11_resilience.md). -/
abbrev R.RES_STAT (n : Nat) : Nat := 0x140c + 64 * n
/-- RES_STAT.LIVE_VALID, RO. -/
abbrev F.RES_STAT_LIVE_VALID (n : Nat) : Fld := ⟨R.RES_STAT n, 31, 31⟩
/-- RES_STAT.GATE_WAIT, RO. -/
abbrev F.RES_STAT_GATE_WAIT (n : Nat) : Fld := ⟨R.RES_STAT n, 30, 30⟩
/-- RES_STAT.FP_HOLD, W1C. -/
abbrev F.RES_STAT_FP_HOLD (n : Nat) : Fld := ⟨R.RES_STAT n, 29, 29⟩
/-- RES_STAT.TABLE_BAD, RO. -/
abbrev F.RES_STAT_TABLE_BAD (n : Nat) : Fld := ⟨R.RES_STAT n, 28, 28⟩
/-- RES_STAT.ORDER, RO. -/
abbrev F.RES_STAT_ORDER (n : Nat) : Fld := ⟨R.RES_STAT n, 27, 26⟩
/-- RES_STAT.ORDER_STATUS, RO. -/
abbrev F.RES_STAT_ORDER_STATUS (n : Nat) : Fld := ⟨R.RES_STAT n, 23, 16⟩
/-- RES_LIVE_GEN (11_resilience.md). -/
abbrev R.RES_LIVE_GEN (n : Nat) : Nat := 0x1410 + 64 * n
/-- RES_LIVE_GEN.LIVE_GEN, RO. -/
abbrev F.RES_LIVE_GEN_LIVE_GEN (n : Nat) : Fld := ⟨R.RES_LIVE_GEN n, 31, 0⟩
/-- RES_MIRROR_GEN (11_resilience.md). -/
abbrev R.RES_MIRROR_GEN (n : Nat) : Nat := 0x1414 + 64 * n
/-- RES_MIRROR_GEN.GEN, RO. -/
abbrev F.RES_MIRROR_GEN_GEN (n : Nat) : Fld := ⟨R.RES_MIRROR_GEN n, 31, 0⟩
/-- RES_PARITY_GEN (11_resilience.md). -/
abbrev R.RES_PARITY_GEN (n : Nat) : Nat := 0x1418 + 64 * n
/-- RES_PARITY_GEN.GEN, RO. -/
abbrev F.RES_PARITY_GEN_GEN (n : Nat) : Fld := ⟨R.RES_PARITY_GEN n, 31, 0⟩
/-- RES_ORDER_LO (11_resilience.md). -/
abbrev R.RES_ORDER_LO (n : Nat) : Nat := 0x141c + 64 * n
/-- RES_ORDER_LO.ADDR_LO, RW. -/
abbrev F.RES_ORDER_LO_ADDR_LO (n : Nat) : Fld := ⟨R.RES_ORDER_LO n, 31, 0⟩
/-- RES_ORDER_HI (11_resilience.md). -/
abbrev R.RES_ORDER_HI (n : Nat) : Nat := 0x1420 + 64 * n
/-- RES_ORDER_HI.GO, WO. -/
abbrev F.RES_ORDER_HI_GO (n : Nat) : Fld := ⟨R.RES_ORDER_HI n, 31, 31⟩
/-- RES_ORDER_HI.ADDR_HI, RW. -/
abbrev F.RES_ORDER_HI_ADDR_HI (n : Nat) : Fld := ⟨R.RES_ORDER_HI n, 15, 0⟩
/-- RES_CNT (11_resilience.md). -/
abbrev R.RES_CNT (n : Nat) : Nat := 0x1424 + 64 * n
/-- RES_CNT.FP_MISMATCH, RC. -/
abbrev F.RES_CNT_FP_MISMATCH (n : Nat) : Fld := ⟨R.RES_CNT n, 31, 24⟩
/-- RES_CNT.FP_REPAIR, RC. -/
abbrev F.RES_CNT_FP_REPAIR (n : Nat) : Fld := ⟨R.RES_CNT n, 23, 16⟩
/-- RES_CNT.MIRROR_FAIL, RC. -/
abbrev F.RES_CNT_MIRROR_FAIL (n : Nat) : Fld := ⟨R.RES_CNT n, 15, 8⟩
/-- RES_CNT.PARITY_FAIL, RC. -/
abbrev F.RES_CNT_PARITY_FAIL (n : Nat) : Fld := ⟨R.RES_CNT n, 7, 0⟩
/-- MGT_RST_CTRL (12_reset_and_colophon.md). -/
abbrev R.MGT_RST_CTRL : Nat := 0x800
/-- MGT_RST_CTRL.KEY, WO. -/
abbrev F.MGT_RST_CTRL_KEY : Fld := ⟨R.MGT_RST_CTRL, 31, 16⟩
/-- MGT_RST_CTRL.CAPTURE, WO. -/
abbrev F.MGT_RST_CTRL_CAPTURE : Fld := ⟨R.MGT_RST_CTRL, 2, 2⟩
/-- MGT_RST_CTRL.COLD, WO. -/
abbrev F.MGT_RST_CTRL_COLD : Fld := ⟨R.MGT_RST_CTRL, 1, 1⟩
/-- MGT_RST_CTRL.WARM, WO. -/
abbrev F.MGT_RST_CTRL_WARM : Fld := ⟨R.MGT_RST_CTRL, 0, 0⟩
/-- MGT_RST_STAT (12_reset_and_colophon.md). -/
abbrev R.MGT_RST_STAT : Nat := 0x804
/-- MGT_RST_STAT.RSTATE, RO. -/
abbrev F.MGT_RST_STAT_RSTATE : Fld := ⟨R.MGT_RST_STAT, 31, 29⟩
/-- MGT_RST_STAT.LAST_DOMAIN, RO. -/
abbrev F.MGT_RST_STAT_LAST_DOMAIN : Fld := ⟨R.MGT_RST_STAT, 28, 26⟩
/-- MGT_RST_STAT.LAST_DET, RO. -/
abbrev F.MGT_RST_STAT_LAST_DET : Fld := ⟨R.MGT_RST_STAT, 23, 16⟩
/-- MGT_RST_STAT.WARM_IN_WINDOW, RO. -/
abbrev F.MGT_RST_STAT_WARM_IN_WINDOW : Fld := ⟨R.MGT_RST_STAT, 15, 8⟩
/-- MGT_RST_STAT.RESTARTS, RO. -/
abbrev F.MGT_RST_STAT_RESTARTS : Fld := ⟨R.MGT_RST_STAT, 7, 0⟩
/-- MGT_RST_ESC (12_reset_and_colophon.md). -/
abbrev R.MGT_RST_ESC : Nat := 0x808
/-- MGT_RST_ESC.WINDOW_S, RW. -/
abbrev F.MGT_RST_ESC_WINDOW_S : Fld := ⟨R.MGT_RST_ESC, 31, 16⟩
/-- MGT_RST_ESC.LIMIT, RW. -/
abbrev F.MGT_RST_ESC_LIMIT : Fld := ⟨R.MGT_RST_ESC, 3, 0⟩
/-- MGT_HANG_CTRL (12_reset_and_colophon.md). -/
abbrev R.MGT_HANG_CTRL : Nat := 0x80c
/-- MGT_HANG_CTRL.ENG_WDOG_MS, RW. -/
abbrev F.MGT_HANG_CTRL_ENG_WDOG_MS : Fld := ⟨R.MGT_HANG_CTRL, 31, 24⟩
/-- MGT_HANG_CTRL.XFER_TO_MS, RW. -/
abbrev F.MGT_HANG_CTRL_XFER_TO_MS : Fld := ⟨R.MGT_HANG_CTRL, 23, 16⟩
/-- MGT_HANG_CTRL.HB_PERIOD_MS, RW. -/
abbrev F.MGT_HANG_CTRL_HB_PERIOD_MS : Fld := ⟨R.MGT_HANG_CTRL, 15, 8⟩
/-- MGT_HANG_STAT (12_reset_and_colophon.md). -/
abbrev R.MGT_HANG_STAT : Nat := 0x810
/-- MGT_HANG_STAT.DET, W1C. -/
abbrev F.MGT_HANG_STAT_DET : Fld := ⟨R.MGT_HANG_STAT, 11, 1⟩
/-- COL_STAT (12_reset_and_colophon.md). -/
abbrev R.COL_STAT : Nat := 0x820
/-- COL_STAT.DROPPED, RC. -/
abbrev F.COL_STAT_DROPPED : Fld := ⟨R.COL_STAT, 31, 24⟩
/-- COL_STAT.RAM_VALID, RO. -/
abbrev F.COL_STAT_RAM_VALID : Fld := ⟨R.COL_STAT, 15, 12⟩
/-- COL_STAT.FULL_DONE, RO. -/
abbrev F.COL_STAT_FULL_DONE : Fld := ⟨R.COL_STAT, 11, 8⟩
/-- COL_STAT.SUM_DONE, RO. -/
abbrev F.COL_STAT_SUM_DONE : Fld := ⟨R.COL_STAT, 7, 4⟩
/-- COL_SEQ (12_reset_and_colophon.md). -/
abbrev R.COL_SEQ : Nat := 0x824
/-- COL_SEQ.NEXT_SEQ, RO. -/
abbrev F.COL_SEQ_NEXT_SEQ : Fld := ⟨R.COL_SEQ, 31, 0⟩
/-- PWR_HOLDUP (12_reset_and_colophon.md). -/
abbrev R.PWR_HOLDUP : Nat := 0x300100
/-- PWR_HOLDUP.CAP, RO. -/
abbrev F.PWR_HOLDUP_CAP : Fld := ⟨R.PWR_HOLDUP, 31, 16⟩
/-- PWR_HOLDUP.ENERGY, RO. -/
abbrev F.PWR_HOLDUP_ENERGY : Fld := ⟨R.PWR_HOLDUP, 15, 4⟩
/-- PWR_HOLDUP.VALID, RO. -/
abbrev F.PWR_HOLDUP_VALID : Fld := ⟨R.PWR_HOLDUP, 0, 0⟩
/-- HPT_STAT (13_host_port_and_mailboxes.md). -/
abbrev R.HPT_STAT : Nat := 0x400000
/-- HPT_STAT.LINK, RO. -/
abbrev F.HPT_STAT_LINK : Fld := ⟨R.HPT_STAT, 31, 31⟩
/-- HPT_STAT.PTP_LOCK, RO. -/
abbrev F.HPT_STAT_PTP_LOCK : Fld := ⟨R.HPT_STAT, 30, 30⟩
/-- HPT_STAT.RING_ERR, W1C. -/
abbrev F.HPT_STAT_RING_ERR : Fld := ⟨R.HPT_STAT, 29, 29⟩
/-- HPT_STAT.SEND_DISC, RC. -/
abbrev F.HPT_STAT_SEND_DISC : Fld := ⟨R.HPT_STAT, 15, 0⟩
/-- HPT_ER_LO (13_host_port_and_mailboxes.md). -/
abbrev R.HPT_ER_LO : Nat := 0x400010
/-- HPT_ER_LO.ADDR_LO, RW. -/
abbrev F.HPT_ER_LO_ADDR_LO : Fld := ⟨R.HPT_ER_LO, 31, 0⟩
/-- HPT_ER_HI (13_host_port_and_mailboxes.md). -/
abbrev R.HPT_ER_HI : Nat := 0x400014
/-- HPT_ER_HI.EN, RW. -/
abbrev F.HPT_ER_HI_EN : Fld := ⟨R.HPT_ER_HI, 31, 31⟩
/-- HPT_ER_HI.LOG2, RW. -/
abbrev F.HPT_ER_HI_LOG2 : Fld := ⟨R.HPT_ER_HI, 27, 24⟩
/-- HPT_ER_HI.QP, RW. -/
abbrev F.HPT_ER_HI_QP : Fld := ⟨R.HPT_ER_HI, 23, 12⟩
/-- HPT_ER_HI.ADDR_HI, RW. -/
abbrev F.HPT_ER_HI_ADDR_HI : Fld := ⟨R.HPT_ER_HI, 11, 0⟩
/-- HPT_ER_RKEY (13_host_port_and_mailboxes.md). -/
abbrev R.HPT_ER_RKEY : Nat := 0x400018
/-- HPT_ER_RKEY.RKEY, RW. -/
abbrev F.HPT_ER_RKEY_RKEY : Fld := ⟨R.HPT_ER_RKEY, 31, 0⟩
/-- HPT_ER_CI (13_host_port_and_mailboxes.md). -/
abbrev R.HPT_ER_CI : Nat := 0x40001c
/-- HPT_ER_CI.CI, RW. -/
abbrev F.HPT_ER_CI_CI : Fld := ⟨R.HPT_ER_CI, 31, 0⟩
/-- HPT_CS_ERR (13_host_port_and_mailboxes.md). -/
abbrev R.HPT_CS_ERR : Nat := 0x400020
/-- HPT_CS_ERR.COUNT, RC. -/
abbrev F.HPT_CS_ERR_COUNT : Fld := ⟨R.HPT_CS_ERR, 31, 24⟩
/-- HPT_CS_ERR.OFFSET, RO. -/
abbrev F.HPT_CS_ERR_OFFSET : Fld := ⟨R.HPT_CS_ERR, 23, 0⟩
/-- MBX_LO (13_host_port_and_mailboxes.md). -/
abbrev R.MBX_LO (n : Nat) : Nat := 0x200000 + 16 * n
/-- MBX_LO.SLUG_LO, RW. -/
abbrev F.MBX_LO_SLUG_LO (n : Nat) : Fld := ⟨R.MBX_LO n, 31, 0⟩
/-- MBX_HI (13_host_port_and_mailboxes.md). -/
abbrev R.MBX_HI (n : Nat) : Nat := 0x200004 + 16 * n
/-- MBX_HI.SLUG_HI, RW. -/
abbrev F.MBX_HI_SLUG_HI (n : Nat) : Fld := ⟨R.MBX_HI n, 31, 0⟩
/-- MBX_STAT (13_host_port_and_mailboxes.md). -/
abbrev R.MBX_STAT (n : Nat) : Nat := 0x200008 + 16 * n
/-- MBX_STAT.FULL, RO. -/
abbrev F.MBX_STAT_FULL (n : Nat) : Fld := ⟨R.MBX_STAT n, 31, 31⟩
/-- MBX_STAT.CLAIMED, RO. -/
abbrev F.MBX_STAT_CLAIMED (n : Nat) : Fld := ⟨R.MBX_STAT n, 30, 30⟩
/-- MBX_STAT.CLAIMANT, RO. -/
abbrev F.MBX_STAT_CLAIMANT (n : Nat) : Fld := ⟨R.MBX_STAT n, 23, 16⟩
/-- MBX_STAT.ERR_CNT, RC. -/
abbrev F.MBX_STAT_ERR_CNT (n : Nat) : Fld := ⟨R.MBX_STAT n, 15, 8⟩
/-- MBX_CFG (13_host_port_and_mailboxes.md). -/
abbrev R.MBX_CFG (n : Nat) : Nat := 0x20000c + 16 * n
/-- MBX_CFG.RCV, RW. -/
abbrev F.MBX_CFG_RCV (n : Nat) : Fld := ⟨R.MBX_CFG n, 7, 0⟩
/-- SEC_BOOT_STAT (14_startup_boot_and_trust.md). -/
abbrev R.SEC_BOOT_STAT : Nat := 0x100000
/-- SEC_BOOT_STAT.ATTEMPTS, RO. -/
abbrev F.SEC_BOOT_STAT_ATTEMPTS : Fld := ⟨R.SEC_BOOT_STAT, 31, 16⟩
/-- SEC_BOOT_STAT.NET_BOOTED, RO. -/
abbrev F.SEC_BOOT_STAT_NET_BOOTED : Fld := ⟨R.SEC_BOOT_STAT, 8, 8⟩
/-- SEC_BOOT_STAT.ROOT_SLOT, RO. -/
abbrev F.SEC_BOOT_STAT_ROOT_SLOT : Fld := ⟨R.SEC_BOOT_STAT, 4, 4⟩
/-- SEC_BOOT_STAT.RESULT, RO. -/
abbrev F.SEC_BOOT_STAT_RESULT : Fld := ⟨R.SEC_BOOT_STAT, 3, 0⟩
/-- SEC_BOOT_CTRL (14_startup_boot_and_trust.md). -/
abbrev R.SEC_BOOT_CTRL : Nat := 0x100004
/-- SEC_BOOT_CTRL.KEY, WO. -/
abbrev F.SEC_BOOT_CTRL_KEY : Fld := ⟨R.SEC_BOOT_CTRL, 31, 16⟩
/-- SEC_BOOT_CTRL.KEYREC_GO, WO. -/
abbrev F.SEC_BOOT_CTRL_KEYREC_GO : Fld := ⟨R.SEC_BOOT_CTRL, 1, 1⟩
/-- SEC_BOOT_CTRL.NET_NEXT, RW. -/
abbrev F.SEC_BOOT_CTRL_NET_NEXT : Fld := ⟨R.SEC_BOOT_CTRL, 0, 0⟩
/-- SEC_SVN (14_startup_boot_and_trust.md). -/
abbrev R.SEC_SVN : Nat := 0x100008
/-- SEC_SVN.SLOT0_REVOKED, RO. -/
abbrev F.SEC_SVN_SLOT0_REVOKED : Fld := ⟨R.SEC_SVN, 16, 16⟩
/-- SEC_SVN.IMAGE_SVN, RO. -/
abbrev F.SEC_SVN_IMAGE_SVN : Fld := ⟨R.SEC_SVN, 14, 8⟩
/-- SEC_SVN.FUSED, RO. -/
abbrev F.SEC_SVN_FUSED : Fld := ⟨R.SEC_SVN, 6, 0⟩
/-- SEC_FKEY_STAT (14_startup_boot_and_trust.md). -/
abbrev R.SEC_FKEY_STAT : Nat := 0x10000c
/-- SEC_FKEY_STAT.REQUIRE_SIGNED, RO. -/
abbrev F.SEC_FKEY_STAT_REQUIRE_SIGNED : Fld := ⟨R.SEC_FKEY_STAT, 31, 31⟩
/-- SEC_FKEY_STAT.OWNER_SET, RO. -/
abbrev F.SEC_FKEY_STAT_OWNER_SET : Fld := ⟨R.SEC_FKEY_STAT, 30, 30⟩
/-- SEC_FKEY_STAT.KEYREC_ERR, W1C. -/
abbrev F.SEC_FKEY_STAT_KEYREC_ERR : Fld := ⟨R.SEC_FKEY_STAT, 29, 29⟩
/-- SEC_FKEY_STAT.VALID_MASK, RO. -/
abbrev F.SEC_FKEY_STAT_VALID_MASK : Fld := ⟨R.SEC_FKEY_STAT, 15, 8⟩
/-- SEC_KEYREC (14_startup_boot_and_trust.md). -/
abbrev R.SEC_KEYREC (n : Nat) : Nat := 0x101000 + 4 * n
/-- SEC_KEYREC.REC_WORD, WO. -/
abbrev F.SEC_KEYREC_REC_WORD (n : Nat) : Fld := ⟨R.SEC_KEYREC n, 31, 0⟩
/-- PWR_CAP (15_power_thermal_sideband.md). -/
abbrev R.PWR_CAP : Nat := 0x300000
/-- PWR_CAP.BMC_CAP, RO. -/
abbrev F.PWR_CAP_BMC_CAP : Fld := ⟨R.PWR_CAP, 31, 16⟩
/-- PWR_CAP.HOST_CAP, RW. -/
abbrev F.PWR_CAP_HOST_CAP : Fld := ⟨R.PWR_CAP, 15, 0⟩
/-- PWR_STAT (15_power_thermal_sideband.md). -/
abbrev R.PWR_STAT : Nat := 0x300004
/-- PWR_STAT.CAP_W, RO. -/
abbrev F.PWR_STAT_CAP_W : Fld := ⟨R.PWR_STAT, 31, 16⟩
/-- PWR_STAT.THROTTLED, RO. -/
abbrev F.PWR_STAT_THROTTLED : Fld := ⟨R.PWR_STAT, 3, 3⟩
/-- PWR_STAT.LIMITER, RO. -/
abbrev F.PWR_STAT_LIMITER : Fld := ⟨R.PWR_STAT, 2, 2⟩
/-- PWR_STAT.AT_FLOOR, RO. -/
abbrev F.PWR_STAT_AT_FLOOR : Fld := ⟨R.PWR_STAT, 1, 1⟩
/-- PWR_STAT.CAP_UNMET, RO. -/
abbrev F.PWR_STAT_CAP_UNMET : Fld := ⟨R.PWR_STAT, 0, 0⟩
/-- PWR_INPUT (15_power_thermal_sideband.md). -/
abbrev R.PWR_INPUT : Nat := 0x300008
/-- PWR_INPUT.VIN, RO. -/
abbrev F.PWR_INPUT_VIN : Fld := ⟨R.PWR_INPUT, 31, 16⟩
/-- PWR_INPUT.PIN, RO. -/
abbrev F.PWR_INPUT_PIN : Fld := ⟨R.PWR_INPUT, 15, 0⟩
/-- PWR_DIE (15_power_thermal_sideband.md). -/
abbrev R.PWR_DIE (n : Nat) : Nat := 0x300010 + 4 * n
/-- PWR_DIE.TJ_C, RO. -/
abbrev F.PWR_DIE_TJ_C (n : Nat) : Fld := ⟨R.PWR_DIE n, 31, 24⟩
/-- PWR_DIE.FLOOR_MHZ, RO. -/
abbrev F.PWR_DIE_FLOOR_MHZ (n : Nat) : Fld := ⟨R.PWR_DIE n, 23, 12⟩
/-- PWR_DIE.CLK_MHZ, RO. -/
abbrev F.PWR_DIE_CLK_MHZ (n : Nat) : Fld := ⟨R.PWR_DIE n, 11, 0⟩
/-- PWR_THERM (15_power_thermal_sideband.md). -/
abbrev R.PWR_THERM : Nat := 0x300020
/-- PWR_THERM.WARN_C, RW. -/
abbrev F.PWR_THERM_WARN_C : Fld := ⟨R.PWR_THERM, 7, 0⟩
/-- PWR_PIN_STAT (15_power_thermal_sideband.md). -/
abbrev R.PWR_PIN_STAT : Nat := 0x300024
/-- PWR_PIN_STAT.FAULTY, RO. -/
abbrev F.PWR_PIN_STAT_FAULTY : Fld := ⟨R.PWR_PIN_STAT, 10, 8⟩
/-- PWR_PIN_STAT.LEVEL, RO. -/
abbrev F.PWR_PIN_STAT_LEVEL : Fld := ⟨R.PWR_PIN_STAT, 2, 0⟩
/-- PWR_ALERT (15_power_thermal_sideband.md). -/
abbrev R.PWR_ALERT : Nat := 0x300028
/-- PWR_ALERT.MASK, RW. -/
abbrev F.PWR_ALERT_MASK : Fld := ⟨R.PWR_ALERT, 15, 8⟩
/-- PWR_ALERT.OOS, RO. -/
abbrev F.PWR_ALERT_OOS : Fld := ⟨R.PWR_ALERT, 5, 5⟩
/-- PWR_ALERT.PIN, W1C. -/
abbrev F.PWR_ALERT_PIN : Fld := ⟨R.PWR_ALERT, 4, 4⟩
/-- PWR_ALERT.THROT, W1C. -/
abbrev F.PWR_ALERT_THROT : Fld := ⟨R.PWR_ALERT, 3, 3⟩
/-- PWR_ALERT.THERM, W1C. -/
abbrev F.PWR_ALERT_THERM : Fld := ⟨R.PWR_ALERT, 2, 2⟩
/-- PWR_ALERT.CAP, W1C. -/
abbrev F.PWR_ALERT_CAP : Fld := ⟨R.PWR_ALERT, 1, 1⟩
/-- PWR_ALERT.INPUT, W1C. -/
abbrev F.PWR_ALERT_INPUT : Fld := ⟨R.PWR_ALERT, 0, 0⟩
/-- MGT_ID (16_address_map.md). -/
abbrev R.MGT_ID : Nat := 0x0
/-- MGT_ID.PART, RO. -/
abbrev F.MGT_ID_PART : Fld := ⟨R.MGT_ID, 31, 0⟩
/-- MGT_STEP (16_address_map.md). -/
abbrev R.MGT_STEP : Nat := 0x4
/-- MGT_STEP.STEP_MAJ, RO. -/
abbrev F.MGT_STEP_STEP_MAJ : Fld := ⟨R.MGT_STEP, 15, 8⟩
/-- MGT_STEP.STEP_MIN, RO. -/
abbrev F.MGT_STEP_STEP_MIN : Fld := ⟨R.MGT_STEP, 7, 0⟩
/-- MGT_SERIAL_LO (16_address_map.md). -/
abbrev R.MGT_SERIAL_LO : Nat := 0x8
/-- MGT_SERIAL_LO.SERIAL_LO, RO. -/
abbrev F.MGT_SERIAL_LO_SERIAL_LO : Fld := ⟨R.MGT_SERIAL_LO, 31, 0⟩
/-- MGT_SERIAL_HI (16_address_map.md). -/
abbrev R.MGT_SERIAL_HI : Nat := 0xc
/-- MGT_SERIAL_HI.SERIAL_HI, RO. -/
abbrev F.MGT_SERIAL_HI_SERIAL_HI : Fld := ⟨R.MGT_SERIAL_HI, 31, 0⟩
/-- MGT_CAP_SUM (16_address_map.md). -/
abbrev R.MGT_CAP_SUM : Nat := 0x10
/-- MGT_CAP_SUM.REDUCED, RO. -/
abbrev F.MGT_CAP_SUM_REDUCED : Fld := ⟨R.MGT_CAP_SUM, 31, 31⟩
/-- MGT_CAP_SUM.STANDALONE, RO. -/
abbrev F.MGT_CAP_SUM_STANDALONE : Fld := ⟨R.MGT_CAP_SUM, 30, 30⟩
/-- MGT_CAP_SUM.ACTIVE_PORTS, RO. -/
abbrev F.MGT_CAP_SUM_ACTIVE_PORTS : Fld := ⟨R.MGT_CAP_SUM, 23, 16⟩
/-- MGT_CAP_SUM.ED_PRESENT, RO. -/
abbrev F.MGT_CAP_SUM_ED_PRESENT : Fld := ⟨R.MGT_CAP_SUM, 9, 8⟩
/-- MGT_CAP_SUM.CD_PRESENT, RO. -/
abbrev F.MGT_CAP_SUM_CD_PRESENT : Fld := ⟨R.MGT_CAP_SUM, 7, 4⟩
/-- MGT_CAP_SUM.RDX_PRESENT, RO. -/
abbrev F.MGT_CAP_SUM_RDX_PRESENT : Fld := ⟨R.MGT_CAP_SUM, 3, 0⟩
/-- MGT_CAP_LPX (16_address_map.md). -/
abbrev R.MGT_CAP_LPX : Nat := 0x14
/-- MGT_CAP_LPX.LPX, RO. -/
abbrev F.MGT_CAP_LPX_LPX : Fld := ⟨R.MGT_CAP_LPX, 15, 0⟩
/-- MGT_CAP_CORE (16_address_map.md). -/
abbrev R.MGT_CAP_CORE (n : Nat) : Nat := 0x20 + 4 * n
/-- MGT_CAP_CORE.CORES, RO. -/
abbrev F.MGT_CAP_CORE_CORES (n : Nat) : Fld := ⟨R.MGT_CAP_CORE n, 31, 0⟩
/-- MGT_CAP_DIE (16_address_map.md). -/
abbrev R.MGT_CAP_DIE (n : Nat) : Nat := 0x30 + 4 * n
/-- MGT_CAP_DIE.MAX_MHZ, RO. -/
abbrev F.MGT_CAP_DIE_MAX_MHZ (n : Nat) : Fld := ⟨R.MGT_CAP_DIE n, 23, 12⟩
/-- MGT_CAP_DIE.BRIDGES, RO. -/
abbrev F.MGT_CAP_DIE_BRIDGES (n : Nat) : Fld := ⟨R.MGT_CAP_DIE n, 11, 8⟩
/-- MGT_CAP_DIE.HBM, RO. -/
abbrev F.MGT_CAP_DIE_HBM (n : Nat) : Fld := ⟨R.MGT_CAP_DIE n, 2, 0⟩

/-- Part 0 of the register table. -/
def regTable0 : List RegDesc :=
  [ ⟨0x00000040, [], .warm, 0x00000000, [⟨23, 16, .ro, .any⟩, ⟨11, 8, .ro, .any⟩, ⟨2, 2, .w1c, .any⟩, ⟨1, 1, .ro, .any⟩, ⟨0, 0, .ro, .any⟩]⟩
  , ⟨0x00000044, [], .warm, 0x00000000, [⟨31, 0, .rc, .any⟩]⟩
  , ⟨0x01100100, coreDims, .core, 0x00000000, [⟨31, 0, .ro, .any⟩]⟩
  , ⟨0x01100104, coreDims, .warm, 0x000E0A00, [⟨20, 16, .rw, .range 8 24⟩, ⟨11, 8, .rw, .zeroOr 6 15⟩]⟩
  , ⟨0x01100108, coreDims, .cold, 0x00000000, [⟨31, 31, .ro, .any⟩, ⟨4, 4, .ro, .any⟩, ⟨3, 3, .w1c, .any⟩, ⟨2, 2, .w1c, .any⟩, ⟨1, 1, .w1c, .any⟩, ⟨0, 0, .w1c, .any⟩]⟩
  , ⟨0x0110010C, coreDims, .warm, 0x00000000, [⟨31, 24, .rc, .any⟩, ⟨23, 12, .rc, .any⟩, ⟨11, 0, .rc, .any⟩]⟩
  , ⟨0x01100110, coreDims, .warm, 0x00000000, [⟨31, 0, .rc, .any⟩]⟩
  , ⟨0x01100114, coreDims, .core, 0x00000000, [⟨31, 0, .ro, .any⟩]⟩
  , ⟨0x01008000, dieDims, .warm, 0x000C0040, [⟨20, 16, .rw, .range 4 24⟩, ⟨7, 0, .rw, .range 1 255⟩]⟩
  , ⟨0x01100200, coreDims, .cold, 0x00000000, [⟨31, 31, .ro, .any⟩, ⟨23, 16, .rc, .any⟩, ⟨7, 3, .ro, .any⟩, ⟨2, 2, .ro, .any⟩, ⟨1, 1, .w1c, .any⟩, ⟨0, 0, .w1c, .any⟩]⟩
  , ⟨0x01100204, coreDims, .warm, 0x00000000, [⟨31, 16, .rc, .any⟩, ⟨15, 0, .rc, .any⟩]⟩
  , ⟨0x01100210, (4, 6) :: coreDims, .warm, 0x00000000, [⟨31, 0, .rc, .any⟩]⟩
  , ⟨0x01100300, coreDims, .core, 0x00000000, [⟨31, 0, .ro, .any⟩]⟩
  , ⟨0x01100304, coreDims, .warm, 0x00000000, [⟨31, 24, .rc, .any⟩, ⟨23, 0, .rc, .any⟩]⟩
  , ⟨0x01100400, coreDims, .core, 0x00000000, [⟨31, 26, .ro, .any⟩, ⟨25, 21, .ro, .any⟩, ⟨20, 16, .ro, .any⟩, ⟨15, 8, .rc, .any⟩, ⟨3, 3, .ro, .any⟩, ⟨2, 2, .w1c, .any⟩, ⟨1, 1, .w1c, .any⟩]⟩
  , ⟨0x01100404, coreDims, .warm, 0x00000000, [⟨31, 16, .rc, .any⟩, ⟨15, 0, .rc, .any⟩]⟩
  , ⟨0x01009000, (4, 3) :: dieDims, .die, 0xFFFFFFFF, [⟨31, 0, .ro, .any⟩]⟩
  , ⟨0x0100900C, dieDims, .warm, 0x00000000, [⟨31, 16, .rc, .any⟩, ⟨15, 0, .rc, .any⟩]⟩
  , ⟨0x0100A400, dieDims, .warm, 0x8000040A, [⟨31, 31, .rw, .any⟩, ⟨15, 8, .rw, .range 1 255⟩, ⟨7, 0, .rw, .range 1 255⟩]⟩
  , ⟨0x0800A800, edgeDims, .warm, 0x80000800, [⟨31, 31, .rw, .any⟩, ⟨15, 8, .rw, .range 1 255⟩]⟩
  , ⟨0x0100A000, (256, 3) :: dieDims, .warm, 0x00000000, [⟨31, 24, .rc, .any⟩, ⟨23, 0, .rc, .any⟩]⟩
  , ⟨0x0100A004, (256, 3) :: dieDims, .warm, 0x00000000, [⟨31, 16, .rc, .any⟩, ⟨8, 4, .ro, .any⟩, ⟨3, 0, .ro, .any⟩]⟩ ]

/-- Part 1 of the register table. -/
def regTable1 : List RegDesc :=
  [ ⟨0x0100A008, (256, 3) :: dieDims, .warm, 0x00000000, [⟨31, 0, .ro, .any⟩]⟩
  , ⟨0x0100A00C, (256, 3) :: dieDims, .warm, 0x00000000, [⟨31, 31, .w1c, .any⟩, ⟨30, 30, .ro, .any⟩, ⟨15, 0, .ro, .any⟩]⟩
  , ⟨0x0800A000, (256, 8) :: edgeDims, .warm, 0x00000000, [⟨31, 24, .rc, .any⟩, ⟨23, 16, .rc, .any⟩, ⟨15, 0, .rc, .any⟩]⟩
  , ⟨0x0800A004, (256, 8) :: edgeDims, .warm, 0x00000000, [⟨31, 16, .rc, .any⟩, ⟨3, 0, .ro, .any⟩]⟩
  , ⟨0x0800A008, (256, 8) :: edgeDims, .warm, 0x00000000, [⟨31, 0, .ro, .any⟩]⟩
  , ⟨0x0800A00C, (256, 8) :: edgeDims, .warm, 0x00000000, [⟨31, 31, .w1c, .any⟩, ⟨30, 30, .ro, .any⟩, ⟨15, 0, .ro, .any⟩]⟩
  , ⟨0x00500000, [], .cold, 0x00000000, [⟨31, 31, .rw, .any⟩, ⟨27, 26, .rw, .any⟩]⟩
  , ⟨0x00500004, [], .cold, 0x080000C8, [⟨31, 24, .rw, .range 4 32⟩, ⟨13, 0, .rw, .range 50 10000⟩]⟩
  , ⟨0x00500008, [], .cold, 0x00000000, [⟨9, 9, .w1c, .any⟩, ⟨8, 8, .w1c, .any⟩, ⟨3, 3, .ro, .any⟩, ⟨2, 0, .ro, .any⟩]⟩
  , ⟨0x0050000C, [], .cold, 0x00000000, [⟨31, 0, .ro, .any⟩]⟩
  , ⟨0x00500010, [], .cold, 0x00000000, [⟨31, 0, .ro, .any⟩]⟩
  , ⟨0x00500014, [], .cold, 0x00000000, [⟨15, 0, .ro, .any⟩]⟩
  , ⟨0x00500018, [], .cold, 0x000003E8, [⟨31, 16, .ro, .any⟩, ⟨15, 0, .rw, .range 1 65535⟩]⟩
  , ⟨0x0050001C, [], .cold, 0x00000000, [⟨23, 0, .rw, .any⟩]⟩
  , ⟨0x00500020, [], .cold, 0x00000000, [⟨23, 0, .rw, .any⟩]⟩
  , ⟨0x00500100, [(4, 48)], .cold, 0x00000000, [⟨15, 0, .rw, .any⟩]⟩
  , ⟨0x00500024, [], .warm, 0x00000000, [⟨31, 20, .rc, .any⟩, ⟨19, 10, .rc, .any⟩, ⟨9, 0, .rc, .any⟩]⟩
  , ⟨0x00500028, [], .warm, 0x00000064, [⟨15, 0, .rw, .range 1 65535⟩]⟩
  , ⟨0x00001000, [(64, 8)], .context, 0x00000000, [⟨31, 28, .ro, .any⟩, ⟨27, 27, .ro, .any⟩, ⟨26, 26, .ro, .any⟩, ⟨25, 25, .ro, .any⟩, ⟨15, 0, .ro, .any⟩]⟩
  , ⟨0x00001004, [(64, 8)], .context, 0x00000000, [⟨27, 16, .ro, .any⟩, ⟨15, 0, .ro, .any⟩]⟩
  , ⟨0x00001008, [(64, 8)], .context, 0x00000000, [⟨31, 0, .ro, .any⟩]⟩
  , ⟨0x0000100C, [(64, 8)], .context, 0x00000000, [⟨31, 16, .rc, .any⟩, ⟨15, 0, .rc, .any⟩]⟩ ]

/-- Part 2 of the register table. -/
def regTable2 : List RegDesc :=
  [ ⟨0x00001010, [(64, 8)], .warm, 0x00000000, [⟨31, 31, .w1c, .any⟩, ⟨22, 16, .ro, .any⟩, ⟨15, 0, .ro, .any⟩]⟩
  , ⟨0x00001014, [(64, 8)], .warm, 0x00000000, [⟨31, 16, .ro, .any⟩, ⟨15, 0, .ro, .any⟩]⟩
  , ⟨0x00001018, [(64, 8)], .context, 0x00640000, [⟨31, 31, .ro, .any⟩, ⟨30, 30, .ro, .any⟩, ⟨29, 16, .ro, .any⟩, ⟨15, 0, .ro, .any⟩]⟩
  , ⟨0x01100500, coreDims, .core, 0x00000000, [⟨3, 3, .ro, .any⟩, ⟨2, 0, .ro, .any⟩]⟩
  , ⟨0x08000000, [], .cold, 0x00000000, [⟨23, 0, .rw, .any⟩]⟩
  , ⟨0x08000004, [], .cold, 0x00000000, [⟨31, 31, .rw, .any⟩, ⟨23, 0, .rw, .any⟩]⟩
  , ⟨0x08000008, [], .cold, 0x00000000, [⟨31, 0, .ro, .any⟩]⟩
  , ⟨0x0800000C, [], .cold, 0x00000000, [⟨1, 1, .ro, .any⟩, ⟨0, 0, .ro, .any⟩]⟩
  , ⟨0x08000010, [], .warm, 0x00000000, [⟨31, 16, .rc, .any⟩, ⟨15, 0, .rc, .any⟩]⟩
  , ⟨0x08000014, [], .warm, 0x00000000, [⟨31, 16, .rc, .any⟩, ⟨15, 0, .rc, .any⟩]⟩
  , ⟨0x08000018, [], .warm, 0x00000000, [⟨31, 16, .rc, .any⟩, ⟨15, 0, .rc, .any⟩]⟩
  , ⟨0x0800001C, [], .warm, 0x00000000, [⟨31, 16, .rc, .any⟩, ⟨15, 0, .rc, .any⟩]⟩
  , ⟨0x08000020, [], .warm, 0x00000000, [⟨31, 0, .rc, .any⟩]⟩
  , ⟨0x08000024, [], .cold, 0x00000010, [⟨15, 0, .rw, .range 1 65535⟩]⟩
  , ⟨0x08020000, [(16, 1024)], .cold, 0x00000000, [⟨31, 31, .rw, .any⟩, ⟨28, 24, .rw, .range 0 24⟩, ⟨23, 0, .rw, .any⟩]⟩
  , ⟨0x08020004, [(16, 1024)], .cold, 0x00000000, [⟨31, 0, .rw, .any⟩]⟩
  , ⟨0x08020008, [(16, 1024)], .cold, 0x00000000, [⟨15, 0, .rw, .any⟩]⟩
  , ⟨0x08010000, (64, 22) :: edgeDims, .cold, 0, [⟨31, 31, .rw, .any⟩, ⟨30, 30, .rw, .any⟩, ⟨29, 29, .wo, .any⟩]⟩
  , ⟨0x08010580, (64, 2) :: edgeDims, .cold, 0x40000000, [⟨31, 31, .rw, .any⟩, ⟨30, 30, .rw, .any⟩, ⟨29, 29, .wo, .any⟩]⟩
  , ⟨0x08010004, (64, 24) :: edgeDims, .cold, 0x00000000, [⟨31, 31, .ro, .any⟩, ⟨29, 24, .ro, .any⟩, ⟨15, 8, .ro, .any⟩, ⟨2, 0, .ro, .any⟩]⟩
  , ⟨0x08010008, (64, 24) :: edgeDims, .warm, 0x00000000, [⟨31, 0, .rc, .any⟩]⟩
  , ⟨0x0801000C, (64, 24) :: edgeDims, .warm, 0x00000000, [⟨31, 0, .rc, .any⟩]⟩ ]

/-- Part 3 of the register table. -/
def regTable3 : List RegDesc :=
  [ ⟨0x08010010, (64, 24) :: edgeDims, .warm, 0x00000000, [⟨31, 16, .rc, .any⟩, ⟨15, 0, .rc, .any⟩]⟩
  , ⟨0x0C000000, rdxDims, .warm, 0x00000101, [⟨11, 8, .rw, .range 0 4⟩, ⟨0, 0, .rw, .any⟩]⟩
  , ⟨0x0C000004, rdxDims, .warm, 0x00000000, [⟨22, 16, .ro, .any⟩, ⟨4, 4, .w1c, .any⟩, ⟨3, 3, .w1c, .any⟩, ⟨2, 2, .w1c, .any⟩, ⟨1, 1, .w1c, .any⟩, ⟨0, 0, .w1c, .any⟩]⟩
  , ⟨0x0C000008, rdxDims, .warm, 0x00000000, [⟨31, 16, .rc, .any⟩, ⟨15, 0, .rc, .any⟩]⟩
  , ⟨0x0C00000C, rdxDims, .warm, 0x00000000, [⟨31, 16, .rc, .any⟩, ⟨15, 8, .rc, .any⟩, ⟨7, 0, .rc, .any⟩]⟩
  , ⟨0x0C000010, rdxDims, .warm, 0x00000000, [⟨31, 16, .rc, .any⟩, ⟨15, 0, .rc, .any⟩]⟩
  , ⟨0x0C000014, rdxDims, .warm, 0x00000000, [⟨31, 0, .rc, .any⟩]⟩
  , ⟨0x0C001000, [(16, 8)], .context, 0x00000000, [⟨31, 16, .ro, .any⟩, ⟨15, 0, .ro, .any⟩]⟩
  , ⟨0x0C001004, [(16, 8)], .context, 0x00000000, [⟨31, 31, .ro, .any⟩, ⟨15, 8, .rc, .any⟩, ⟨7, 0, .ro, .any⟩]⟩
  , ⟨0x0C001008, [(16, 8)], .context, 0x00000000, [⟨31, 31, .ro, .any⟩, ⟨25, 24, .ro, .any⟩, ⟨23, 16, .ro, .any⟩, ⟨15, 0, .ro, .any⟩]⟩
  , ⟨0x0C00100C, [(16, 8)], .context, 0x00000000, [⟨31, 0, .rc, .any⟩]⟩
  , ⟨0x00001020, [(64, 8)], .context, 0x18604001, [⟨31, 24, .rw, .range 1 255⟩, ⟨23, 20, .rw, .range 1 12⟩, ⟨19, 8, .rw, .any⟩, ⟨0, 0, .rw, .any⟩]⟩
  , ⟨0x00001024, [(64, 8)], .context, 0x00000000, [⟨31, 0, .rw, .any⟩]⟩
  , ⟨0x00001028, [(64, 8)], .context, 0x00000000, [⟨31, 31, .rw, .any⟩, ⟨15, 0, .rw, .any⟩]⟩
  , ⟨0x0000102C, [(64, 8)], .context, 0x00000000, [⟨31, 16, .rc, .any⟩, ⟨15, 8, .rc, .any⟩, ⟨5, 0, .ro, .any⟩]⟩
  , ⟨0x00001030, [(64, 8)], .context, 0x03200000, [⟨31, 20, .rw, .any⟩, ⟨19, 16, .rw, .any⟩, ⟨15, 0, .rw, .any⟩]⟩
  , ⟨0x00001034, [(64, 8)], .context, 0x00000000, [⟨31, 0, .ro, .any⟩]⟩
  , ⟨0x00001038, [(64, 8)], .context, 0x00000000, [⟨31, 0, .rw, .any⟩]⟩
  , ⟨0x0000103C, [(64, 8)], .context, 0x00000000, [⟨31, 31, .ro, .any⟩, ⟨15, 0, .ro, .any⟩]⟩
  , ⟨0x00001400, [(64, 8)], .context, 0x0140A032, [⟨31, 31, .rw, .any⟩, ⟨30, 30, .rw, .any⟩, ⟨29, 29, .rw, .any⟩, ⟨26, 21, .rw, .range 1 50⟩, ⟨20, 11, .rw, .range 2 1023⟩, ⟨10, 0, .rw, .range 1 2047⟩]⟩
  , ⟨0x00001404, [(64, 8)], .context, 0x00000000, [⟨31, 0, .rw, .any⟩]⟩
  , ⟨0x00001408, [(64, 8)], .context, 0x00000000, [⟨31, 31, .rw, .any⟩, ⟨15, 0, .rw, .any⟩]⟩ ]

/-- Part 4 of the register table. -/
def regTable4 : List RegDesc :=
  [ ⟨0x0000140C, [(64, 8)], .context, 0x00000000, [⟨31, 31, .ro, .any⟩, ⟨30, 30, .ro, .any⟩, ⟨29, 29, .w1c, .any⟩, ⟨28, 28, .ro, .any⟩, ⟨27, 26, .ro, .any⟩, ⟨23, 16, .ro, .any⟩]⟩
  , ⟨0x00001410, [(64, 8)], .context, 0x00000000, [⟨31, 0, .ro, .any⟩]⟩
  , ⟨0x00001414, [(64, 8)], .context, 0x00000000, [⟨31, 0, .ro, .any⟩]⟩
  , ⟨0x00001418, [(64, 8)], .context, 0x00000000, [⟨31, 0, .ro, .any⟩]⟩
  , ⟨0x0000141C, [(64, 8)], .context, 0x00000000, [⟨31, 0, .rw, .any⟩]⟩
  , ⟨0x00001420, [(64, 8)], .context, 0x00000000, [⟨31, 31, .wo, .any⟩, ⟨15, 0, .rw, .any⟩]⟩
  , ⟨0x00001424, [(64, 8)], .context, 0x00000000, [⟨31, 24, .rc, .any⟩, ⟨23, 16, .rc, .any⟩, ⟨15, 8, .rc, .any⟩, ⟨7, 0, .rc, .any⟩]⟩
  , ⟨0x00000800, [], .cold, 0x00000000, [⟨31, 16, .wo, .any⟩, ⟨2, 2, .wo, .any⟩, ⟨1, 1, .wo, .any⟩, ⟨0, 0, .wo, .any⟩]⟩
  , ⟨0x00000804, [], .cold, 0x74000000, [⟨31, 29, .ro, .any⟩, ⟨28, 26, .ro, .any⟩, ⟨23, 16, .ro, .any⟩, ⟨15, 8, .ro, .any⟩, ⟨7, 0, .ro, .any⟩]⟩
  , ⟨0x00000808, [], .cold, 0x02580003, [⟨31, 16, .rw, .range 1 65535⟩, ⟨3, 0, .rw, .range 2 15⟩]⟩
  , ⟨0x0000080C, [], .warm, 0x140A0A00, [⟨31, 24, .rw, .range 2 255⟩, ⟨23, 16, .rw, .range 1 255⟩, ⟨15, 8, .rw, .range 1 255⟩]⟩
  , ⟨0x00000810, [], .warm, 0x00000000, [⟨11, 1, .w1c, .any⟩]⟩
  , ⟨0x00000820, [], .cold, 0x00000000, [⟨31, 24, .rc, .any⟩, ⟨15, 12, .ro, .any⟩, ⟨11, 8, .ro, .any⟩, ⟨7, 4, .ro, .any⟩]⟩
  , ⟨0x00000824, [], .cold, 0x00000000, [⟨31, 0, .ro, .any⟩]⟩
  , ⟨0x00300100, [], .warm, 0x00000000, [⟨31, 16, .ro, .any⟩, ⟨15, 4, .ro, .any⟩, ⟨0, 0, .ro, .any⟩]⟩
  , ⟨0x00400000, [], .cold, 0x00000000, [⟨31, 31, .ro, .any⟩, ⟨30, 30, .ro, .any⟩, ⟨29, 29, .w1c, .any⟩, ⟨15, 0, .rc, .any⟩]⟩
  , ⟨0x00400010, [], .warm, 0x00000000, [⟨31, 0, .rw, .any⟩]⟩
  , ⟨0x00400014, [], .warm, 0x04000000, [⟨31, 31, .rw, .any⟩, ⟨27, 24, .rw, .range 4 12⟩, ⟨23, 12, .rw, .any⟩, ⟨11, 0, .rw, .any⟩]⟩
  , ⟨0x00400018, [], .warm, 0x00000000, [⟨31, 0, .rw, .any⟩]⟩
  , ⟨0x0040001C, [], .warm, 0x00000000, [⟨31, 0, .rw, .any⟩]⟩
  , ⟨0x00400020, [], .warm, 0x00000000, [⟨31, 24, .rc, .any⟩, ⟨23, 0, .ro, .any⟩]⟩
  , ⟨0x00200000, [(16, 32)], .warm, 0x00000000, [⟨31, 0, .rw, .any⟩]⟩ ]

/-- Part 5 of the register table. -/
def regTable5 : List RegDesc :=
  [ ⟨0x00200004, [(16, 32)], .warm, 0x00000000, [⟨31, 0, .rw, .any⟩]⟩
  , ⟨0x00200008, [(16, 32)], .warm, 0x00000000, [⟨31, 31, .ro, .any⟩, ⟨30, 30, .ro, .any⟩, ⟨23, 16, .ro, .any⟩, ⟨15, 8, .rc, .any⟩]⟩
  , ⟨0x0020000C, [(16, 8)], .warm, 2, [⟨7, 0, .rw, .any⟩]⟩
  , ⟨0x0020008C, [(16, 8)], .warm, 32, [⟨7, 0, .rw, .any⟩]⟩
  , ⟨0x0020010C, [(16, 8)], .warm, 16, [⟨7, 0, .rw, .any⟩]⟩
  , ⟨0x0020018C, [(16, 8)], .warm, 3, [⟨7, 0, .rw, .any⟩]⟩
  , ⟨0x00100000, [], .cold, 0x00000000, [⟨31, 16, .ro, .any⟩, ⟨8, 8, .ro, .any⟩, ⟨4, 4, .ro, .any⟩, ⟨3, 0, .ro, .any⟩]⟩
  , ⟨0x00100004, [], .cold, 0x00000000, [⟨31, 16, .wo, .any⟩, ⟨1, 1, .wo, .any⟩, ⟨0, 0, .rw, .any⟩]⟩
  , ⟨0x00100008, [], .cold, 0x00000000, [⟨16, 16, .ro, .any⟩, ⟨14, 8, .ro, .any⟩, ⟨6, 0, .ro, .any⟩]⟩
  , ⟨0x0010000C, [], .cold, 0x00000000, [⟨31, 31, .ro, .any⟩, ⟨30, 30, .ro, .any⟩, ⟨29, 29, .w1c, .any⟩, ⟨15, 8, .ro, .any⟩]⟩
  , ⟨0x00101000, [(4, 64)], .cold, 0x00000000, [⟨31, 0, .wo, .any⟩]⟩
  , ⟨0x00300000, [], .cold, 0x0E100E10, [⟨31, 16, .ro, .any⟩, ⟨15, 0, .rw, .capStep⟩]⟩
  , ⟨0x00300004, [], .warm, 0x0E100000, [⟨31, 16, .ro, .any⟩, ⟨3, 3, .ro, .any⟩, ⟨2, 2, .ro, .any⟩, ⟨1, 1, .ro, .any⟩, ⟨0, 0, .ro, .any⟩]⟩
  , ⟨0x00300008, [], .warm, 0x00000000, [⟨31, 16, .ro, .any⟩, ⟨15, 0, .ro, .any⟩]⟩
  , ⟨0x00300010, [(4, 4)], .warm, 0x00000000, [⟨31, 24, .ro, .any⟩, ⟨23, 12, .ro, .any⟩, ⟨11, 0, .ro, .any⟩]⟩
  , ⟨0x00300020, [], .cold, 0x0000005F, [⟨7, 0, .rw, .range 70 100⟩]⟩
  , ⟨0x00300024, [], .cold, 0x00000000, [⟨10, 8, .ro, .any⟩, ⟨2, 0, .ro, .any⟩]⟩
  , ⟨0x00300028, [], .cold, 0x00000000, [⟨15, 8, .rw, .any⟩, ⟨5, 5, .ro, .any⟩, ⟨4, 4, .w1c, .any⟩, ⟨3, 3, .w1c, .any⟩, ⟨2, 2, .w1c, .any⟩, ⟨1, 1, .w1c, .any⟩, ⟨0, 0, .w1c, .any⟩]⟩
  , ⟨0x00000000, [], .cold, 0x4B081536, [⟨31, 0, .ro, .any⟩]⟩
  , ⟨0x00000004, [], .cold, 0x00000100, [⟨15, 8, .ro, .any⟩, ⟨7, 0, .ro, .any⟩]⟩
  , ⟨0x00000008, [], .cold, 0x00000000, [⟨31, 0, .ro, .any⟩]⟩
  , ⟨0x0000000C, [], .cold, 0x00000000, [⟨31, 0, .ro, .any⟩]⟩ ]

/-- Part 6 of the register table. -/
def regTable6 : List RegDesc :=
  [ ⟨0x00000010, [], .cold, 0x000003FF, [⟨31, 31, .ro, .any⟩, ⟨30, 30, .ro, .any⟩, ⟨23, 16, .ro, .any⟩, ⟨9, 8, .ro, .any⟩, ⟨7, 4, .ro, .any⟩, ⟨3, 0, .ro, .any⟩]⟩
  , ⟨0x00000014, [], .cold, 0x0000FFFF, [⟨15, 0, .ro, .any⟩]⟩
  , ⟨0x00000020, [(4, 4)], .cold, 0xFFFFFFFF, [⟨31, 0, .ro, .any⟩]⟩
  , ⟨0x00000030, [(4, 4)], .cold, 0x00BB8F07, [⟨23, 12, .ro, .any⟩, ⟨11, 8, .ro, .any⟩, ⟨2, 0, .ro, .any⟩]⟩ ]

/-- The register index of Tables 16-7 to 16-20 (R451). -/
def regTable : List RegDesc :=
  regTable0 ++ regTable1 ++ regTable2 ++ regTable3 ++ regTable4 ++ regTable5 ++ regTable6

/-- Whether `x` is one of the multiples that the strides reach. -/
def dimsHit : List (Nat × Nat) → Nat → Bool
  | [], x => decide (x = 0)
  | [(st, n)], x => decide (x % st = 0) && decide (x / st < n)
  | (st, n) :: (st2, n2) :: rest, x =>
    -- the strides are listed from the finest to the coarsest
    decide (x % st2 % st = 0) && decide (x % st2 / st < n) && dimsHit ((st2, n2) :: rest) (x / st2 * st2)

/-- The description of the register at offset `off`, if Tables 16-7 to 16-20 list one (R452). -/
def findReg (off : Nat) : Option RegDesc :=
  regTable.find? fun r => decide (r.base ≤ off) && dimsHit r.dims (off - r.base)

/-- Reset value of the register at `off` (R451); an offset that no table lists reads as 0 (R452). -/
def regReset (off : Nat) : BitVec 32 :=
  match findReg off with
  | some r => BitVec.ofNat 32 r.reset
  | none => 0

/-- The reset value of the bits that a field map gives one field, for the same offset. -/
def Acc.readable : Acc → Bool
  | .wo => false
  | _ => true

end Sys2Proof.Machine
end

