-- ==== Sys2Proof/Machine/CoreState.lean ====
section
/-!
DEFINITION. The state of one core and of one compute die: threads (R105, R108), galleys (R75, R159), the matrix engine
(R78, R79), the vector engine (R123, R128), the transfer engine (R157, R161, R163), the range monitor (R95) and the die
cache (R146).
-/

namespace Sys2Proof.Machine

/-- The stored part of a thread's state. WAIT_SB, WAIT_ENG and WAIT_HAZ are functions of the rest of the core (R104). -/
inductive ThrSt where
  | idle | run | waitQ | waitPeek | waitFence | ended | frozen
  deriving DecidableEq, Repr

/-- One thread (R108): its program counter is an LS offset; `arg` is the blocking quoin and `val` its operand in
WAIT_Q, or `arg` is the destination register in WAIT_PEEK. -/
structure Thread where
  st : ThrSt
  pc : Nat
  sreg : Tbl Dword
  arg : Nat
  val : Nat
  deriving DecidableEq, Repr

/-- An XFE→MXE galley entry: the 128-bit word, the issuing thread, and that thread's earlier transfers into the
operand cache that it stays behind (R75). -/
structure MEntry where
  word : Nat
  thread : Nat
  behind : List Nat
  deriving DecidableEq, Repr

/-- A loaded weight bank (R457): the block's OC line, its format, its K256 bit, its bytes (by offset) and its column
sums w_j. -/
structure Bank where
  line : Nat
  fmt : Fmt
  k256 : Bool
  cells : List Host.Cell
  sums : List Nat
  deriving DecidableEq, Repr

/-- A tile in work slot `slot`, 6 or 7 of the ACF (R78): its increments, the check path's E and M, and what a replay and a shadow need. -/
structure Tile where
  grp : Nat
  num : Nat
  thread : Nat
  aLine : Nat
  sumLine : Nat
  rows : Nat
  kused : Nat
  fmtA : Fmt
  bank : Bank
  inc : List Nat
  expect : List Num
  mags : List Num
  shadow : Bool
  slot : Nat
  deriving DecidableEq, Repr

/-- States of a held group (Table 3-4); a FREE group is not listed. `stopped` is a PARKED group that the device parked
at a stop (R220), and that the restore opens again (R223). -/
inductive AgSt where
  | opened | parked | draining | stopped
  deriving DecidableEq, Repr

/-- The code of a group state (MXE_AG_STAT). -/
def AgSt.code : AgSt → Nat
  | .opened => 1 | .parked => 2 | .draining => 3 | .stopped => 2

/-- A held accumulation group: Table 3-5 and its slot's 128 × 128 accumulators. `e` and `mags` hold INT32 codes, or FP32
codes for a floating pair. -/
structure Group where
  id : Nat
  st : AgSt
  slot : Nat
  fmtA : Fmt
  fmtB : Fmt
  z : Nat
  kacc : Nat
  w : List Nat
  e : List Nat
  mags : List Nat
  ovf : Bool
  acc : List Nat
  deriving DecidableEq, Repr

/-- A drain in progress: the next 16-row block it pushes (R81). -/
structure Drain where
  grp : Nat
  tag : Nat
  thread : Nat
  blk : Nat
  suspect : Bool
  deriving DecidableEq, Repr

/-- A shadow tile waiting at the partner (R91), or waiting at the owner for the partner's CRC (R92). -/
structure Shadow where
  owner : Nat
  partner : Nat
  tile : Tile
  crc : Nat
  deriving DecidableEq, Repr

/-- A VXE queue entry with the scalar values read at issue (R113). -/
structure VEntry where
  word : Nat
  thread : Nat
  sa : Nat
  sb : Nat
  sd : Nat
  sn : Nat
  sx : Nat
  deriving DecidableEq, Repr

/-- A monitor counter set (R123); the peaks are FP32 codes, absent before the first element. -/
structure MonSet where
  elem : Nat
  nz : Nat
  sat : Nat
  zl : Nat
  peakP : Option Nat
  peakQ : Option Nat
  deriving DecidableEq, Repr

def MonSet.zero : MonSet := ⟨0, 0, 0, 0, none, none⟩

/-- A transfer descriptor the XFE holds: its number, its chain's first number, the issuing thread, its LS offset, its
eight words, and whether its WQ has been reached (R153, R156). -/
structure Desc where
  id : Nat
  chain : Nat
  thread : Nat
  addr : Nat
  words : List Nat
  ready : Bool
  deriving DecidableEq, Repr

/-- The kinds of XFE request (R161). -/
inductive ReqKind where
  | copy | zero | remoteRead | remoteWrite
  deriving DecidableEq, Repr

/-- One request of a descriptor (R161): at most 2 KiB. `bank` numbers the bank of its memory side, and `bank2` the bank that
a copy from memory to memory writes. -/
structure Req where
  desc : Nat
  kind : ReqKind
  src : Nat
  dst : Nat
  len : Nat
  bank : Nat
  bank2 : Nat
  deriving DecidableEq, Repr

/-- A held request slot, or a wait for one: when the slot was taken, the fabric transfer's number for a remote request,
the bytes read when the slot was taken, when the descriptor issued the request (Table 12-2, detector 3), the lines that the
die cache serves (R147), and since when the request has been in its bank's controller queue (Table 5-8). -/
structure Slot where
  req : Req
  aged : Bool
  since : Nat
  xfer : Nat
  data : List Byte
  issued : Nat
  hit : List Nat
  queued : Option Nat
  deriving DecidableEq, Repr

/-- An active descriptor (R157): the shape it moves (source base, row length, rows), the row and position of its next
request, its first generation sample (R156 step 3), whether a request failed (R252), whether a re-fetch started it
(R164), and whether its generation steps (R156 steps 5 and 6) are done. -/
structure Active where
  d : Desc
  src : Nat
  rowLen : Nat
  rows : Nat
  row : Nat
  pos : Nat
  sample1 : Nat
  failed : Bool
  refetch : Bool
  sampled : Bool
  deriving DecidableEq, Repr

/-- A fill record (R163), keyed by destination space and start line. -/
structure FillRec where
  space : Nat
  line : Nat
  gq : Nat
  sample : Nat
  torn : Bool
  desc : Nat
  deriving DecidableEq, Repr

/-- A generation check that failed once and waits for its re-fetch (R164): `mxe` marks the waiting engine, `since` the
start of the wait. -/
structure Refetch where
  mxe : Bool
  key : Nat
  fill : FillRec
  done : Bool
  since : Nat
  deriving DecidableEq, Repr

/-- An operand block in the OC and the sum block built for it (R74): byte offsets. -/
structure SumRef where
  start : Nat
  len : Nat
  sum : Nat
  deriving DecidableEq, Repr

/-- The architectural state of one core (`chainWait`: chain members not started, without words until read; `lost`:
descriptors ended without completion, R252; `mx`: an entry the matrix engine has taken from its galley and that
waits for its group's tiles, R75, R78) that has no control-space register of its own. `mxeAt`, `vxeAt`, `xfeAt` and
`thrAt` are the last instants at which the matrix engine retired a tile or had none, the vector engine completed an
instruction or had none to work on, the transfer engine landed a request or had none, and each thread issued or was not in RUN (Table 12-2, detectors 1 and 2). -/
structure Core where
  thr : List Thread
  last : Nat
  quoin : Tbl Word
  xm : List MEntry
  mx : Option MEntry
  xv : List Nat
  mv : List Nat
  vx : List Nat
  bank0 : Option Bank
  bank1 : Option Bank
  groups : List Group
  tiles : List Tile
  drains : List Drain
  mxeFrozen : Bool
  mxeMiss : List Nat
  shadowIn : List Shadow
  shadowWait : List Shadow
  shadowBack : List Shadow
  replays : Nat
  vq : List VEntry
  vxeMiss : List Nat
  mon : List MonSet
  xq : List Desc
  act : List Active
  chainWait : List Desc
  lost : List Desc
  slots : List Slot
  waits : List Slot
  fills : List FillRec
  refetch : List Refetch
  nextDesc : Nat
  sums : List SumRef
  stopped : Bool
  started : List Nat
  impDone : Bool
  restored : Bool
  sregUpset : Tbl Nat
  vxeUpset : List Nat
  mxeAt : Nat
  vxeAt : Nat
  xfeAt : Nat
  thrAt : List Nat
  deriving DecidableEq, Repr

def Thread.idle : Thread := ⟨.idle, 0, .empty, 0, 0⟩

/-- A core after a core reset (R358). -/
def Core.reset : Core where
  thr := List.replicate 8 Thread.idle
  last := 7
  quoin := .empty
  xm := []
  mx := none
  xv := []
  mv := []
  vx := []
  bank0 := none
  bank1 := none
  groups := []
  tiles := []
  drains := []
  mxeFrozen := false
  mxeMiss := []
  shadowIn := []
  shadowWait := []
  shadowBack := []
  replays := 0
  vq := []
  vxeMiss := []
  mon := List.replicate 4 MonSet.zero
  xq := []
  act := []
  chainWait := []
  lost := []
  slots := []
  waits := []
  fills := []
  refetch := []
  nextDesc := 0
  sums := []
  stopped := false
  started := []
  impDone := false
  restored := false
  sregUpset := .empty
  vxeUpset := []
  mxeAt := 0
  vxeAt := 0
  xfeAt := 0
  thrAt := List.replicate 8 0

/-- R212: a core with nothing carried over; the mismatch and recompute histories (R94, R133) and undetected upsets are not
state of a step. -/
def Core.blank (k : Core) : Core := { Core.reset with mxeMiss := k.mxeMiss, vxeMiss := k.vxeMiss, vxeUpset := k.vxeUpset }

/-- A range-monitor entry (R95, R101): its counts, the peaks of this step, the peaks kept from the last step, and how
many flushes have arrived since the last clear or retry. -/
structure MonEntry where
  elem : Nat
  nz : Nat
  sat : Nat
  zl : Nat
  peakP : Option Nat
  peakQ : Option Nat
  lastP : Option Nat
  lastQ : Option Nat
  flushes : Nat
  decided : Bool
  deriving DecidableEq, Repr

def MonEntry.zero : MonEntry := ⟨0, 0, 0, 0, none, none, none, none, 0, false⟩

/-- A monitor flush on its way to its home entry (R124). -/
structure Flush where
  core : Nat
  thread : Nat
  entry : Nat
  set : MonSet
  deriving DecidableEq, Repr

/-- A valid die-cache line (Table 5-4). -/
structure DcLine where
  way : Nat
  set : Nat
  tag : Nat
  cls : Nat
  owner : Nat
  next : Nat
  deriving DecidableEq, Repr

/-- A fill of a line still in flight, with the requesting core (R151). -/
structure DcFill where
  line : Nat
  ctx : Nat
  cls : Nat
  next : Nat
  core : Nat
  dead : Bool
  deriving DecidableEq, Repr

/-- One compute die: its die quoins, its range monitor, flushes in flight, its die cache, and its VXE cycle count. -/
structure Die where
  quoin : Tbl Word
  mon : Tbl MonEntry
  flushes : List Flush
  lines : List DcLine
  fills : List DcFill
  cycles : Nat
  deriving DecidableEq, Repr

def Die.reset : Die := ⟨.empty, .empty, [], [], [], 0⟩

end Sys2Proof.Machine
end

