-- ==== Sys2Proof/Machine/FormeState.lean ====
section
/-!
DEFINITION. A proven forme as the module holds it: the records of Tables 6-3 to 6-5, 6-11, 6-12, 6-15, 9-3 to 9-5, 10-3
and 10-4, and the areas that R179 places.
-/

namespace Sys2Proof.Machine

/-- A chase record (Table 6-3). -/
structure ChaseRec where
  ncores : Nat
  place : Nat
  ways : Nat
  mask : Nat
  floorW : Nat
  lsProg : Nat
  lsDesc : Nat
  lsBuf : Nat
  lsSave : Nat
  ocMxe : Nat
  ocSum : Nat
  ocVxe : Nat
  deriving DecidableEq, Repr

def ChaseRec.empty : ChaseRec := ⟨0, 0, 0, 0, 0, 0, 0, 0, 0, 0, 0, 0⟩

/-- Bytes of the local-store layout. -/
def ChaseRec.lsLen (r : ChaseRec) : Nat := r.lsProg + r.lsDesc + r.lsBuf + r.lsSave
/-- Bytes of the operand-cache layout. -/
def ChaseRec.ocLen (r : ChaseRec) : Nat := 64 * (r.ocMxe + r.ocSum + r.ocVxe)

/-- A window (Table 6-4). -/
structure Window where
  base : Nat
  len : Nat
  write : Bool
  deriving DecidableEq, Repr

/-- A region (Table 6-4). -/
structure Region where
  base : Nat
  len : Nat
  cls : Nat
  weights : Bool
  deriving DecidableEq, Repr

/-- A die quoin declaration (Table 6-4). -/
structure QuoinDecl where
  die : Nat
  num : Nat
  remote : Bool
  deriving DecidableEq, Repr

/-- An impression record or retry path (Table 6-5), with its thread-start table: eight entries per core of the chases,
in die and slot order (R177). -/
structure ImpRec where
  wcl : Nat
  slotFirst : Nat
  slotCnt : Nat
  verdict : Bool
  hasRetry : Bool
  retryIdx : Nat
  starts : List Nat
  deriving DecidableEq, Repr

/-- A program record (Table 6-11); `off` is the words' offset in the image. -/
structure ProgRec where
  die : Nat
  slot : Nat
  lsOff : Nat
  off : Nat
  nWords : Nat
  deriving DecidableEq, Repr

/-- A galley record (Table 6-12). -/
structure GalRec where
  die : Nat
  slot : Nat
  xm : Nat
  xv : Nat
  mv : Nat
  vx : Nat
  deriving DecidableEq, Repr

/-- A monitor record (Table 6-15). -/
structure MonRec where
  die : Nat
  entry : Nat
  prod : Nat
  vq : Nat
  srec : Nat
  cmask : Nat
  deriving DecidableEq, Repr

/-- A bucket descriptor (Table 9-4). -/
structure BucketDesc where
  kind : Nat
  hopSched : Nat
  rdx : Nat
  last : Bool
  stats : Bool
  group : Nat
  segBase : Nat
  nblk : Nat
  frames : Nat
  soff : Nat
  src : Nat
  out : Nat
  expt : Nat
  gather : Nat
  cq : Nat
  wq : Nat
  wval : Nat
  deriving DecidableEq, Repr

/-- A slot record (Table 9-5). -/
structure SlotRec where
  start : Nat
  len : Nat
  bucket : Nat
  phase : Nat
  dir : Nat
  hopFirst : Nat
  hopLast : Nat
  port : Nat
  deriving DecidableEq, Repr

/-- The SLOTS section (Table 9-3). -/
structure SlotsSec where
  stageBase : Nat
  stageLen : Nat
  verdict : Nat
  slack : Nat
  stats : Nat
  buckets : List BucketDesc
  slots : List SlotRec
  segs : List (Nat × Nat)
  deriving DecidableEq, Repr

def SlotsSec.empty : SlotsSec := ⟨0, 0, 0, 0, 0, [], [], []⟩

/-- A keep record (Table 10-3). -/
structure KeepRec where
  region : Nat
  mode : Nat
  prod : Nat
  use : Nat
  recomp : Nat
  deriving DecidableEq, Repr

/-- A weight-stream record (Table 10-4). -/
structure StreamRec where
  imp : Nat
  die : Nat
  slot : Nat
  relay : Bool
  feed : Nat
  relayRank : Nat
  cq : Nat
  bw : Nat
  bytes : Nat
  tComp : Nat
  deadline : Nat
  dst : Nat
  src : Nat
  fallback : List (Nat × Nat)
  deriving DecidableEq, Repr

/-- A mesh route and a bridge route (Tables 6-13, 6-14). -/
structure MeshRoute where
  die : Nat
  src : Nat
  dst : Nat
  hops : List Nat
  deriving DecidableEq, Repr

structure BridgeRoute where
  kind : Nat
  src : Nat
  dst : Nat
  via : Nat
  deriving DecidableEq, Repr

/-- A placed area of HBM (R179). -/
structure Area where
  base : Nat
  len : Nat
  deriving DecidableEq, Repr

/-- A proven forme with the resources it holds (R179): its cores by die in chase order, and its areas. -/
structure Forme where
  imgLen : Nat
  training : Bool
  hash : List Byte
  nImp : Nat
  retryRsv : Nat
  floorMhz : Nat
  periodMin : Nat
  periodMax : Nat
  maxWcl : Nat
  chase : List ChaseRec
  cores : List (List Nat)
  windows : List Window
  regions : List Region
  quoins : List QuoinDecl
  landing : Nat
  imps : List ImpRec
  retries : List ImpRec
  progs : List ProgRec
  gals : List GalRec
  mons : List MonRec
  mesh : List MeshRoute
  bridges : List BridgeRoute
  slots : SlotsSec
  keep : List KeepRec
  streams : List StreamRec
  save : List Area
  header : Area
  land : Area
  area : Area
  deriving DecidableEq, Repr

/-- The chase record of die `d`. -/
def Forme.chaseOf (f : Forme) (d : Nat) : ChaseRec := f.chase.getD d ChaseRec.empty

/-- The forme's cores as global numbers, in die and slot order: the chases' core order (R174). -/
def Forme.coreList (f : Forme) : List Nat :=
  ((List.range 4).map fun d => (f.cores.getD d []).map fun c => 32 * d + c).flatten

/-- The slot of global core `g` in its chase. -/
def Forme.slotOf (f : Forme) (g : Nat) : Option Nat :=
  let l := f.cores.getD (g / 32) []
  if l.contains (g % 32) then some (l.idxOf (g % 32)) else none

/-- The galley record of core `g`; depth 64 where there is none (R205). -/
def Forme.galley (f : Forme) (g : Nat) : GalRec :=
  match f.slotOf g with
  | none => ⟨0, 0, 64, 64, 64, 64⟩
  | some s => (f.gals.find? fun r => r.die == g / 32 && r.slot == s).getD ⟨g / 32, s, 64, 64, 64, 64⟩

/-- Whether every byte of [a, a+n) lies in some window, writable when `w`: a range may run through windows that meet
(at most 16 of them, R175). -/
def Forme.covered (f : Forme) (w : Bool) : Nat → Nat → Nat → Bool
  | 0, _, n => n == 0
  | k + 1, a, n =>
    if n = 0 then true
    else match f.windows.find? fun x => decide (x.base ≤ a ∧ a < x.base + x.len) && (x.write || !w) with
      | none => false
      | some x => if a + n ≤ x.base + x.len then true
                  else f.covered w k (x.base + x.len) (a + n - (x.base + x.len))

/-- R158, R216: whether [a, a+n) lies in the windows, all of it writable when `w`. -/
def Forme.inWindow (f : Forme) (w : Bool) (a n : Nat) : Bool := f.covered w 17 a n

end Sys2Proof.Machine
end

