-- ==== Sys2Proof/Machine/CtxState.lean ====
section
/-!
DEFINITION. The state of a context slot that is not a control-space register: its forme, its rings and doorbell page
(R389, R390), its commands (R391), its completion backlog (R397), its admission values (R211), its schedule position
(R198), its pending stop and launch (R213, R219, R223) and its landing buffer (R226).
-/

namespace Sys2Proof.Machine

/-- Why a taken command has not completed yet (R391): it waits for its own row, is held under R26 or R210, waits for
cores (R213), or its action is under way. -/
inductive CmdStage where
  | taken | heldMgmt | heldTransient | waitCores | active
  deriving DecidableEq, Repr

/-- The command a ring has in hand (Table 13-5). -/
structure Cmd where
  opc : Nat
  tag : Nat
  body : List Byte
  stage : CmdStage
  since : Nat
  deriving DecidableEq, Repr

/-- A submission ring (R390): its bytes, the producer and consumer counts, and the command in hand. -/
structure Ring where
  buf : Tbl Byte
  prod : Nat
  cons : Nat
  cur : Option Cmd
  deriving DecidableEq, Repr

def Ring.empty : Ring := ⟨.empty, 0, 0, none⟩

/-- A completion or step record before its PHASE is known (Table 13-7). -/
structure Rec where
  kind : Nat
  opc : Nat
  ring : Nat
  status : Nat
  tag : Nat
  step : Nat
  detail : Nat
  sflags : Nat
  tick : Nat
  value : Nat
  deriving DecidableEq, Repr

/-- Steps that one RUN_STEPS supplied and that have not started (R395). -/
structure StepCount where
  ring : Nat
  tag : Nat
  left : Nat
  deriving DecidableEq, Repr

/-- What a landing-buffer entry holds (R225): a write, a read response, an acknowledgement; or the end of a request that
no cell brought (R252), which takes no room. -/
inductive LandKind where
  | write | readData | ack | ended
  deriving DecidableEq, Repr

/-- A landing-buffer entry (R225, R226): the core it is for, and its payload. -/
structure LandEntry where
  kind : LandKind
  core : Nat
  addr : Nat
  data : List Byte
  xfer : Nat
  deriving DecidableEq, Repr

/-- A launch that waits for its cores or its tick (R209, R213, R223). -/
structure Launch where
  restore : Bool
  ring : Nat
  atTick : Option Nat
  since : Nat
  deriving DecidableEq, Repr

/-- A pending stop: of a PREEMPT with its tick, none meaning the next tick (R219), or of a SAVE (R209). -/
structure Stop where
  preempt : Option (Option Nat)
  save : Bool
  deriving DecidableEq, Repr

/-- The schedule position kept in the context header (R222). -/
structure Pos where
  inStep : Bool
  imp : Nat
  retry : Bool
  deriving DecidableEq, Repr

/-- A running weight stream (R322): its record's index, the next byte that a head reads, bytes landed by unit, units
forwarded, the time it started, whether its missing units have been pulled (R323), and whether it has failed. -/
structure Stream where
  idx : Nat
  cursor : Nat
  got : Tbl Nat
  forwarded : List Nat
  startedAt : Nat
  late : Bool
  failed : Bool
  deriving DecidableEq, Repr

/-- One core's image in the save area while the context is saved (Table 7-6): the small state, its memory being in the
save area's bytes. `key` names the small-state bytes that its digest was taken over, where this module wrote them (R233). -/
structure SavedCore (κ : Type) where
  core : Nat
  small : κ
  key : Option Nat
  deriving DecidableEq, Repr

end Sys2Proof.Machine
end

