-- ==== Sys2Proof/Machine/FabricState.lean ====
section
/-!
DEFINITION. The state of the fabric that is not a control-space register: port links (R240 to R242), the peer table
(R247), outstanding requests (R246, R251), membership parts (R259), and the state of the collectives (Table 9-1), the
imposition (Table 10-1), the background tasks (Table 11-5) and recovery orders (Table 11-7) of one context.
-/

namespace Sys2Proof.Machine

/-- A frame in a replay buffer (R241): its LSEQ, its class, its cell, its transmissions, and the CREDIT it carries (R242). -/
structure Frame where
  lseq : Nat
  tc : Nat
  cell : List Byte
  tries : Nat
  credit : Nat
  deriving DecidableEq, Repr

/-- The link state of one port: next LSEQ to send and to expect, whether a NAK is unanswered (R240), frames accepted
since the last ACK, credits held and to be returned by class (R242), frames that wait for a credit, the replay buffer,
retrains made since the failure (R238) and when the state was entered, the state held through a warm reset (R239), the
uncorrectable codewords of the present second (R243), the cells accepted and not yet taken, when the 4 µs without an
acknowledgement began (R241), and the roles that the port has lost by failing (R238). -/
structure Link where
  txSeq : Nat
  rxSeq : Nat
  nakked : Bool
  owed : Nat
  credits : List Nat
  give : List Nat
  waiting : List (Nat × List Byte)
  replay : List Frame
  retrains : Nat
  failedOnce : Bool
  failedAt : Nat
  heldAs : Nat
  uncMark : Nat
  uncAt : Nat
  rxq : List (List Byte)
  quietAt : Nat
  lostRoles : List Nat
  deriving DecidableEq, Repr

def Link.reset : Link :=
  ⟨0, 0, false, 0, List.replicate 8 128, List.replicate 8 0, [], [], 0, false, 0, 0, 0, 0, [], 0, []⟩

/-- A link that is down: its frames and credits are gone; the cells accepted, and what R238 and R243 count, stay. -/
def Link.down (l : Link) : Link :=
  { Link.reset with
    retrains := l.retrains, failedOnce := l.failedOnce, failedAt := l.failedAt, uncMark := l.uncMark, uncAt := l.uncAt
    rxq := l.rxq, lostRoles := l.lostRoles }

/-- The transmit side of a flow (R247): SEQ, whether the next cell carries RESYNC, and the next UPD_ID. -/
structure TxFlow where
  seq : Nat
  resync : Bool
  upd : Nat
  deriving DecidableEq, Repr

/-- A request whose cells are arriving: the first refusal met (0 none), whether a cell of it was dropped, and its bytes. -/
structure RxReq where
  status : Nat
  broken : Bool
  addr : Nat
  data : List Byte
  deriving DecidableEq, Repr

/-- The receive side of a flow (R247). -/
structure RxFlow where
  seq : Nat
  resync : Bool
  upd : Option Nat
  req : Option RxReq
  deriving DecidableEq, Repr

/-- The state of a peer entry (R247). -/
inductive PeerSt where
  | valid | left | evicted
  deriving DecidableEq, Repr

/-- A peer-table entry: fabric address, state, and its flows by traffic class. -/
structure Peer where
  fab : Nat
  st : PeerSt
  tx : Tbl TxFlow
  rx : Tbl RxFlow
  deriving DecidableEq, Repr

/-- Who sent a request, and so what its end completes. -/
inductive Owner where
  | quoin
  | desc (core desc dst : Nat)
  | unit (ctx bucket seg dir phase first n : Nat) (last missing : Bool)
  | refetch (ctx bucket seg dir unit rank : Nat)
  | stream (ctx idx unit : Nat)
  | pull (ctx idx unit rank : Nat)
  | task (ctx kind : Nat)
  | repair (ctx : Nat)
  | recover (ctx part : Nat)
  deriving DecidableEq, Repr

/-- The kinds of request (R246). -/
inductive XKind where
  | write | read | bucket | qupd
  deriving DecidableEq, Repr

/-- An outstanding request: its sender's context, the context it addresses, its class, the address it lands at or reads,
its bytes or its return address and length, its first SEQ and its number of cells, whether it has been re-sent (R251),
its BUSY state (R228), when it was last sent, and the bytes that READ_DATA has brought. -/
structure Xfer where
  id : Nat
  fab : Nat
  tc : Nat
  ctx : Nat
  dctx : Nat
  kind : XKind
  addr : Nat
  data : List Byte
  ret : Nat
  len : Nat
  owner : Owner
  seq : Nat
  cells : Nat
  resent : Bool
  busy : Bool
  busySince : Option Nat
  sentAt : Nat
  got : List Byte
  deriving DecidableEq, Repr

/-- How a request ended (R218, R232, R246, R252). -/
inductive XEnd where
  | ok | failed | window | noContext
  deriving DecidableEq, Repr

/-- A committed routing entry (R253, R254). -/
structure Route where
  valid : Bool
  len : Nat
  prefx : Nat
  mask : Nat
  deriving DecidableEq, Repr

/-- A MEMBERSHIP part held until its epoch is whole (R259). -/
structure MembPart where
  epoch : Nat
  part : Nat
  more : Bool
  removed : List Nat
  added : List Nat
  deriving DecidableEq, Repr

/-- The slip lists of one tick as received (R257): source, tick, target time, groups, and whether the list is whole. -/
structure TickList where
  src : Nat
  tick : Nat
  target : Nat
  groups : List Nat
  whole : Bool
  deriving DecidableEq, Repr

/-- The tick unit's state outside its registers: the slip lists received, a master's requests by tick and group, the tick
whose list is closed and the tick whose cutoff is done, followers with the tick of their last DELAY_REQ (R257), the pending
change of R192 (tick, P, T_CUT), the run of good cells (R190), the start of the holdover, the module's own groups that slip
without a master (R201), one-way delays in ns by port, the last DELAY_REQ (time and port), the times of the last whole
primary and standby cells, and the target of the next tick in ns (0 for none). A gathered request is (tick, group, flags),
and one of `alone` (group, flags), the flags of Table 8-5 (RETRY, OVERRUN) merged; `delayPorts` are the masters' ports at the
last DELAY_REQ. -/
structure TickUnit where
  lists : List TickList
  gather : List (Nat × Nat × Nat)
  closed : Nat
  cut : Nat
  followers : List (Nat × Nat)
  change : Option (Nat × Nat × Nat)
  good : Nat
  hold : Nat
  alone : List (Nat × Nat)
  delays : Tbl Int
  delayAt : Option Nat
  delayPorts : List (Option Nat)
  lastAt : Nat
  stbAt : Nat
  nextNs : Nat
  deriving DecidableEq, Repr

def TickUnit.reset : TickUnit := ⟨[], [], 0, 0, [], none, 0, 0, [], .empty, none, [], 0, 0, 0⟩

/-! ### Imposition -/

/-- An imposition (Table 10-1), its tables parsed; the implicit one (R309) names no forme and no rank map. -/
structure Imposition where
  iepoch : Nat
  self : Nat
  m : Nat
  stages : Nat
  auto : Bool
  dims : List Nat
  perMb : Nat
  mbMin : Nat
  mbMax : Nat
  totMin : Nat
  totMax : Nat
  ranks : List Nat
  mb : List Nat
  groups : List (List Nat)
  segs : List (Nat × Nat)
  hash : Option (List Byte)
  mbOff : Nat
  image : List Byte
  rmap : Option Nat
  deriving DecidableEq, Repr

/-- A SET_IMPOSITION that has passed its checks and is pending (R311), with the ring of its command; `held` says that its
boundary came while an epoch drain held it (R300). -/
structure PendImp where
  imp : Imposition
  effective : Nat
  ring : Nat
  held : Bool
  deriving DecidableEq, Repr

/-! ### Collectives -/

/-- Bucket states (Table 9-1). -/
inductive BSt where
  | waiting | reduce | gather | done | invalid | abandoned | discarded
  deriving DecidableEq, Repr

/-- Trailer fields of a segment in one direction (Table 9-6). -/
structure Trailer where
  flags : Nat
  origin : Nat
  slackRank : Nat
  slack : Nat
  ssLocal : Nat
  ssRed : Nat
  deriving DecidableEq, Repr

/-- The trailer of every unit but a segment's last (R278). -/
def Trailer.zero : Trailer := ⟨0, 0xFFFF, 0, 0, 0, 0⟩

/-- Work on one segment in one direction: blocks packed and not yet sent with the segment index of the first, the
trailer formed so far, this member's own squared norm, whether its reduce operation is done, the units it has written
or received in gather, the blocks gathered, and whether the gather trailer has come. -/
structure SegWork where
  seg : Nat
  dir : Nat
  pack : List (Block × Nat)
  first : Nat
  trailer : Trailer
  norm : Nat
  reduced : Bool
  level : Nat
  units : Nat
  ranges : List (Nat × Nat)
  whole : Bool
  deriving DecidableEq, Repr

/-- Where a unit in a frame comes from: its predecessor, this member itself as the owner, or a re-fetch (R290). -/
inductive UnitSrc where
  | arrived | own | fetched
  deriving DecidableEq, Repr

/-- A unit waiting in a frame: its address, its length, its source and its header, which the engine keeps from the unit's
admission, as a segment without blocks shares its frame with the next (R280). -/
structure UnitIn where
  addr : Nat
  len : Nat
  src : UnitSrc
  head : List Byte
  deriving DecidableEq, Repr

/-- A bucket on this member: its state, its reduce units sent by direction, its segments' work, a tree's partial sums,
the OBS of decoded blocks, which events it has raised, and the time of its last progress (R291). -/
structure Bucket where
  idx : Nat
  iepoch : Nat
  step : Nat
  st : BSt
  bad : Bool
  incomplete : Bool
  sent0 : Nat
  sent1 : Nat
  work : List SegWork
  part : Tbl (Block × Nat)
  obs : Tbl Nat
  events : List Nat
  progress : Nat
  deriving DecidableEq, Repr

/-- The old imposition of an epoch drain (R298). -/
structure Drained where
  imp : Imposition
  segs : List (Nat × Nat)
  deriving DecidableEq, Repr

/-- One noise average and monitor state (R302, R325). -/
structure Averages where
  g2 : Nat
  s : Nat
  updates : Nat
  seen : Bool
  mu : Nat
  v : Nat
  n : Nat
  deriving DecidableEq, Repr

def Averages.zero : Averages := ⟨0, 0, 0, false, 0, 0, 0⟩

/-- A background task's source of bytes. -/
inductive Src where
  | lit (b : List Byte)
  | mem (addr len : Nat)
  deriving DecidableEq, Repr

/-- A write a task has to make: peer, address there, and bytes. -/
structure Piece where
  fab : Nat
  dst : Nat
  src : Src
  deriving DecidableEq, Repr

/-- Background tasks (Table 11-5), and the copy of a migration (R229). -/
inductive TaskKind where
  | mirror | parityRead | parity | fp | migrate
  deriving DecidableEq, Repr

def TaskKind.code : TaskKind → Nat
  | .mirror => 0 | .parityRead => 1 | .parity => 2 | .fp => 3 | .migrate => 4

/-- A running task: its generation, the pieces still to send, all of them (for R343), its failures, and whether a
request of it is outstanding. -/
structure Task where
  kind : TaskKind
  gen : Nat
  todo : List Piece
  pieces : List Piece
  fails : Nat
  out : Bool
  deriving DecidableEq, Repr

/-- A RECOVER order under way (R351): what it wants, the source it tries, the extents, what it has pulled so far. -/
structure Order where
  addr : Nat
  srcs : Nat
  rank : Nat
  gen : Nat
  wasLive : Bool
  source : Nat
  fallback : Bool
  want : Nat
  heads : Tbl (List Byte)
  frags : Tbl (List Byte)
  data : List Byte
  result : Option Nat
  deriving DecidableEq, Repr

/-- A fingerprint repair under way (R333): extents left, and the position within the first. -/
structure Repair where
  fab : Nat
  left : List (Nat × Nat)
  deriving DecidableEq, Repr

/-- How far the work of the step boundary at which the context stands has come (R336, R338): none of it, what this module's
boundary leaves to the target of a migration, or all of it. -/
inductive BoundWork where
  | fresh | moved | done
  deriving DecidableEq, Repr

/-- The collective, training and resilience state of one context; `impAts` are the times at which the step's impressions
started (R276), and `bound` is the work of the boundary since the last step (R336, R338). -/
structure Coll where
  imp : Option Imposition
  segs : List (Nat × Nat)
  pend : Option PendImp
  drain : Option Drained
  buckets : List Bucket
  frames : List UnitIn
  verdict : Option (Nat × Nat)
  lastStarted : Bool
  slack : Nat
  gathering : Bool
  impAts : List Nat
  avg : Averages
  nf : List Nat
  table : List Byte
  tasks : List Task
  tasksOff : Bool
  bound : BoundWork
  order : Option Order
  repair : Option Repair
  fpWrote : Option Nat
  gateTold : Bool
  lost : Bool
  weights : Bool
  carry : Nat
  sent : Nat
  told : List Nat
  inForce : Tbl Nat
  rerun : Bool
  deriving DecidableEq, Repr

def Coll.zero : Coll where
  imp := none
  segs := []
  pend := none
  drain := none
  buckets := []
  frames := []
  verdict := none
  lastStarted := false
  slack := 0
  gathering := false
  impAts := []
  avg := .zero
  nf := List.replicate 6 0
  table := []
  tasks := []
  tasksOff := false
  bound := .fresh
  order := none
  repair := none
  fpWrote := none
  gateTold := false
  lost := false
  weights := false
  carry := 0
  sent := 0
  told := []
  inForce := .empty
  rerun := false

end Sys2Proof.Machine
end

