-- ==== Sys2Proof/Machine/HostState.lean ====
section
/-!
DEFINITION. The state of the management domain that is not a control-space register: the host port (R379 to R399), the
mailbox claims (R402), resets and colophons (R358 to R377), start-up and trust (R404 to R419), power and the sideband
(R422 to R439).
-/

namespace Sys2Proof.Machine

/-! ### What the module sends -/

/-- Where something the module sends goes: a fabric port's cell or control word, a host datagram or RoCE packet, an SPDM,
MCTP, PLDM or I3C answer, a pin, or the word a control-space read gives its initiator (and a mailbox interrupt). -/
inductive Chan where
  | cell | word | ether | roce | spdm | mctp | pldm | i3c | pin | bus
  deriving DecidableEq, Repr

/-- One thing the module has sent: its channel, the port or unit, and its bytes. -/
structure Out where
  chan : Chan
  unit : Nat
  data : List Byte
  deriving DecidableEq, Repr

/-! ### The host port -/

/-- What a request that the module has sent over a queue pair is for: a completion record, an event record, the result
of a QUERY (with the completion's VALUE), a forme image, or an image that is no longer wanted, with the bytes still to come. -/
inductive QOwn (ρ ε : Type) where
  | record (ctx : Nat) (r : ρ)
  | event (e : ε)
  | query (ctx ring size : Nat)
  | image (ctx ring : Nat)
  | gone (rest : Nat)
  deriving DecidableEq, Repr

/-- A request of the module that its peer has not acknowledged: its first PSN and number of PSNs, whether it is an RDMA
READ, its address, R_Key, length and bytes. -/
structure QReq (ρ ε : Type) where
  psn : Nat
  n : Nat
  read : Bool
  vaddr : Nat
  rkey : Nat
  len : Nat
  data : List Byte
  own : QOwn ρ ε
  deriving DecidableEq, Repr

/-- A queue pair (R385): kind 0 management, 1 command; its R_Key; its next PSN; its unacknowledged requests; the time of
its last progress and its retries (R388); its send rate in 2^-64 b/s, and the times of its last CNP sent, of its last cut
of its last rise (R381), and the count of messages it has executed, its acknowledgements' MSN. -/
structure Qp (ρ ε : Type) where
  num : Nat
  kind : Nat
  ctx : Nat
  hostQpn : Nat
  hostPsn : Nat
  gid : List Byte
  mtu : Nat
  rkey : Nat
  err : Bool
  psn : Nat
  sent : List (QReq ρ ε)
  since : Nat
  tries : Nat
  rate : Nat
  cnpAt : Option Nat
  cutAt : Option Nat
  riseAt : Nat
  msn : Nat
  deriving DecidableEq, Repr

/-- The host-port configuration record (R379) and the fabric values of R455 in the flash configuration store. -/
structure HostCfg where
  vlan : Option Nat
  dataPrio : Nat
  dscp : List Nat
  mgmtPort : Nat
  ip6 : List Byte
  link6 : List Byte
  ip4 : List Byte
  mac : List Byte
  allow : List (List Byte × Nat)
  mgrAddr : List Byte
  fabSelf : Nat
  fabMgr : Option Nat
  spare : List (Option Bool)
  portOff : List Bool
  deriving DecidableEq, Repr

/-- R379, Table 13-1: the defaults of a record that gives nothing else. -/
def HostCfg.empty : HostCfg :=
  ⟨none, 3, List.replicate 8 0, 49851, [], [], [], [], [], [], 0, none, List.replicate 48 none, List.replicate 48 false⟩

/-! ### Reset and colophon -/

/-- What a detection or an order asks for (Table 12-2, R366, R368). -/
inductive ResetAct where
  | ctxDown (c : Nat)
  | core (g : Nat)
  | die (d : Nat)
  | warm
  | oos
  | cold
  deriving DecidableEq, Repr

/-- How large a reset is (R367). -/
def ResetAct.size : ResetAct → Nat
  | .ctxDown _ => 0 | .core _ => 1 | .die _ => 2 | .warm => 3 | .oos => 4 | .cold => 5

/-- The TARGET of a colophon header (Table 12-6). -/
def ResetAct.target : ResetAct → Nat
  | .ctxDown c => c | .core g => g | .die d => d | _ => 0

/-- A record of the colophon (Table 12-6): what its header and its first sections hold. `snap` is the state that the capture
has read for the sections whose layout is internal (Table 12-5), none until it ends; `stamp` numbers the capture. -/
structure ColRec (ε σ : Type) where
  full : Bool
  flags : Nat
  seq : Nat
  detectors : Nat
  domain : Nat
  target : Nat
  restarts : Nat
  captureUs : Nat
  wall : Nat
  tick : Nat
  epoch : Nat
  unreach : List Nat
  fwHash : List Byte
  sectMask : Nat
  events : List ε
  stamp : Nat
  snap : Option σ
  deriving DecidableEq, Repr

/-- A slot of the flash colophon area that has been written (R375): the record, whether its header has been written after its
body, and whether its CRC holds. -/
structure FlashSlot (ε σ : Type) where
  record : ColRec ε σ
  header : Bool
  crcOk : Bool
  deriving DecidableEq, Repr

/-- A persist under way (R375 to R377): the colophon RAM slot, the flash slot whose body is being written, whether the record is
written in full, and whether the energy is to be measured again, the input having left its range. -/
structure Persist where
  slot : Nat
  flash : Nat
  full : Bool
  again : Bool
  deriving DecidableEq, Repr

/-- A capture under way (R371, R372): the reset that waits for it, its record so far, its slot (none when dropped,
R373), and when it began. -/
structure Capture (ε σ : Type) where
  act : ResetAct
  record : ColRec ε σ
  slot : Option Nat
  since : Nat
  deriving DecidableEq, Repr

/-- Where the module is in its life (R404 to R413, Table 12-3): off, held in reset by MOD_RESET_N, in network recovery, started
and not yet READY, in service, in a warm reset whose image is not verified yet, recovering from it with its firmware running, or
out of service. -/
inductive Phase where
  | off | held | network | starting | ready | resetting | recovering | out
  deriving DecidableEq, Repr

/-- A step of network recovery (R413). -/
inductive NetStep where
  | solicit | request | readReq | data | retry
  deriving DecidableEq, Repr

/-- Network recovery: its step, the DHCPv6 interval in ms, when it last sent, the transaction's number, the DHCPv6
server's identifier, the file's path, the block size, the next block, the repeats made, the bytes received, the file server's
IPv6 address, and when the DHCPv6 exchange in progress began. -/
structure Net where
  step : NetStep
  interval : Nat
  since : Nat
  xid : Nat
  server : List Byte
  url : List Byte
  blksize : Nat
  block : Nat
  repeats : Nat
  got : List Byte
  addr : List Byte
  began : Nat
  deriving DecidableEq, Repr

/-- Resets under way and their history: the capture that a reset waits for, the resets applied with their starts, the
orders that wait for the running capture with their detectors (R367), the times of warm decisions (R365), the last of
them, the detector of the last order, the slot of the record captured for the present warm recovery (R363), the colophon RAM (R373), the flash slots (R375) and
the next of them, the persist under way, when the energy was last measured for each record in RAM (0 for never), when the bank
capacitance was (R376), and when the last of the management cores fell silent. -/
structure Resets (ε σ : Type) where
  capture : Option (Capture ε σ)
  running : List (ResetAct × Nat)
  waiting : List (ResetAct × Nat)
  warmAt : List Nat
  decided : Nat
  lastDet : Nat
  recSlot : Option Nat
  ram : List (Option (ColRec ε σ))
  flash : List (Option (FlashSlot ε σ))
  nextFlash : Nat
  persist : Option Persist
  measuredAt : List Nat
  capAt : Nat
  silentAt : Nat
  deriving DecidableEq, Repr

def Resets.zero {ε σ : Type} : Resets ε σ :=
  ⟨none, [], [], [], 0, 0, none, List.replicate 4 none, List.replicate 32 none, 0, none, List.replicate 4 0, 0, 0⟩

/-! ### Trust -/

/-- The SPDM state of one transport (R416): whether GET_VERSION, GET_CAPABILITIES and NEGOTIATE_ALGORITHMS have been
answered, and the transcripts of those, of the certificate exchange and of the measurements. -/
structure Spdm where
  ver : Bool
  caps : Bool
  algs : Bool
  vca : List Byte
  certs : List Byte
  meas : List Byte
  deriving DecidableEq, Repr

def Spdm.zero : Spdm := ⟨false, false, false, [], [], []⟩

/-- One copy of the configuration store (R407): its SEQ, whether its CRC-64 holds, the host-port record and the fabric values,
the certificates of R415 and the key table of R419. -/
structure StoreCopy where
  seq : Nat
  crcOk : Bool
  cfg : HostCfg
  certs : List (List Byte)
  ownerKey : Option (List Byte)
  keys : List (Option (List Byte))
  required : Bool
  keySeq : Nat
  deriving DecidableEq, Repr

/-- A copy that was never written. -/
def StoreCopy.blank : StoreCopy := ⟨0, false, .empty, [], none, List.replicate 8 none, false, 0⟩

/-- The fuses, the flash image and the configuration store's trust values (R407 to R419), and what the boot ROM and the
SEC hold of them: `store` has the store's two copies, `udsOff` says that the UDS reads as zero, `idKey` and
`aliasKey` are the private scalars that the SEC has derived (R414), and `aliasCert` is the certificate it has issued (R415). -/
structure Sec where
  rootHash0 : List Byte
  rootHash1 : List Byte
  revoked : Bool
  svn : Nat
  uds : List Byte
  mac : List Byte
  serial : Nat
  provId : List Byte
  romHash : List Byte
  flashOk : Bool
  image : List Byte
  certs : List (List Byte)
  ownerKey : Option (List Byte)
  keys : List (Option (List Byte))
  required : Bool
  keySeq : Nat
  colSeq : Nat
  store : List StoreCopy
  udsOff : Bool
  idKey : Nat
  aliasKey : Nat
  aliasCert : List Byte
  fwHash : List Byte
  commit : Bool
  revoke : Bool
  netEvents : List Nat
  net : Option Net
  spdm : List Spdm
  deriving DecidableEq, Repr

def Sec.blank : Sec :=
  ⟨[], [], false, 0, [], [], 0, [], [], true, [], [], none, List.replicate 8 none, false, 0, 0,
    List.replicate 2 .blank, false, 0, 0, [], [], false, false, [], none,
    [.zero, .zero]⟩

/-! ### Power and sideband -/

/-- A filtered input (R431, R432): its filtered level, the end of its window, the times of the changes of the last second, the
time of the last one, the accepted level, and whether it is faulty. PWR_PIN_STAT shows the last two. -/
structure Pin where
  level : Bool
  window : Option Nat
  changes : List Nat
  lastAt : Nat
  accepted : Bool
  faulty : Bool
  deriving DecidableEq, Repr

/-- An input that has been low all along. -/
def Pin.low : Pin := ⟨false, none, [], 0, false, false⟩

/-- The supply rails of Table 1-4 besides VDD_MGT: VDD_CD0 to VDD_CD3 in mV (0 while removed), VDD_ED0 and VDD_ED1, the
supplies of H0 to H11, and those of the LPDDR5X devices of each edge die. -/
structure Rails where
  cd : List Nat
  ed : List Bool
  hbm : List Bool
  lpx : List Bool
  deriving DecidableEq, Repr

/-- Every rail removed. -/
def Rails.off : Rails := ⟨List.replicate 4 0, List.replicate 2 false, List.replicate 12 false, List.replicate 2 false⟩

/-- Every rail up, the compute dies at the 0.70 V of Table 1-4. -/
def Rails.up : Rails := ⟨List.replicate 4 700, List.replicate 2 true, List.replicate 12 true, List.replicate 2 true⟩

/-- Sensors and timers of PWR: input current (10 mA), edge-die junctions and stack temperatures, the dies held in reset
by a trip, the dies and stacks above a limit, the time a cap request was made, of the last CAP_UNMET event, of the last
step of the power manager, of the last limiter step, of the last FLOOR_POWER_EXCEEDED, of the accepted assertion of
THROTTLE_N and whether its 10 s event was raised, the time of the last sensor sample, whether the input has left its range
(R423) and has not returned, whether VDD_MGT is in regulation, ALERT_N (true while driven low), PGOOD, the three filtered
inputs PWR_EN, MOD_RESET_N, THROTTLE_N, the other supply rails, the dies' clocks before THROTTLE_N was asserted, whether
PWR_EN ordered the power-down under way (R433), and the cores found absent, which are powered down (R449). -/
structure Power where
  iin : Nat
  edgeTj : List Nat
  stackT : List Nat
  tripped : List Nat
  hot : List Nat
  capAt : Option Nat
  unmetAt : Option Nat
  stepAt : Nat
  limitAt : Nat
  floorAt : Nat
  throttleAt : Nat
  throttleTold : Bool
  thermAt : Nat
  bad : Bool
  mgt : Bool
  alert : Bool
  pgood : Bool
  pins : List Pin
  rails : Rails
  freeMhz : List Nat
  byPin : Bool
  coresOff : List Nat
  deriving DecidableEq, Repr

def Power.zero : Power :=
  ⟨0, [0, 0], List.replicate 12 0, [], [], none, none, 0, 0, 0, 0, false, 0, false, false, false, false,
    List.replicate 3 Pin.low, Rails.off, List.replicate 4 0, false, []⟩

/-- The I3C target (R437), its MCTP endpoint (R438) and its PLDM terminus (R439): dynamic address, event enable, maximum
write and read lengths, endpoint identifier, TID. -/
structure Sideband where
  dyn : Option Nat
  ibi : Bool
  mwl : Nat
  mrl : Nat
  eid : Nat
  tid : Nat
  deriving DecidableEq, Repr

def Sideband.zero : Sideband := ⟨none, true, 0, 0, 0, 0⟩

/-- The host port and the mailboxes: queue pairs, configuration, records written to the event ring, the heartbeat's
sequence number and its last time, wall time (a base, and when it was set), the time until which each priority is paused,
what waits for that with its priority, the number of PTP's next delay request, and the mailbox claim times. -/
structure Hpt (ρ ε : Type) where
  qps : List (Qp ρ ε)
  cfg : HostCfg
  erK : Nat
  hbSeq : Nat
  hbAt : Nat
  wall : Nat
  wallAt : Nat
  paused : List Nat
  held : List (Nat × Out)
  ptpSeq : Nat
  claims : Tbl Nat
  deriving DecidableEq, Repr

def Hpt.zero {ρ ε : Type} : Hpt ρ ε := ⟨[], .empty, 0, 0, 0, 0, 0, List.replicate 8 0, [], 0, .empty⟩

end Sys2Proof.Machine
end

