-- ==== Sys2Proof/Machine/State.lean ====
section
/-!
DEFINITION. The whole state of one KW8-1536L module, and the state after reset. Every control-space register has one
home, `regs`, keyed by its offset (Tables 16-7 to 16-20); what the spec gives besides registers stands in the other
fields.
-/

namespace Sys2Proof.Machine

/-- A forme image on its way in (R178, R393): the ring of its LOAD_FORME, the bytes delivered and wanted, and its place
in the order in which the commands arrived. -/
structure Loading where
  ring : Nat
  image : List Byte
  want : Nat
  complete : Bool
  seq : Nat
  deriving DecidableEq, Repr

/-- A context slot. `unfit` holds its forme back after a change of the tick parameters that does not suit it (R193);
`migIn` says that a migration's copy into it is whole (R229); `retried` are the retry paths that the step has started, with
their times (R276); `slipping` says that the tick in force is a slip of its group, and `slipEnd` when its last one ended (R291);
`busyTold` that the stop under way has raised its busy event (R226). -/
structure Ctx where
  forme : Option Forme
  loading : Option Loading
  rings : List Ring
  lastRing : Nat
  crAddr : Nat
  crRkey : Nat
  crCfg : Nat
  crCi : Nat
  crK : Nat
  crQp : Option Nat
  backlog : List Rec
  backlogFull : Bool
  srSeed : Nat
  step : Nat
  counts : List StepCount
  stepRing : Nat
  stepTag : Nat
  pos : Pos
  retryLeft : Nat
  retryWant : Bool
  overrun : Bool
  slipTicks : Nat
  ran : Bool
  launchAt : Nat
  launch : Option Launch
  stop : Option Stop
  stopAt : Nat
  saved : List (SavedCore Core)
  landing : List LandEntry
  suspect : Bool
  rangeFlag : Bool
  outcome : Nat
  faultStop : Bool
  tearing : Option Nat
  posted : Bool
  unfit : Bool
  migIn : Bool
  retried : List (Nat × Nat)
  slipping : Bool
  slipEnd : Nat
  busyTold : Bool
  streams : List Stream
  coll : Coll
  deriving DecidableEq, Repr

def Ctx.reset : Ctx where
  forme := none
  loading := none
  rings := List.replicate 4 Ring.empty
  lastRing := 3
  crAddr := 0
  crRkey := 0
  crCfg := 0
  crCi := 0
  crK := 0
  crQp := none
  backlog := []
  backlogFull := false
  srSeed := 0
  step := 0
  counts := []
  stepRing := 0
  stepTag := 0
  pos := ⟨false, 0, false⟩
  retryLeft := 0
  retryWant := false
  overrun := false
  slipTicks := 0
  ran := false
  launchAt := 0
  launch := none
  stop := none
  stopAt := 0
  saved := []
  landing := []
  suspect := false
  rangeFlag := false
  outcome := 0
  faultStop := false
  tearing := none
  posted := false
  unfit := false
  migIn := false
  retried := []
  slipping := false
  slipEnd := 0
  busyTold := false
  streams := []
  coll := .zero

/-- What a migration's context header tells its target (R229, R317): the forme's HASH, the context with its counts, landing
buffer, imposition, averages, buckets and core states, CTX_CFG, CTX_IMP, the die quoins in the forme's order, and the last
B_noise. -/
structure Migrant where
  hash : List Byte
  ctx : Ctx
  cfg : Nat
  imp : Nat
  quoins : List Nat
  bnoise : Nat
  deriving DecidableEq, Repr

/-- An event record in the queue (Table 13-9), its PHASE not yet known. -/
structure Event where
  code : Nat
  ctx : Option Nat
  seq : Nat
  tick : Nat
  unit : Nat
  data : List Nat
  deriving DecidableEq, Repr

/-- Why the machine stops with a fault. No command of the KW8 has that effect: every failure of the module is an
effect on its state. The one constructor is raised by nothing. -/
inductive Fault where
  /-- Raised by no meaning. Safe. -/
  | none
  deriving DecidableEq, Repr

/-- Why a command has no meaning here. -/
inductive Refusal where
  /-- Raised by `exec` for a command of the table without a meaning yet. Safe. -/
  | notModelled (mnemonic : String)
  deriving DecidableEq, Repr

/-- What a capture has read for the sections of a colophon whose layout is internal (Table 12-5), within its scope (Table 12-4):
the context table with its bucket entries, the control-space registers, the cores and the dies' shared units. -/
structure Snap where
  ctxs : Tbl Ctx
  regs : Tbl Word
  cores : Tbl Core
  dies : Tbl Die
  deriving DecidableEq, Repr

/-- The module; `bridgeAt` is when each bridge of Table 1-2 last moved traffic (R361). -/
structure State where
  pending : List Instr
  timeUs : Nat
  free : Nat
  regs : Tbl Word
  mem : List Host.Cell
  ecc : Tbl Nat
  badSeg : Tbl Nat
  evq : List Event
  evSeq : Nat
  lastEvent : Tbl Nat
  evLog : List Event
  tick : Nat
  cores : Tbl Core
  dies : Tbl Die
  ctxs : Tbl Ctx
  out : List Out
  links : Tbl Link
  peers : List Peer
  routes : Tbl Route
  xfers : List Xfer
  ended : List (Xfer × XEnd)
  nextXfer : Nat
  parts : List MembPart
  tck : TickUnit
  phase : Phase
  hpt : Hpt Rec Event
  rst : Resets Event Snap
  bridgeAt : List Nat
  sec : Sec
  pwr : Power
  side : Sideband
  deriving DecidableEq, Repr

/-- The module right after a cold reset: every register at its reset value, memory with nothing listed. -/
def State.reset : State where
  pending := []
  timeUs := 0
  free := 0
  regs := .empty
  mem := []
  ecc := .empty
  badSeg := .empty
  evq := []
  evSeq := 0
  lastEvent := .empty
  evLog := []
  tick := 0
  cores := .empty
  dies := .empty
  ctxs := .empty
  out := []
  links := .empty
  peers := []
  routes := .empty
  xfers := []
  ended := []
  nextXfer := 0
  parts := []
  tck := .reset
  phase := .off
  hpt := .zero
  rst := .zero
  bridgeAt := List.replicate 12 0
  sec := .blank
  pwr := .zero
  side := .zero

end Sys2Proof.Machine
end

