-- ==== Sys2Proof/Machine/Ops.lean ====
section
/-!
DEFINITION. The named operations every command is written with: register fields, events (R25), memory with its codes
(R165 to R168, R453), quoins (R152, R153), context faults (R217) and the checks of Table 7-4.
-/

namespace Sys2Proof.Machine

/-! ### Registers -/

/-- The stored value of the register at offset `o`. -/
def State.rget (s : State) (o : Nat) : Nat := (s.regs.get (regReset o) o).toNat

/-- The register at offset `o` with value `v`. -/
def State.rset (s : State) (o v : Nat) : State := { s with regs := s.regs.set o (BitVec.ofNat 32 v) }

/-- A field's value. -/
def State.fget (s : State) (f : Fld) : Nat := bits (s.rget f.off) f.hi f.lo

/-- A field set to `v`. -/
def State.fset (s : State) (f : Fld) (v : Nat) : State := s.rset f.off (setBits (s.rget f.off) f.hi f.lo v)

/-- A field set where `c` holds. -/
def State.fsetIf (s : State) (c : Bool) (f : Fld) (v : Nat) : State := if c then s.fset f v else s

/-- A saturating counter field raised by `n`. -/
def State.fadd (s : State) (f : Fld) (n : Nat) : State :=
  s.fset f (satAdd (2 ^ (f.hi - f.lo + 1) - 1) (s.fget f) n)

/-- A field that wraps, raised by `n`. -/
def State.fwrap (s : State) (f : Fld) (n : Nat) : State := s.fset f (s.fget f + n)

/-- The board cap in force, in watts (R424). -/
def State.capInForce (s : State) : Nat := s.fget F.PWR_STAT_CAP_W

/-! ### Parts -/

def State.core (s : State) (g : Nat) : Core := s.cores.get Core.reset g
def State.setCore (s : State) (g : Nat) (c : Core) : State := { s with cores := s.cores.set g c }
def State.modCore (s : State) (g : Nat) (f : Core → Core) : State := s.setCore g (f (s.core g))
def State.die (s : State) (d : Nat) : Die := s.dies.get Die.reset d
def State.setDie (s : State) (d : Nat) (x : Die) : State := { s with dies := s.dies.set d x }
def State.modDie (s : State) (d : Nat) (f : Die → Die) : State := s.setDie d (f (s.die d))
def State.ctx (s : State) (c : Nat) : Ctx := s.ctxs.get Ctx.reset c
def State.setCtx (s : State) (c : Nat) (x : Ctx) : State := { s with ctxs := s.ctxs.set c x }
def State.modCtx (s : State) (c : Nat) (f : Ctx → Ctx) : State := s.setCtx c (f (s.ctx c))

/-- The next free value, and the state that has used it. -/
def State.freeVal (s : State) : State × Nat := ({ s with free := s.free + 1 }, (Config.freeWord s.free).toNat)

/-! ### Events -/

/-- Event records on their way to the host: they leave the queue for good when they are acknowledged (R388, R399). -/
def State.evFlying (s : State) : Nat :=
  (s.hpt.qps.map fun q => (q.sent.filter fun r => match r.own with | .event _ => true | _ => false).length).sum

/-- R25, R398: an event record enters the queue, or is dropped when it holds 4,096; the last 2,048 are kept for a
colophon (Table 12-5). -/
def State.raise (s : State) (code : Nat) (ctx : Option Nat) (unit : Nat) (data : List Nat) : State :=
  if s.evq.length + s.evFlying < 4096 then
    let e : Event := ⟨code, ctx, s.evSeq, s.tick, unit, data⟩
    { s with evq := s.evq ++ [e], evSeq := s.evSeq + 1, evLog := s.evLog.drop (s.evLog.length - 2047) ++ [e] }
  else (s.fset F.MGT_PLANE_STAT_EVQ_OVF 1).fadd F.MGT_EVQ_DROP_DROP_COUNT 1

/-- An event raised at most once per `period` µs for one unit. -/
def State.raiseEvery (s : State) (period code : Nat) (ctx : Option Nat) (unit : Nat) (data : List Nat) : State :=
  let key := code * 65536 + unit
  match s.lastEvent.find key with
  | some t => if t + period ≤ s.timeUs then
      { s with lastEvent := s.lastEvent.set key s.timeUs }.raise code ctx unit data else s
  | none => { s with lastEvent := s.lastEvent.set key s.timeUs }.raise code ctx unit data

/-! ### Contexts and faults -/

/-- Context states (Table 7-1). -/
def ctxFree : Nat := 0
def ctxLoaded : Nat := 1
def ctxIdle : Nat := 2
def ctxRunning : Nat := 3
def ctxSaving : Nat := 4
def ctxSaved : Nat := 5
def ctxRestoring : Nat := 6
def ctxMigrating : Nat := 7
def ctxFaulted : Nat := 8
def ctxTearing : Nat := 9

/-- CTX_STATn.STATE (R208). -/
def State.ctxState (s : State) (c : Nat) : Nat := s.fget (F.CTX_STAT_STATE c)
def State.setCtxState (s : State) (c v : Nat) : State := s.fset (F.CTX_STAT_STATE c) v

/-- The context that occupies core `g` (R213). -/
def State.occupant (s : State) (g : Nat) : Option Nat :=
  if s.fget (F.CORE_RES_OCCUPIED g) = 1 then some (s.fget (F.CORE_RES_CTX g)) else none

/-- The forme of the context that occupies core `g`. -/
def State.coreForme (s : State) (g : Nat) : Option Forme :=
  match s.occupant g with
  | none => none
  | some c => (s.ctx c).forme

/-- R217: a fault of context `c` from event `code` on core `g`. The other engines stop at the next tick. -/
def State.ctxFault (s : State) (c code g : Nat) : State :=
  let st := s.ctxState c
  if st = ctxFree ∨ st = ctxTearing then s
  else
    let s := ((s.fset (F.CTX_FAULT_VALID c) 1).fset (F.CTX_FAULT_CORE c) g).fset (F.CTX_FAULT_EVENT c) code
    let s := s.raise 0x0421 (some c) g []
    s.modCtx c fun x => { x with faultStop := true }

/-- The fault of the context that occupies core `g`, if one does. -/
def State.coreFault (s : State) (g code : Nat) : State :=
  match s.occupant g with
  | none => s
  | some c => s.ctxFault c code g

/-- R134: every thread of the core enters FROZEN. -/
def Core.freezeThreads (c : Core) : Core := { c with thr := c.thr.map fun t => { t with st := .frozen } }

/-- R213: the cores that context `c` occupies. -/
def State.occupied (s : State) (c : Nat) : List Nat := (List.range 128).filter fun g => s.occupant g == some c

/-- R134: every thread of core `g` and of its context's other cores enters FROZEN. -/
def State.freezeCtx (s : State) (g : Nat) : State :=
  match s.occupant g with
  | none => s.modCore g Core.freezeThreads
  | some c => (s.occupied c).foldl (fun s h => s.modCore h Core.freezeThreads) s

/-- R134: an illegal operation of a unit of core `g`: event `code` is raised, the threads freeze and the context
faults. -/
def State.illegal (s : State) (g code : Nat) : State :=
  ((s.raise code (s.occupant g) g []).freezeCtx g).coreFault g code

/-- R216, R217: a window violation seen at core `g`: event 0x0420, then the fault. -/
def State.violation (s : State) (g : Nat) : State :=
  (s.raise 0x0420 (s.occupant g) g []).coreFault g 0x0420

/-! ### The device address space (R136, R140, R141) -/

/-- Where a device address lies (Table 5-1). -/
inductive Place where
  | hbm (die : Nat)
  | lpx (edge : Nat)
  | ls (core : Nat)
  | oc (core : Nat)
  | reserved
  deriving DecidableEq, Repr

def hbmDie : Nat := 0x6000000000
def lpxBase : Nat := 0x200000000000
def lpxEdge : Nat := 0x7000000000
def lsBase (g : Nat) : Nat := 0x7F0000000000 + g * 0x400000
def ocBase (g : Nat) : Nat := 0x7F0040000000 + g * 0x40000

def place (a : Nat) : Place :=
  if a < 0x18000000000 then .hbm (a / hbmDie)
  else if a < lpxBase then .reserved
  else if a < 0x20E000000000 then .lpx ((a - lpxBase) / lpxEdge)
  else if a < 0x7F0000000000 then .reserved
  else if a < 0x7F0020000000 then .ls ((a - 0x7F0000000000) / 0x400000)
  else if a < 0x7F0040000000 then .reserved
  else if a < 0x7F0042000000 then .oc ((a - 0x7F0040000000) / 0x40000)
  else .reserved

/-- The present HBM stacks of die `d`, in ascending order (R449, R450). -/
def State.stacks (s : State) (d : Nat) : List Nat := (List.range 3).filter fun k => bit (s.fget (F.MGT_CAP_DIE_HBM d)) k

/-- The present LPDDR5X devices of edge die `e`. -/
def State.lpxDevs (s : State) (e : Nat) : List Nat := (List.range 8).filter fun k => bit (s.fget F.MGT_CAP_LPX_LPX) (8 * e + k)

/-- HBM: stack H0 to H11, pseudo-channel and bank (R140), over the present stacks (R450). -/
def State.hbmBank (s : State) (a : Nat) : Nat × Nat × Nat :=
  let d := a / hbmDie
  let o := a % hbmDie
  let n := o / 4096
  let p := s.stacks d
  let so := n / p.length * 4096 + o % 4096
  (3 * d + p.getD (n % p.length) 0, bits so 15 11, bits so 19 16)

/-- LPDDR5X: device L0 to L15, segment, block of the segment and bank (R141), over the present devices (R450). -/
def State.lpxSeg (s : State) (a : Nat) : Nat × Nat × Nat × Nat :=
  let w := a - lpxBase
  let e := w / lpxEdge
  let eo := w % lpxEdge
  let n := eo / 4096
  let q := s.lpxDevs e
  let u := n / q.length * 4096 + eo % 4096
  let sg := u / 1792
  (8 * e + q.getD (n % q.length) 0, sg, u % 1792 / 64, sg % 16)

/-- Whether [a, a+n) is memory in service (R450). -/
def State.inService (s : State) (a n : Nat) : Bool :=
  match place a with
  | .hbm d => bit (s.fget F.MGT_CAP_SUM_CD_PRESENT) d && decide (a % hbmDie + n ≤ (s.stacks d).length * 0x2000000000)
  | .lpx e => decide ((a - lpxBase) % lpxEdge + n ≤ (s.lpxDevs e).length * 0xE00000000)
  | _ => false

/-- A number for the bank that serves `a`, equal for equal banks; LS and OC have one of their own. -/
def State.bankOf (s : State) (a : Nat) : Nat :=
  match place a with
  | .hbm _ => let b := s.hbmBank a; (b.1 * 32 + b.2.1) * 16 + b.2.2
  | .lpx _ => let b := s.lpxSeg a; 0x10000 + b.1 * 16 + b.2.2.2
  | _ => 0x20000

/-- Bytes from `a` to the end of its bank unit (R161): a 2 KiB HBM block, or an LPDDR5X segment's data, also cut at
the 4 KiB interleave. -/
def State.bankRoom (s : State) (a : Nat) : Nat :=
  match place a with
  | .hbm _ => 2048 - a % 2048
  | .lpx e =>
    let eo := (a - lpxBase) % lpxEdge
    let u := eo / 4096 / (s.lpxDevs e).length * 4096 + eo % 4096
    Nat.min (1792 - u % 1792) (4096 - eo % 4096)
  | _ => 2048

/-! ### Memory -/

/-- The byte at `a`; an unlisted address reads as 0 (R358, R359: memory is zeroed by every reset). -/
def memGet : List Host.Cell → Nat → Byte
  | [], _ => 0
  | (k, v) :: r, a => if k = a then v else memGet r a

/-- The memory with byte `v` at `a`, addresses rising and no zero byte listed. -/
def memPut : List Host.Cell → Nat → Byte → List Host.Cell
  | [], a, v => if v = 0 then [] else [(a, v)]
  | (k, w) :: r, a, v =>
    if k = a then (if v = 0 then r else (a, v) :: r)
    else if a < k then (if v = 0 then (k, w) :: r else (a, v) :: (k, w) :: r)
    else (k, w) :: memPut r a v

/-- Whether every address of `l` is above `lo` and rising, and no zero byte is listed. -/
def memWfFrom : Option Nat → List Host.Cell → Bool
  | _, [] => true
  | lo, (k, v) :: r => (match lo with | none => true | some l => decide (l < k)) && v != 0 && memWfFrom (some k) r

/-- The canonical form of memory. -/
def Memory.wf (m : List Host.Cell) : Bool := memWfFrom none m

/-- `bytes` stored from `a` upward. -/
def memPutList : List Host.Cell → Nat → List Byte → List Host.Cell
  | m, _, [] => m
  | m, a, b :: r => memPutList (memPut m a b) (a + 1) r

/-- [a, a+n) zeroed. -/
def memClear (m : List Host.Cell) (a n : Nat) : List Host.Cell := m.filter fun c => decide (c.1 < a) || decide (a + n ≤ c.1)

/-- The cells of [a, a+n), their addresses taken from `a`. -/
def memCells (m : List Host.Cell) (a n : Nat) : List Host.Cell :=
  (m.filter fun c => decide (a ≤ c.1) && decide (c.1 < a + n)).map fun c => (c.1 - a, c.2)

/-- The cells `cs` laid over a zeroed [a, a+n). -/
def memLay (m : List Host.Cell) (a n : Nat) (cs : List Host.Cell) : List Host.Cell :=
  cs.foldl (fun m c => memPut m (a + c.1) c.2) (memClear m a n)

def State.byte (s : State) (a : Nat) : Byte := memGet s.mem a
def State.bytes (s : State) (a n : Nat) : List Byte := (List.range n).map fun i => memGet s.mem (a + i)
/-- The little-endian number of `n` bytes at `a` (R6). -/
def State.le (s : State) (a n : Nat) : Nat := leNat (s.bytes a n)

/-! ### Protection codes (R165 to R167, R453)

`ecc` lists the physical upsets of the storage arrays, keyed by a code word's first address. The value has a bit for each of
the word's 72 symbols (HBM, LPDDR5X: symbol 2p + h of pin p, or a stored byte) or bits (SRAM) that is wrong. ACF words,
die-cache data and die-cache tags have no device address: the model names them by addresses of a reserved range. -/

def acfBase (g slot : Nat) : Nat := 0x7F1000000000 + g * 0x80000 + slot * 0x10000
def dcDataBase (d way set : Nat) : Nat := 0x7F2000000000 + d * 0x8000000 + (way * 32768 + set) * 128
def dcTagBase (d way set : Nat) : Nat := 0x7F3000000000 + d * 0x800000 + (way * 32768 + set) * 8

/-- The array that holds an SRAM word: the LS, OC or ACF of a core, or a die-cache line's data or tag. -/
inductive Sram where
  | core (g : Nat)
  | line (die way set : Nat)
  deriving DecidableEq, Repr

def sramOf (a : Nat) : Option Sram :=
  match place a with
  | .ls g => some (.core g)
  | .oc g => some (.core g)
  | .reserved =>
    if acfBase 0 0 ≤ a ∧ a < acfBase 128 0 then some (.core ((a - acfBase 0 0) / 0x80000))
    else if dcDataBase 0 0 0 ≤ a ∧ a < dcDataBase 4 0 0 then
      let w := (a - dcDataBase 0 0 0) % 0x8000000 / 128
      if w < 24 * 32768 then some (.line ((a - dcDataBase 0 0 0) / 0x8000000) (w / 32768) (w % 32768)) else none
    else if dcTagBase 0 0 0 ≤ a ∧ a < dcTagBase 4 0 0 then
      let w := (a - dcTagBase 0 0 0) % 0x800000 / 8
      if w < 24 * 32768 then some (.line ((a - dcTagBase 0 0 0) / 0x800000) (w / 32768) (w % 32768)) else none
    else none
  | _ => none

/-- The compute die of an SRAM word. -/
def Sram.die : Sram → Nat
  | .core g => g / 32
  | .line d _ _ => d

/-- Whether an address is in HBM or LPDDR5X. -/
def isMem (a : Nat) : Bool :=
  match place a with
  | .hbm _ => true
  | .lpx _ => true
  | _ => false

/-- Bytes of the code word that holds `a`. -/
def wordLen (a : Nat) : Nat := if isMem a then 64 else 8

/-- R165, Table 5-10: the word at `a` with the wrong symbols or bits `m` is corrected: up to 4 symbols of RS(72,64), or one
bit of SEC-DED. -/
def correctable (a m : Nat) : Bool := decide ((List.range 72).countP (bit m) ≤ if isMem a then 4 else 1)

/-- Keys of code words that overlap [a, a+n). -/
def State.eccHits (s : State) (a n : Nat) : List (Nat × Nat) :=
  s.ecc.entries.filter fun e => decide (e.1 < a + n) && decide (a < e.1 + wordLen e.1)

/-- R142: the TAG and its complement that segment `sg` of LPDDR5X device `k` holds. -/
def segTag (k sg : Nat) : Nat :=
  let t := crc32c (leBytes 1 k ++ leBytes 4 sg)
  t + (2 ^ 32 - 1 - t) * 2 ^ 32

/-- The stored TAG and complement of a segment; `badSeg` lists the segments that hold something else. -/
def State.segStored (s : State) (k sg : Nat) : Nat := (s.badSeg.find (k * 2 ^ 25 + sg)).getD (segTag k sg)

/-- Whether the LPDDR5X segment that holds `a` has a wrong tag (R143). -/
def State.segBad (s : State) (a : Nat) : Bool :=
  match place a with
  | .lpx _ => let b := s.lpxSeg a; s.segStored b.1 b.2.1 != segTag b.1 b.2.1
  | _ => false

/-- The device address of byte `o` of segment `sg`'s data in LPDDR5X device `k` (R141, read backwards). -/
def State.lpxAddr (s : State) (k sg o : Nat) : Nat :=
  let u := sg * 1792 + o
  let q := s.lpxDevs (k / 8)
  lpxBase + k / 8 * lpxEdge + (u / 4096 * q.length + q.idxOf (k % 8)) * 4096 + u % 4096

/-- R142, Table 5-3: the 2,048 raw bytes of segment `sg` of device `k`: the data blocks, their check bytes (the field and
the generator of RS(72,64) are not given: a free value), TAG, its complement and zeros. -/
def State.lpxRaw (s : State) (k sg : Nat) : List Byte :=
  let block := fun b => (List.range 64).map fun i => s.byte (s.lpxAddr k sg (64 * b + i))
  ((List.range 28).map block).flatten ++ ((List.range 28).map fun b => leBytes 8 (Config.rsCheck (block b)).toNat).flatten
    ++ leBytes 8 (s.segStored k sg) ++ List.replicate 24 0

/-- R166: one corrected code word at `a`. -/
def State.corrected (s : State) (a : Nat) : State :=
  let s := { s with ecc := s.ecc.erase a }
  match place a with
  | .hbm d =>
    let k := (s.hbmBank a).1
    (s.fadd (F.HBM_ECC_CNT_CE_CNT d (k % 3)) 1).raiseEvery 1000000 0x0301 none k []
  | .lpx e =>
    let k := (s.lpxSeg a).1
    (s.fadd (F.LPX_ECC_CNT_CE_CNT e (k % 8)) 1).raiseEvery 1000000 0x0301 none (0x100 + k) []
  | _ =>
    match sramOf a with
    | some w => (s.fadd (F.DC_ECC_CNT_CE_CNT w.die) 1).raiseEvery 1000000 0x0301 none (0x200 + w.die) []
    | none => s

/-- R167: an uncorrectable block of HBM or LPDDR5X recorded, and its event raised: 0x0303 for the scrubber, else
0x0302. -/
def State.uncorrectable (s : State) (a : Nat) (scrub : Bool) (ctx : Option Nat) : State :=
  let b := a / 64 * 64
  let ev := if scrub then 0x0303 else 0x0302
  match place a with
  | .hbm d =>
    let k := (s.hbmBank a).1
    let s := (s.fadd (F.HBM_ECC_CNT_UE_CNT d (k % 3)) 1).rset (R.HBM_ERR_ADDR_LO d (k % 3)) (b % 2 ^ 32)
    let s := ((s.fset (F.HBM_ERR_ADDR_HI_ADDR_HI d (k % 3)) (b / 2 ^ 32)).fset (F.HBM_ERR_ADDR_HI_VALID d (k % 3)) 1).fset
      (F.HBM_ERR_ADDR_HI_SCRUB d (k % 3)) (b2n scrub)
    s.raise ev ctx k []
  | .lpx e =>
    let k := (s.lpxSeg a).1
    let s := (s.fadd (F.LPX_ECC_CNT_UE_CNT e (k % 8)) 1).rset (R.LPX_ERR_ADDR_LO e (k % 8)) (b % 2 ^ 32)
    let s := ((s.fset (F.LPX_ERR_ADDR_HI_ADDR_HI e (k % 8)) (b / 2 ^ 32)).fset (F.LPX_ERR_ADDR_HI_VALID e (k % 8)) 1).fset
      (F.LPX_ERR_ADDR_HI_SCRUB e (k % 8)) (b2n scrub)
    s.raise ev ctx k []
  | _ => s

/-- R143: wrong-tag segments met at the blocks `l` are counted once each and reported. -/
def State.misaddressed (s : State) (l : List Nat) (ctx : Option Nat) : State :=
  ((l.map fun b => let x := s.lpxSeg b; (x.1, x.2.1)).dedup).foldl (fun s x =>
    (s.fadd (F.LPX_ECC_CNT_TAG_CNT (x.1 / 8) (x.1 % 8)) 1).raise 0x0309 ctx x.1 []) s

/-- Upsets of the words of a die-cache line go with what it held. -/
def State.dcFresh (s : State) (d way set : Nat) : State :=
  { s with ecc := s.ecc.dropIf fun a => sramOf a == some (.line d way set) }

/-- R167: an uncorrectable SRAM word. In the LS, OC or ACF the context that owns it is faulted with event 0x0304, and a word
no context owns is rewritten with zero. A die-cache line is invalidated, to be read again from memory. -/
def State.sramUncorrectable (s : State) (a : Nat) : State :=
  match sramOf a with
  | some (.core g) =>
    match s.occupant g with
    | some c => (s.raise 0x0304 (some c) g []).ctxFault c 0x0304 g
    | none => { s with ecc := s.ecc.erase (a / 8 * 8), mem := memClear s.mem (a / 8 * 8) 8 }.raise 0x0304 none g []
  | some (.line d w x) =>
    let s := if (s.die d).lines.any (fun l => l.way == w && l.set == x) then s.fadd (F.DC_ECC_CNT_REFETCH d) 1 else s
    (s.modDie d fun y => { y with lines := y.lines.filter fun l => !(l.way == w && l.set == x) }).dcFresh d w x
  | none => s

/-- An uncorrectable word met by a unit of context `ctx`, by its array. -/
def State.wordLost (s : State) (a : Nat) (ctx : Option Nat) : State :=
  if isMem a then s.uncorrectable a false ctx else s.sramUncorrectable a

/-- Every 64-byte block that [a, a+n) touches, first bytes first. -/
def blocksOf (a n : Nat) : List Nat :=
  (List.range ((a + n + 63) / 64 - a / 64)).map fun i => (a / 64 + i) * 64

/-- A checked read of the words of [a, a+n) that `keep` takes, by a unit of context `ctx`: corrections are made and counted
(R166); the second value is whether every word could be read (R167, R143). SRAM uncorrectables fault the owner here;
memory ones are left to the caller. A block under a wrong tag is uncorrectable, whatever its own symbols are (R143). -/
def State.checkWords (s : State) (keep : Nat → Bool) (a n : Nat) (ctx : Option Nat) : State × Bool :=
  let hits := (s.eccHits a n).filter fun e => keep e.1 && !s.segBad e.1
  let s1 := hits.foldl (fun s e => if correctable e.1 e.2 then s.corrected e.1 else s) s
  let bad := hits.filter fun e => !correctable e.1 e.2
  let s2 := bad.foldl (fun s e => s.wordLost e.1 ctx) s1
  let segs := if isMem a then (blocksOf a n).filter fun b => s.segBad b && keep b else []
  let s3 := segs.foldl (fun s b => s.uncorrectable b false ctx) s2
  (s3.misaddressed segs ctx, bad.isEmpty && segs.isEmpty)

/-- A checked read of [a, a+n). -/
def State.checkRead (s : State) (a n : Nat) (ctx : Option Nat) : State × Bool := s.checkWords (fun _ => true) a n ctx

/-- A line's number (R146) of a 128-byte die-cache line. -/
def dcLineOf (a : Nat) : Nat := a / 128

/-- R150, R151: a write of [a, a+n) to HBM or LPDDR5X invalidates matching lines in all four dies and discards
colliding fills. DEDUCED (assumption 91): a local write's own die invalidates too (R145 says updates, R150 invalidates). -/
def State.snoop (s : State) (a n : Nat) : State :=
  let hit := fun l : Nat => decide (l * 128 < a + n) && decide (a < l * 128 + 128)
  { s with dies := s.dies.map fun _ d =>
      { d with lines := d.lines.filter fun l => !hit (l.tag * 32768 + l.set),
               fills := d.fills.map fun f => if hit f.line then { f with dead := true } else f } }

/-- R453: a write. Code words that are covered whole are fresh; a partly covered one is read first, and kept when it is
uncorrectable. The second value says whether every byte was written. -/
def State.memWrite (s : State) (a : Nat) (l : List Byte) (ctx : Option Nat) : State × Bool :=
  let n := l.length
  let whole := fun k : Nat => decide (a ≤ k) && decide (k + wordLen k ≤ a + n)
  let hits := (s.eccHits a n).filter fun e => whole e.1 || !s.segBad e.1
  let s1 := hits.foldl (fun s e => if whole e.1 then { s with ecc := s.ecc.erase e.1 }
    else if correctable e.1 e.2 then s.corrected e.1 else s) s
  let bad := (hits.filter fun e => !whole e.1 && !correctable e.1 e.2).map (·.1)
  let badB := if isMem a then (blocksOf a n).filter fun b => s.segBad b && !whole b else []
  let s2 := bad.foldl (fun s k => s.wordLost k ctx) s1
  let s3 := (badB.foldl (fun s b => s.uncorrectable b false ctx) s2).misaddressed badB ctx
  let keep := fun x : Nat => bad.any (fun k => decide (k ≤ x) && decide (x < k + wordLen k))
    || badB.any (fun k => decide (k ≤ x) && decide (x < k + 64))
  let segs := if isMem a then (blocksOf a n).filter fun b => s.segBad b && whole b else []
  let s4 := { s3 with badSeg := s3.badSeg.dropIf fun k => segs.any fun b => let x := s.lpxSeg b; k == x.1 * 2 ^ 25 + x.2.1 }
  let m := ((List.range n).zip l).foldl (fun m p => if keep (a + p.1) then m else memPut m (a + p.1) p.2) s4.mem
  let s5 := { s4 with mem := m }
  (if isMem a then s5.snoop a n else s5, bad.isEmpty && badB.isEmpty)

/-- R167: the fault of context `c` at core `g` after an access at `a` that met an uncorrectable word. One in SRAM has
faulted its owner already. -/
def State.accessFault (s : State) (c a g : Nat) : State := if isMem a then s.ctxFault c 0x0302 g else s

/-- A little-endian number of `n` bytes stored at `a`. -/
def State.putLe (s : State) (a n v : Nat) : State := (s.memWrite a (leBytes n v) none).1

/-! ### Layout checks (R174, R216) -/

/-- Whether [off, off+n) lies in the LS layout of the context on core `g`. -/
def State.lsOk (s : State) (g off n : Nat) : Bool :=
  match s.coreForme g with
  | none => false
  | some f => decide (off + n ≤ (f.chaseOf (g / 32)).lsLen)

/-- Whether [off, off+n) lies in its OC layout. -/
def State.ocOk (s : State) (g off n : Nat) : Bool :=
  match s.coreForme g with
  | none => false
  | some f => decide (off + n ≤ (f.chaseOf (g / 32)).ocLen)

/-! ### Quoins (R152, R153) -/

/-- The counter of quoin `q` as core `g` names it; the null quoin reads 0. -/
def State.quoin (s : State) (g q : Nat) : Nat :=
  if q = 0 then 0
  else if q < 512 then ((s.core g).quoin.get 0 q).toNat
  else ((s.die (g / 32)).quoin.get 0 q).toNat

/-- R153: the wait list of quoin `q` evaluated at value `v`: satisfied threads and descriptors are ready. -/
def Core.wake (c : Core) (q v : Nat) : Core :=
  { c with
    thr := c.thr.map fun t => if t.st = .waitQ ∧ t.arg = q ∧ t.val ≤ v then { t with st := .run } else t
    xq := c.xq.map fun d =>
      if bits (d.words.getD 5 0) 63 54 = q ∧ bits (d.words.getD 5 0) 53 22 ≤ v then { d with ready := true } else d
    chainWait := c.chainWait.map fun d =>
      if bits (d.words.getD 5 0) 63 54 = q ∧ bits (d.words.getD 5 0) 53 22 ≤ v then { d with ready := true } else d }

/-- The counter of quoin `q` set, and its waiters evaluated. A write to the null quoin is ignored. -/
def State.quoinSet (s : State) (g q v : Nat) : State :=
  let v := v % 2 ^ 32
  if q = 0 then s
  else if q < 512 then
    s.modCore g fun c => { c with quoin := c.quoin.set q (BitVec.ofNat 32 v) }.wake q v
  else
    let s := s.modDie (g / 32) fun d => { d with quoin := d.quoin.set q (BitVec.ofNat 32 v) }
    { s with cores := s.cores.map fun h c => if h / 32 = g / 32 then c.wake q v else c }

/-- R108, R153: the waits of core `g` on quoins evaluated against the counters as they are. -/
def State.reawait (s : State) (g : Nat) : State :=
  let met := fun (d : Desc) =>
    if bits (d.words.getD 5 0) 53 22 ≤ s.quoin g (bits (d.words.getD 5 0) 63 54) then { d with ready := true } else d
  s.modCore g fun c => { c with
    thr := c.thr.map fun t => if t.st = .waitQ ∧ t.val ≤ s.quoin g t.arg then { t with st := .run } else t
    xq := c.xq.map met
    chainWait := c.chainWait.map met }

/-- A signed amount added to a quoin, wrapping modulo 2^32. -/
def State.quoinAdd (s : State) (g q : Nat) (i : Int) : State :=
  s.quoinSet g q (wrap 32 ((s.quoin g q : Int) + i))

/-- Whether the context on core `g` owns quoin `q` (R152). -/
def State.quoinOwned (s : State) (g q : Nat) : Bool :=
  if q < 512 then true
  else match s.coreForme g with
    | none => false
    | some f => f.quoins.any fun d => d.die == g / 32 && d.num == q

/-- R74: a write to [off, off+n) of the OC of core `g` clears the VALID bit of the sum blocks of the operand blocks it
touches. A sum block whose own VALID byte the write replaces is no longer the block's. -/
def State.clearSums (s : State) (g off n : Nat) : State :=
  let hit := fun x : SumRef => decide (off < x.start + x.len) && decide (x.start < off + n)
  let gone := fun x : SumRef => decide (off ≤ x.sum + 3) && decide (x.sum + 3 < off + n)
  let c := s.core g
  let m := (c.sums.filter fun x => hit x && !gone x).foldl
    (fun m x => memPut m (ocBase g + x.sum + 3) (memGet m (ocBase g + x.sum + 3) &&& 0xFE)) s.mem
  { s with mem := m }.setCore g { c with sums := c.sums.filter fun x => !hit x && !gone x }

/-- R73, R74: the sum block `l` of the operand block [start, start+len) written at byte `sum` of the OC of core `g`; it
may replace the sum block of another operand block, or bytes of one. -/
def State.putSums (s : State) (g start len sum : Nat) (l : List Byte) : State :=
  let s := ((s.memWrite (ocBase g + sum) l (s.occupant g)).1).clearSums g sum l.length
  s.modCore g fun c => { c with sums := ⟨start, len, sum⟩ :: c.sums }

/-! ### Galleys and waits of one core -/

/-- Depth of a core's galleys (R205). -/
def State.galley (s : State) (g : Nat) : GalRec :=
  match s.coreForme g with
  | none => ⟨0, 0, 64, 64, 64, 64⟩
  | some f => f.galley g

/-- The bytes a VXE instruction writes, as (device address, length): none for a scalar destination or MFLUSH. -/
def VEntry.writes (e : VEntry) (g : Nat) : Option (Nat × Nat) :=
  let op := bits e.word 63 56
  if bits e.word 37 36 = 1 ∨ op = 0x70 then none
  else
    let base := if bit e.sd 24 then ocBase g else lsBase g
    let n := e.sn % 65536 + 1
    let w := match Fmt.ofCode (bits e.word 55 52) with
      | some f => f.bytes n
      | none => 0
    some (base + e.sd % 2 ^ 22, if 0x30 ≤ op ∧ op ≤ 0x34 then 8 else w)

/-- R107: whether register `r` of thread `t` waits for a VXE result. -/
def Core.pendingReg (c : Core) (t r : Nat) : Bool :=
  c.vq.any fun e => e.thread == t && bits e.word 37 36 == 1 && bits e.word 25 21 == r

/-- Whether an engine instruction that thread `t` issued has not completed (R110 FENCE, R124, R156). -/
def State.outstanding (s : State) (g t : Nat) : Bool :=
  let c := s.core g
  c.xm.any (·.thread == t) || c.mx.any (·.thread == t) || c.tiles.any (·.thread == t) || c.drains.any (·.thread == t)
  || c.vq.any (·.thread == t) || c.xq.any (·.thread == t) || c.act.any (·.d.thread == t)
  || c.chainWait.any (·.thread == t) || c.lost.any (·.thread == t)
  || s.dies.entries.any fun d => d.2.flushes.any fun f => f.core == g && f.thread == t

/-- R104: threads whose FENCE or GPEEK wait has ended return to RUN; GPEEK's register takes the head entry. -/
def State.settle (s : State) (g : Nat) : State :=
  let c := s.core g
  let upd := fun (i : Nat) (t : Thread) =>
    match t.st with
    | .waitFence => if s.outstanding g i then t else { t with st := .run }
    | .waitPeek =>
      match c.mv with
      | [] => t
      | e :: _ => { t with st := .run, sreg := t.sreg.set t.arg (BitVec.ofNat 64 e) }
    | _ => t
  s.setCore g { c with thr := ((List.range c.thr.length).zip c.thr).map fun p => upd p.1 p.2 }

/-- A core out of service for good (R94, R133): quarantined by the MXE or the VXE. -/
def State.quarantined (s : State) (g : Nat) : Bool :=
  s.fget (F.MXE_CHK_STAT_QUAR g) = 1 || s.fget (F.VXE_STAT_QUAR g) = 1

/-- Whether the engines of core `g` work: it is occupied by a RUNNING context, or by one whose teardown waits for its tick
(R231), has not been stopped at a tick (R217, R220) and is not quarantined (R94). -/
def State.live (s : State) (g : Nat) : Bool :=
  match s.occupant g with
  | none => false
  | some c => (s.ctxState c == ctxRunning || (s.ctxState c == ctxTearing && (s.ctx c).tearing.isNone))
      && !(s.core g).stopped && !s.quarantined g

/-- The step of a context marked suspect (R93). -/
def State.markSuspect (s : State) (g : Nat) : State :=
  match s.occupant g with
  | none => s
  | some c => s.modCtx c fun x => { x with suspect := true }

end Sys2Proof.Machine
end

