-- ==== Sys2Proof/Machine/Bridges.lean ====
section
/-!
DEFINITION. The die-to-die bridges (R14 to R16, R360): which bridges traffic crosses, and when each last moved some (R361).
-/

namespace Sys2Proof.Machine

/-- Whether the ring bridge between dies `a` and `b`, or the bridge of die `a` to edge die `b` − 4, is in service. -/
def State.bridgeUp (s : State) (a b : Nat) : Bool :=
  let m := s.fget (F.MGT_CAP_DIE_BRIDGES a)
  if b = 4 then bit m 0 else if b = 5 then bit m 1
  else if b = (a + 1) % 4 then bit m 2 else bit m 3

/-- Whether compute die `d` is in reset (R360). -/
def State.dieInReset (s : State) (d : Nat) : Bool := s.rst.running.any fun p => p.1 == ResetAct.die d

/-- Whether compute die `d` is present and out of reset, so that traffic may cross it. -/
def State.dieCarries (s : State) (d : Nat) : Bool := bit (s.fget F.MGT_CAP_SUM_CD_PRESENT) d && !s.dieInReset d

/-- The compute die, or 4 plus the edge die, that holds address `a`. -/
def homeDie (a : Nat) : Option Nat :=
  match place a with
  | .hbm d => some d
  | .lpx e => some (4 + e)
  | .ls g | .oc g => some (g / 32)
  | .reserved => none

/-- R15: the die that the routes of context `c`'s forme name for traffic from die `x` to die `y`. -/
def State.routeVia (s : State) (c : Option Nat) (x y : Nat) : Option Nat :=
  match c.bind fun c => (s.ctx c).forme with
  | none => none
  | some f => (f.bridges.find? fun r => r.src == x && r.dst == y).map (·.via)

/-- R15, R360: the compute die that traffic between the edge dies crosses: the forme's, CD0 for other traffic, and while a die is
in reset the lowest-numbered one that carries traffic and has both edge bridges. -/
def State.edgeVia (s : State) (c : Option Nat) (x y : Nat) : Nat :=
  let up := (List.range 4).filter fun d => s.dieCarries d && s.bridgeUp d 4 && s.bridgeUp d 5
  let d := (s.routeVia c x y).getD 0
  if (List.range 4).any s.dieInReset || !up.contains d then up.headD 0 else d

/-- R15, R16, R360: the bridges, each by its two dies, that traffic from die `x` to die `y` crosses, an edge die being 4 or 5:
traffic of context `c`'s forme, or other traffic (none), which takes the default route: state save and restore, management
access and copies for spares. Traffic goes round a die in reset; where an edge bridge is lost, each neighbour that carries
traffic and has both bridges in service may take it. -/
def State.bridgePath (s : State) (c : Option Nat) (x y : Nat) : List (Nat × Nat) :=
  if x = y then []
  else if x < 4 ∧ y < 4 then
    if y = (x + 2) % 4 then
      let via := (s.routeVia c x y).getD ((x + 1) % 4)
      let via := if s.dieInReset via then (via + 2) % 4 else via
      [(x, via), (via, y)]
    else [(x, y)]
  else if 4 ≤ x ∧ 4 ≤ y then
    let via := s.edgeVia c x y
    [(via, x), (via, y)]
  else
    let d := Nat.min x y
    let e := Nat.max x y
    if s.bridgeUp d e then [(d, e)]
    else (([(d + 1) % 4, (d + 3) % 4].filter fun n => s.dieCarries n && s.bridgeUp d n && s.bridgeUp n e).map
      fun n => [(d, n), (n, e)]).flatten

/-- The bridge of Table 1-2 between two dies: CDd to EDe is 2 d + e, CDd to CD(d+1) is 8 + d. -/
def bridgeNo (p : Nat × Nat) : Nat :=
  let x := Nat.min p.1 p.2
  let y := Nat.max p.1 p.2
  if 4 ≤ y then 2 * x + (y - 4) else if y = x + 1 then 8 + x else 11

/-- The numbers of the bridges between two places, none where one of them has no die. -/
def State.bridgesOf (s : State) (c : Option Nat) (x y : Option Nat) : List Nat :=
  match x, y with
  | some a, some b => (s.bridgePath c a b).map bridgeNo
  | _, _ => []

/-- Traffic has crossed the bridges from one place to another (R361, detector 8). -/
def State.crossed (s : State) (c : Option Nat) (x y : Option Nat) : State :=
  { s with bridgeAt := (s.bridgesOf c x y).foldl (fun l b => listSet l b s.timeUs) s.bridgeAt }

/-- Whether the capture under way has clock-stopped the units of
compute die `d`, or, for none, those outside the dies (R371, Table 12-4). The units that a core's or a context's capture shares
with other work are stopped for the reading alone, which the model makes at the capture's end (DEDUCED, assumption 70). -/
def State.clockStopped (s : State) (d : Option Nat) : Bool :=
  match s.rst.capture with
  | none => false
  | some k => match k.act with
    | .warm | .oos => true
    | .die e => d == some e
    | _ => false

/-- Whether the capture under way has clock-stopped the controller of bank `b`. -/
def State.bankStopped (s : State) (b : Nat) : Bool :=
  decide (b < 0x20000) && s.clockStopped (if b < 0x10000 then some (b / 512 / 3) else none)

end Sys2Proof.Machine
end

