-- ==== Sys2Proof/Machine/Flags.lean ====
section
/-!
DEFINITION. Status and flag computations the engines share: quarantine (R94, R133), the generation check (R164), the
held operand lines (R127), the monitor counters (R123) and the non-finite counts (R61).
-/

namespace Sys2Proof.Machine

/-- The contexts that hold a forme, with it. -/
def State.formes (s : State) : List (Nat × Forme) :=
  (List.range 8).filterMap fun c => (s.ctx c).forme.map fun f => (c, f)

/-- R449: core `g` is reported absent. -/
def State.dropCore (s : State) (g : Nat) : State :=
  let w := s.fget (F.MGT_CAP_CORE_CORES (g / 32))
  (s.fset (F.MGT_CAP_CORE_CORES (g / 32)) (if bit w (g % 32) then w - 2 ^ (g % 32) else w)).fset F.MGT_CAP_SUM_REDUCED 1

/-- R94, R133, R185: core `g` leaves service through the QUAR field `q`, and every context whose chase includes it is
faulted. -/
def State.quarantine (s : State) (g code : Nat) (q : Fld) : State :=
  let s := ((s.dropCore g).fset q 1).raise code (s.occupant g) g []
  (s.formes.filter fun p => p.2.coreList.contains g).foldl (fun s p => s.ctxFault p.1 code g) s

/-- Result of a generation check (R164): passed, waiting for the re-fetch, or a stale buffer. -/
inductive GenRes where
  | pass | wait | stale
  deriving DecidableEq, Repr

/-- R164: the check before an engine uses the buffer at `line` of `space`. -/
def State.genCheck (s : State) (g gq gen space line : Nat) (mxe : Bool) : State × GenRes :=
  if gq = 0 then (s, .pass)
  else
    let c := s.core g
    let key := fun f : FillRec => f.space == space && f.line == line
    let recd := c.fills.find? key
    let now := s.quoin g gq % 65536
    let mark := c.refetch.find? fun r => r.mxe == mxe && r.key == space * 65536 + line
    let okRec : Bool := match recd with
      | none => true
      | some r => !r.torn && r.sample == gen
    let clear := fun (s : State) => s.modCore g fun c =>
      { c with refetch := c.refetch.filter fun r => !(r.mxe == mxe && r.key == space * 65536 + line) }
    match mark with
    | some r =>
      if r.done = false then (s, .wait)
      else if now = gen ∧ okRec = true then
        ((clear s).modCore g fun c => { c with fills := c.fills.filter fun f => !key f }, .pass)
      else (clear s, .stale)
    | none =>
      if now = gen ∧ okRec = true then (s.modCore g fun c => { c with fills := c.fills.filter fun f => !key f }, .pass)
      else match recd with
        | none => (s, .stale)
        | some r =>
          (((s.raise 0x0307 (s.occupant g) g []).fadd (F.XFE_GEN_CNT_REFETCH g) 1).modCore g fun c =>
            { c with refetch := c.refetch ++ [⟨mxe, space * 65536 + line, r, false, s.timeUs⟩] }, .wait)

/-- R164 FAULT: event 0x0306, the counts, and the context fault; the caller freezes the engine. -/
def State.staleFault (s : State) (g : Nat) : State :=
  (((s.raise 0x0306 (s.occupant g) g []).fadd (F.XFE_GEN_CNT_STALE_CNT g) 1).fset (F.XFE_STAT_STALE_FAULT g) 1).coreFault
    g 0x0306

/-- The element codes of a row of A and their number of bytes: the OC range of a tile's A block. -/
def Tile.aLen (t : Tile) : Nat := t.fmtA.bytes (t.rows * (if t.bank.k256 then 256 else 128))
/-- The OC range of the B block in a bank. -/
def Bank.len (b : Bank) : Nat := b.fmt.bytes ((if b.k256 then 256 else 128) * 128)

/-- R88, R92: whether the MXE holds a byte of [off, off+n) of the OC for a tile's verdict or its shadow. -/
def Core.held (c : Core) (off n : Nat) : Bool :=
  let ov := fun a l : Nat => decide (a < off + n) && decide (off < a + l)
  (c.tiles ++ c.shadowWait.map (·.tile)).any fun t =>
    ov (64 * t.aLine) t.aLen || ov (64 * t.sumLine) 1088 || ov (64 * t.bank.line) t.bank.len

/-- The larger (or smaller) of an optional peak and an FP32 code. -/
def peakMax (big : Bool) (a : Option Nat) (v : Nat) : Option Nat :=
  match a with
  | none => some v
  | some w =>
    let x := fpFP32.decode w
    let y := fpFP32.decode v
    some (if (if big then x.lt y else y.lt x) then v else w)

/-- R123: one element of a CVT or RSC into a monitor counter set; `v` is the unrounded value in destination code units. -/
def MonSet.count (m : MonSet) (q : Converted) (v : Num) : MonSet :=
  let up := fun a (c : Bool) => satAdd (2 ^ 32 - 1) a (b2n c)
  let nan := v == Num.nan
  { elem := up m.elem true
    nz := up m.nz q.nonZero
    sat := up m.sat q.sat
    zl := up m.zl q.zeroLoss
    peakP := if nan then m.peakP else peakMax true m.peakP (peakCode true v)
    peakQ := if nan then m.peakQ else peakMax false m.peakQ (peakCode false v) }

/-- The range-monitor entry `e` of die `d` that the forme of context `c` owns (R207). -/
def State.monRec (s : State) (c d e : Nat) : Option MonRec :=
  match (s.ctx c).forme with
  | none => none
  | some f => f.mons.find? fun m => m.die == d && m.entry == e

/-- A core's impression number within the step (Table 2-8). -/
def State.impPos (s : State) (c : Nat) : Nat := s.fget (F.CTX_IMP_IMP_POS c)

end Sys2Proof.Machine
end

