-- ==== Sys2Proof/Machine/Cells.lean ====
section
/-!
DEFINITION. Cells and requests: the cell format and check value (R244 to R249), port states and spares (R237, R255),
routing (R253, R254), link frames (R240 to R242), the peer table (R247) and requests with their re-sending (R251, R252).
-/

namespace Sys2Proof.Machine

/-! ### The cell format -/

/-- A cell's header fields (Table 8-3), payload and check value. -/
structure Cell where
  type : Nat
  tc : Nat
  resync : Bool
  dst : Nat
  src : Nat
  seq : Nat
  ctx : Nat
  valid : Nat
  last : Bool
  addr : Nat
  payload : List Byte
  deriving DecidableEq, Repr

def tyWrite : Nat := 1
def tyReadReq : Nat := 2
def tyReadData : Nat := 3
def tyAck : Nat := 4
def tyQupd : Nat := 5
def tyBucket : Nat := 6
def tyTick : Nat := 8
def tyDelayReq : Nat := 9
def tyDelayResp : Nat := 10
def tySlipReq : Nat := 11
def tyMembership : Nat := 12
def tyLeaving : Nat := 13

/-- Control types carry no epoch and no sequence number (Table 8-4). -/
def isControl (t : Nat) : Bool := decide (8 ≤ t)

/-- R245: whether TYPE and TC are encodings. -/
def typeOk (t tc : Nat) : Bool := !([0, 7, 14, 15].contains t) && decide (t < 16) && tc != 2 && tc != 3

/-- The header as bytes. -/
def Cell.header (c : Cell) : List Byte :=
  leBytes 16 (c.type * 2 ^ 124 + c.tc * 2 ^ 121 + b2n c.resync * 2 ^ 120 + c.dst % 2 ^ 24 * 2 ^ 96 + c.src % 2 ^ 24 * 2 ^ 72
    + c.seq % 2 ^ 24 * 2 ^ 48 + c.ctx % 8 * 2 ^ 45 + c.valid % 4 * 2 ^ 43 + b2n c.last * 2 ^ 42 + c.addr % 2 ^ 42)

/-- Header and payload: 272 bytes, payload bytes beyond VALID being 0 (R244). -/
def Cell.body (c : Cell) : List Byte := c.header ++ slice (c.payload.take (64 * (c.valid + 1))) 0 256

/-- fold_of (R249). -/
def foldOf (fab addr seq : Nat) : Nat := crc32c (leBytes 3 fab ++ leBytes 6 addr ++ leBytes 3 seq)

/-- addr_of (R249): the device address a cell names, 0 for the types that name none. -/
def Cell.devAddr (c : Cell) : Nat :=
  if c.type = tyWrite ∨ c.type = tyReadReq ∨ c.type = tyReadData ∨ c.type = tyBucket then 64 * c.addr else 0

/-- The 280 bytes of a cell with the check value of R249 under epoch `ep`. -/
def Cell.bytes (c : Cell) (ep : Nat) : List Byte :=
  let f := foldOf c.dst c.devAddr c.seq
  c.body ++ leBytes 4 (crc32cSeeded f c.body) ++ leBytes 4 (if isControl c.type then f else f ^^^ ep)

/-- The header fields of received bytes. -/
def Cell.parse (l : List Byte) : Cell :=
  let h := leAt l 0 16
  { type := bits h 127 124, tc := bits h 123 121, resync := bit h 120, dst := bits h 119 96, src := bits h 95 72
    seq := bits h 71 48, ctx := bits h 47 45, valid := bits h 44 43, last := bit h 42, addr := bits h 41 0
    payload := slice l 16 256 }

/-- Whether bytes `o` and up of a payload are 0. -/
def zeroFrom (pl : List Byte) (o : Nat) : Bool := (pl.drop o).all (· == 0)

/-- Table 8-5: whether a payload of type `ty` holds only the encodings that the table gives it, 0 elsewhere. -/
def payloadOk (ty : Nat) (pl : List Byte) : Bool :=
  let b := fun o => leAt pl o 1
  match ty with
  | 2 => b 0 % 64 == 0 && decide (b 6 < 32) && decide (b 7 < 8) && zeroFrom pl 8
  | 4 => decide (b 3 < 5) && zeroFrom pl 7
  | 5 => decide (512 ≤ leAt pl 0 2 % 1024) && decide (leAt pl 0 2 < 4096) && zeroFrom pl 6
  | 8 =>
    decide (b 6 < 8) && b 7 == 0 && decide (b 19 ≤ 112) && leAt pl 29 3 == 0 && zeroFrom pl (32 + 2 * b 19)
      && (bit (b 6) 1 || leAt pl 20 9 == 0)
  | 9 => zeroFrom pl 8
  | 10 => zeroFrom pl 24
  | 11 => decide (b 8 < 4) && zeroFrom pl 9
  | 12 =>
    decide (b 4 < 16) && decide (b 5 < 2) && decide (b 6 ≤ 40) && decide (b 7 ≤ 40)
      && zeroFrom (pl.take 128) (8 + 3 * b 6) && zeroFrom pl 248 && zeroFrom (pl.take 248) (128 + 3 * b 7)
  | 13 => decide (1 ≤ b 4 ∧ b 4 ≤ 5) && zeroFrom pl 5
  | _ => true

/-- R10, R11, R244, R246: whether a cell holds no reserved encoding: bytes beyond VALID, the header fields that its type leaves
at 0, and its payload. -/
def Cell.ok (c : Cell) : Bool :=
  let names : Bool := [tyWrite, tyReadReq, tyReadData, tyBucket].contains c.type
  zeroFrom c.payload (64 * (c.valid + 1)) && (names || c.addr == 0) && (names || c.type == tyQupd || c.ctx == 0)
    && (!isControl c.type || c.seq == 0) && payloadOk c.type c.payload

/-- The payload bytes in use (VALID). -/
def Cell.used (c : Cell) : List Byte := c.payload.take (64 * (c.valid + 1))

/-- VALID for `n` payload bytes. -/
def validFor (n : Nat) : Nat := Nat.min 3 ((n + 63) / 64 - 1)

/-! ### Ports (R237 to R239, R255) -/

def portDisabled : Nat := 0
def portTraining : Nat := 1
def portActive : Nat := 2
def portSpare : Nat := 3
def portHold : Nat := 4
def portFailed : Nat := 5

def State.portState (s : State) (p : Nat) : Nat := s.fget (F.FAB_PORT_STAT_STATE (p / 24) (p % 24))
def State.link (s : State) (p : Nat) : Link := s.links.get Link.reset p
def State.modLink (s : State) (p : Nat) (f : Link → Link) : State := { s with links := s.links.set p (f (s.link p)) }

/-- R237: a port's state, and the count of active ports that the capability registers report. -/
def State.setPort (s : State) (p v : Nat) : State :=
  let s := s.fset (F.FAB_PORT_STAT_STATE (p / 24) (p % 24)) v
  s.fset F.MGT_CAP_SUM_ACTIVE_PORTS ((List.range 48).filter fun q => s.portState q == portActive).length

/-- The port whose role `q` holds as a stand-in (R255). -/
def State.standsFor (s : State) (q : Nat) : Option Nat :=
  if s.fget (F.FAB_PORT_STAT_SUBST_VALID (q / 24) (q % 24)) = 1 then
    some (s.fget (F.FAB_PORT_STAT_SUBST_FOR (q / 24) (q % 24))) else none

/-- Whether a port carries cells of class `tc`: while ACTIVE, and in HOLD for TC6 and TC7. -/
def State.carries (s : State) (tc p : Nat) : Bool :=
  s.portState p == portActive || (s.portState p == portHold && decide (6 ≤ tc))

/-- The port that serves mask bit `p` for a cell of class `tc`: its stand-in while there is one (R255), else itself. -/
def State.serves (s : State) (tc p : Nat) : Option Nat :=
  match (List.range 48).find? fun q => s.carries tc q && s.standsFor q == some p with
  | some q => some q
  | none => if s.carries tc p then some p else none

/-- Something sent out of the module. -/
def State.emitOut (s : State) (c : Chan) (u : Nat) (d : List Byte) : State := { s with out := s.out ++ [⟨c, u, d⟩] }

/-- Link control words (R240, R238, R255), as the model writes them: a code and a 16-bit argument. -/
def wordAck : Nat := 1
def wordNak : Nat := 2
def wordActivate : Nat := 3
def wordTrain : Nat := 4
def State.word (s : State) (p code arg : Nat) : State :=
  s.emitOut .word p (leBytes 1 code ++ leBytes 2 arg)

/-! ### Link frames (R240 to R242) -/

/-- A frame's 288 bytes: cell and trailer. -/
def frameBytes (cell : List Byte) (lseq credit : Nat) : List Byte :=
  let hi := lseq % 4096 * 2 ^ 20 + credit % 65536
  cell ++ leBytes 4 (crc32 (cell ++ leBytes 4 hi)) ++ leBytes 4 hi

/-- Whether a cell of class `tc` may leave by port `p` now: the port carries the class (R237), the class has a credit and the
replay buffer has room (R241, R242). -/
def State.linkOpen (s : State) (p tc : Nat) : Bool :=
  let l := s.link p
  s.carries tc p && decide (l.replay.length < 1024) && decide (0 < l.credits.getD tc 0)

/-- R251: a cell that leaves now starts the 50 µs of the request that it is the LAST cell of. -/
def State.cellLeaves (s : State) (cell : List Byte) : State :=
  let c := Cell.parse cell
  { s with xfers := s.xfers.map fun x =>
      if isControl c.type = false ∧ x.fab = c.dst ∧ x.tc = c.tc ∧ (x.seq + x.cells) % 2 ^ 24 = (c.seq + 1) % 2 ^ 24
      then { x with sentAt := s.timeUs } else x }

/-- R241, R242: a cell leaves at once where it may, else it waits; none overtakes a cell of its class that waits. -/
def State.linkSend (s : State) (p tc : Nat) (cell : List Byte) : State :=
  if s.linkOpen p tc && (s.link p).waiting.all (fun w => w.1 != tc) then
    let l := s.link p
    let cr := (Config.creditField l.give).toNat
    ((s.modLink p fun l => { l with
      txSeq := (l.txSeq + 1) % 4096
      credits := listSet l.credits tc (l.credits.getD tc 0 - 1)
      give := List.replicate 8 0
      replay := l.replay ++ [⟨l.txSeq, tc, cell, 1, cr⟩]
      quietAt := if l.replay.isEmpty then s.timeUs else l.quietAt }).cellLeaves cell).emitOut .cell p (frameBytes cell l.txSeq cr)
  else s.modLink p fun l => { l with waiting := l.waiting ++ [(tc, cell)] }

def State.fenced (s : State) : Bool := decide (s.fget F.FAB_MEMB_STAT_FENCED = 1)

/-- Cells that wait leave in order while credits last; a fenced module drops its data cells (R260). -/
def State.linkDrain (s : State) (p : Nat) : State :=
  let w := (s.link p).waiting
  (w.filter fun x => isControl (Cell.parse x.2).type || !s.fenced).foldl (fun s x => s.linkSend p x.1 x.2)
    (s.modLink p fun l => { l with waiting := [] })

/-! ### Routing (R253, R254) -/

/-- R253: the valid entry with the longest matching prefix, the lowest-numbered on a tie. -/
def State.routeFor (s : State) (dst : Nat) : Option Route :=
  s.routes.entries.foldl (fun best e =>
    let r := e.2
    if r.valid && decide (dst / 2 ^ (24 - r.len) = r.prefx / 2 ^ (24 - r.len)) then
      match best with
      | none => some r
      | some b => if b.len < r.len then some r else best
    else best) none

/-- R253: the port by which a cell leaves. -/
def State.portFor (s : State) (dst tc : Nat) : Option Nat :=
  match s.routeFor dst with
  | none => none
  | some r =>
    let ps := ((List.range 48).filter (bit r.mask)).filterMap (s.serves tc)
    let h := crc32c (leBytes 3 (s.fget F.FAB_SELF_FAB) ++ leBytes 3 dst ++ leBytes 1 tc) % 65536
    if ps.isEmpty then none else ps[h % ps.length]?

/-- A cell sent from this module; the second value is false where no port serves it (R254). A fenced module sends no
data cells (R260). -/
def State.sendCell (s : State) (c : Cell) : State × Bool :=
  if isControl c.type = false ∧ s.fenced = true then (s, true)
  else match s.portFor c.dst c.tc with
    | none => (s.raise 0x050D none 0 [c.dst], false)
    | some p =>
      (s.linkSend p c.tc ({ c with src := s.fget F.FAB_SELF_FAB }.bytes (s.rget R.FAB_MEMB_EPOCH)), true)

/-- A control cell with the given payload. -/
def State.sendControl (s : State) (type tc dst : Nat) (pl : List Byte) : State :=
  (s.sendCell ⟨type, tc, false, dst, 0, 0, 0, validFor pl.length, true, 0, pl⟩).1

/-! ### The peer table (R247) -/

def State.peer (s : State) (fab : Nat) : Option Peer := s.peers.find? fun p => p.fab == fab
def State.modPeer (s : State) (fab : Nat) (f : Peer → Peer) : State :=
  { s with peers := s.peers.map fun p => if p.fab = fab then f p else p }

def TxFlow.new : TxFlow := ⟨0, true, 0⟩
def RxFlow.new : RxFlow := ⟨0, true, none, none⟩
def Peer.new (fab : Nat) : Peer := ⟨fab, .valid, .empty, .empty⟩
def State.peerValid (s : State) (fab : Nat) : Bool := (s.peer fab).any fun p => p.st == .valid

/-- The next SEQ of a flow, and whether its cell carries RESYNC. -/
def State.nextSeq (s : State) (fab tc : Nat) : State × Nat × Bool :=
  let t := ((s.peer fab).map fun p => p.tx.get TxFlow.new tc).getD TxFlow.new
  (s.modPeer fab fun p => { p with tx := p.tx.set tc { t with seq := (t.seq + 1) % 2 ^ 24, resync := false } },
    t.seq, t.resync)

/-- The next cell of a flow carries RESYNC. -/
def State.resyncTx (s : State) (fab tc : Nat) : State :=
  s.modPeer fab fun p => { p with tx := p.tx.set tc { p.tx.get TxFlow.new tc with resync := true } }

/-- A data cell that is no request: an ACK or READ_DATA. -/
def State.sendData (s : State) (type tc fab ctx addr : Nat) (last : Bool) (pl : List Byte) : State :=
  if s.peerValid fab then
    let (s, q, r) := s.nextSeq fab tc
    (s.sendCell ⟨type, tc, r, fab, 0, q, ctx, validFor pl.length, last, addr / 64, pl⟩).1
  else s

/-- An ACK of the cell with SEQ `seq` (Table 8-5). -/
def State.sendAck (s : State) (fab seq status expect : Nat) : State :=
  s.sendData tyAck 5 fab 0 0 true (leBytes 3 seq ++ leBytes 1 status ++ leBytes 3 expect)

/-! ### Requests (R246, R251, R252) -/

/-- The cells of a request: type, landing address and payload. -/
def Xfer.cellList (x : Xfer) : List (Nat × Nat × List Byte) :=
  match x.kind with
  | .read => [(tyReadReq, x.addr, leBytes 6 x.ret ++ leBytes 1 ((x.len + 63) / 64 - 1) ++ leBytes 1 x.ctx)]
  | .qupd => [(tyQupd, 0, x.data)]
  | .write => ((List.range (Nat.max 1 ((x.data.length + 255) / 256))).map fun i =>
      (tyWrite, x.addr + 256 * i, (x.data.drop (256 * i)).take 256))
  | .bucket => ((List.range (Nat.max 1 ((x.data.length + 255) / 256))).map fun i =>
      (tyBucket, x.addr + 256 * i, (x.data.drop (256 * i)).take 256))

/-- Whether `q` is one of a request's SEQs. -/
def Xfer.covers (x : Xfer) (q : Nat) : Bool := decide ((q + 2 ^ 24 - x.seq) % 2 ^ 24 < x.cells)

/-- A request ends as `e`; its owner learns of it when the command settles its ended requests. -/
def State.endXfer (s : State) (x : Xfer) (e : XEnd) : State :=
  { s with xfers := s.xfers.filter fun y => y.id != x.id, ended := s.ended ++ [(x, e)] }

/-- R252: a failed request is counted and reported; the event names the peer, and a cause where there is one (R262). -/
def State.failXferFor (s : State) (x : Xfer) (cause : List Nat) : State :=
  ((s.fadd F.FAB_XFER_FAIL_COUNT 1).raise 0x0507 (some x.ctx) 0 (x.fab :: cause)).endXfer x .failed

def State.failXfer (s : State) (x : Xfer) : State := s.failXferFor x []

/-- The cells of request `x` sent in order; `seqs` are the SEQs to keep (R251), none for fresh ones. False where no
port serves them. -/
def State.sendCells (s : State) (x : Xfer) (first : Bool) (keep : Bool) : List (Nat × Nat × List Byte) → Nat → State × Bool
  | [], _ => (s, true)
  | (ty, a, pl) :: r, i =>
    let (s, q, rs) :=
      if keep then (s, (x.seq + i) % 2 ^ 24, first && decide (i = 0)) else
        let n := s.nextSeq x.fab x.tc
        (n.1, n.2.1, n.2.2 || (first && decide (i = 0)))
    let (s, ok) := s.sendCell ⟨ty, x.tc, rs, x.fab, 0, q, x.dctx, validFor pl.length, r.isEmpty, a / 64, pl⟩
    if ok then s.sendCells x first keep r (i + 1) else (s, false)

/-- A request is sent, for the first time or, after BUSY, with fresh sequence numbers (R228): it is the last of its flow. -/
def State.emit (s : State) (x : Xfer) (resync : Bool) : State :=
  if s.peerValid x.fab then
    let cells := x.cellList
    let t := ((s.peer x.fab).map fun p => p.tx.get TxFlow.new x.tc).getD TxFlow.new
    let y := { x with seq := t.seq, cells := cells.length, sentAt := s.timeUs, busy := false, resent := false, got := [] }
    let (s, ok) := s.sendCells y resync false cells 0
    if ok then { s with xfers := s.xfers.filter (fun z => z.id != y.id) ++ [y] } else s.failXfer y
  else s.failXfer x

/-- Where a request comes from: the context whose routes it takes (R15), and the die, 4 or 5 for an edge die. -/
def State.cameFrom (s : State) (x : Xfer) : Option Nat × Option Nat :=
  match x.owner with
  | .desc g _ _ => (some x.ctx, some (g / 32))
  | .unit c b _ _ _ _ _ _ _ => (some c, ((s.ctx c).forme.bind fun f => f.slots.buckets[b]?).map fun d => 4 + d.rdx / 2)
  | _ => (none, none)

/-- A new request: `x`'s number, SEQs and times are set here. Its cells cross to the edge die of their port. -/
def State.request (s : State) (x : Xfer) (resync : Bool) : State :=
  let y := { x with id := s.nextXfer, busySince := none }
  let from_ := s.cameFrom x
  let s := s.crossed from_.1 from_.2 ((s.portFor x.fab x.tc).map fun p => 4 + p / 24)
  ({ s with nextXfer := s.nextXfer + 1, xfers := s.xfers ++ [y] }).emit y resync

/-- A request from its parts. -/
def mkXfer (kind : XKind) (owner : Owner) (fab tc ctx dctx addr : Nat) (data : List Byte) (ret len : Nat) : Xfer :=
  ⟨0, fab, tc, ctx, dctx, kind, addr, data, ret, len, owner, 0, 0, false, false, none, 0, []⟩

/-- R251: one request of a flow sent again under its own SEQs; `prev` is the SEQ after the cell sent before it. -/
def State.resendOne (s : State) (x : Xfer) (prev : Option Nat) : State :=
  let y := { x with resent := true, sentAt := s.timeUs, got := [] }
  let (s, ok) := s.sendCells y (prev != some x.seq) true y.cellList 0
  if ok then { s with xfers := s.xfers.map fun z => if z.id = y.id then y else z } else s.failXfer y

/-- R251: request `x` and every later unacknowledged request of its flow that has not been re-sent; a request that was
re-sent before has failed. The flow's next new cell carries RESYNC where it does not follow the last re-sent cell. -/
def State.resend (s : State) (x : Xfer) : State :=
  if x.resent then s.failXfer x
  else
    let l := (s.xfers.dropWhile fun y => y.id != x.id).filter fun y => y.fab == x.fab && y.tc == x.tc && !y.resent && !y.busy
    let r := l.foldl (fun (a : State × Option Nat) y => (a.1.resendOne y a.2, some ((y.seq + y.cells) % 2 ^ 24))) (s, none)
    let t := ((r.1.peer x.fab).map fun p => p.tx.get TxFlow.new x.tc).getD TxFlow.new
    if r.2 = some t.seq then r.1 else r.1.resyncTx x.fab x.tc

/-- R228: the state of a request after a BUSY answer. -/
def State.busyXfer (s : State) (x : Xfer) : State :=
  let y := { x with busy := true, busySince := some (x.busySince.getD s.timeUs), sentAt := s.timeUs }
  { s with xfers := s.xfers.map fun z => if z.id = y.id then y else z }

/-- Every outstanding request to `fab` ends under R252, with a cause where there is one. -/
def State.failPeer (s : State) (fab : Nat) (cause : List Nat) : State :=
  (s.xfers.filter fun x => x.fab == fab).foldl (fun s x => s.failXferFor x cause) s

/-- A remote quoin update (R154): its flow's next UPD_ID is taken. -/
def State.sendQupd (s : State) (fab ctx dctx die quoin inc : Nat) : State :=
  let t := ((s.peer fab).map fun p => p.tx.get TxFlow.new 5).getD TxFlow.new
  let s := s.modPeer fab fun p => { p with tx := p.tx.set 5 { t with upd := (t.upd + 1) % 65536 } }
  s.request (mkXfer .qupd .quoin fab 5 ctx dctx 0 (leBytes 2 (quoin % 1024 + die % 4 * 1024) ++ leBytes 2 inc ++ leBytes 2 t.upd) 0 0)
    false

/-- R262: LEAVING with `reason` to FAB_MGR and every VALID peer, over the ports in service in turn. -/
def State.sendLeaving (s : State) (reason : Nat) : State :=
  let pl := leBytes 4 (s.rget R.FAB_MEMB_EPOCH) ++ leBytes 1 reason
  let ps := (List.range 48).filter (s.carries 6)
  let to_ := (if s.fget F.FAB_MGR_VALID = 1 then [s.fget F.FAB_MGR_FAB] else [])
    ++ (s.peers.filter fun p => p.st == .valid).map (·.fab)
  ((List.range to_.length).zip to_).foldl (fun s x =>
    match ps[x.1 % ps.length]? with
    | none => s
    | some p => s.linkSend p 6 (Cell.bytes ⟨tyLeaving, 6, false, x.2, s.fget F.FAB_SELF_FAB, 0, 0, validFor pl.length, true, 0, pl⟩
        (s.rget R.FAB_MEMB_EPOCH))) s

end Sys2Proof.Machine
end

