-- ==== Sys2Proof/Machine/CtxOps.lean ====
section
/-!
DEFINITION. Shared operations on contexts: completion and step records (R395, R397), the cores a context occupies
(R213), the start of a step and of an impression (R105, R177, R184, R212), arrivals for a context (R218, R225, R232) and
teardown (R231).
-/

namespace Sys2Proof.Machine

/-! ### Records (R395 to R397) -/

def stOk : Nat := 0
def stBadState : Nat := 1
def stRefused : Nat := 2
def stBadCommand : Nat := 3
def stCoresBusy : Nat := 4
def stMgmtUnavailable : Nat := 5
def stTornDown : Nat := 6
def stFaulted : Nat := 7
def stScheduleBreak : Nat := 8
def stMemberLost : Nat := 9
def stWeights : Nat := 10
def stImposition : Nat := 11
def stMigrateFailed : Nat := 12
def stOutOfService : Nat := 13
def stFetchFailed : Nat := 14
def stNotFound : Nat := 15

/-- R382, R27: whether the plane at which queue pairs of a kind terminate is up: the management plane for kind 0, the control
plane for kind 1. -/
def State.planeUp (s : State) (kind : Nat) : Bool :=
  s.fget (if kind = 0 then F.MGT_PLANE_STAT_MGMT_DOWN else F.MGT_PLANE_STAT_CTRL_DOWN) == 0

/-- R397: event 0x0A04 is raised once per filling of the context's backlog. -/
def State.noteBacklog (s : State) (c : Nat) : State :=
  if 64 ≤ (s.ctx c).backlog.length ∧ (s.ctx c).backlogFull = false then
    (s.modCtx c fun x => { x with backlogFull := true }).raise 0x0A04 (some c) 0 []
  else s

/-- R397: a record joins the context's backlog. -/
def State.pushRec (s : State) (c : Nat) (r : Rec) : State :=
  (s.modCtx c fun x => { x with backlog := x.backlog ++ [{ r with tick := s.tick }] }).noteBacklog c

/-- R397: a full backlog keeps the context from taking a command and from launching a step. -/
def State.backlogBlocks (s : State) (c : Nat) : Bool := decide (64 ≤ (s.ctx c).backlog.length)

def State.ring (s : State) (c r : Nat) : Ring := (s.ctx c).rings.getD r Ring.empty
def State.modRing (s : State) (c r : Nat) (f : Ring → Ring) : State :=
  s.modCtx c fun x => { x with rings := listSet x.rings r (f (x.rings.getD r Ring.empty)) }

/-- R391, R395: the command in hand of ring `r` completes. A held command leaves the count of R26. -/
def State.complete (s : State) (c r status detail value : Nat) : State :=
  match (s.ring c r).cur with
  | none => s
  | some k =>
    let s := if k.stage = .heldMgmt then s.fset F.MGT_PLANE_STAT_HELD_CMDS (s.fget F.MGT_PLANE_STAT_HELD_CMDS - 1) else s
    (s.modRing c r fun g => { g with cur := none }).pushRec c ⟨1, k.opc, r, status, k.tag, 0, detail, 0, 0, value⟩

/-- Every command in hand of context `c` with OPC `opc` whose action is under way completes. -/
def State.completeAll (s : State) (c opc status : Nat) : State :=
  (List.range 4).foldl (fun s r =>
    match (s.ring c r).cur with
    | some k => if k.opc = opc ∧ k.stage = .active then s.complete c r status 0 0 else s
    | none => s) s

/-- Commands of context `c` that wait for cores complete with `status`. -/
def State.completeWaiting (s : State) (c status : Nat) : State :=
  (List.range 4).foldl (fun s r => match (s.ring c r).cur with
    | some k => if k.stage = .waitCores then s.complete c r status 0 0 else s
    | none => s) s

def State.setStage (s : State) (c r : Nat) (st : CmdStage) : State :=
  s.modRing c r fun g => { g with cur := g.cur.map fun k => { k with stage := st, since := s.timeUs } }

/-- R395: the step record of the step that ends (Table 13-7). -/
def State.stepRecord (s : State) (c status : Nat) : State :=
  let x := s.ctx c
  s.pushRec c ⟨2, 3, x.stepRing, status, x.stepTag, x.step, 0,
    b2n x.suspect + 2 * b2n x.rangeFlag + 4 * x.outcome, 0, 0⟩

/-! ### Cores -/

/-- The cores of context `c`'s chases. -/
def State.chaseCoresOf (s : State) (c : Nat) : List Nat :=
  match (s.ctx c).forme with
  | none => []
  | some f => f.coreList

/-- R213: whether every core of the chases is free of other occupants. -/
def State.coresFree (s : State) (c : Nat) : Bool :=
  (s.chaseCoresOf c).all fun g => match s.occupant g with | none => true | some d => d == c

/-- VXE_STAT.FROZEN and XFE_STAT.FROZEN of core `g` clear. -/
def State.thawCore (s : State) (g : Nat) : State :=
  (s.fsetIf (s.fget (F.VXE_STAT_FROZEN g) == 1) (F.VXE_STAT_FROZEN g) 0).fsetIf (s.fget (F.XFE_STAT_FROZEN g) == 1)
    (F.XFE_STAT_FROZEN g) 0

/-- R213: core `g` is context `c`'s. NO_PARTNER tells whether the chase it now runs has one core (R90). A freeze that a core
reset has left, its context being torn down, is none of the new occupant's (DEDUCED, assumption 103). -/
def State.occupy (s : State) (c g : Nat) : State :=
  let s := s.thawCore g
  let alone := b2n (((s.chaseCoresOf c).filter fun h => h / 32 == g / 32).length == 1)
  ((s.fset (F.CORE_RES_OCCUPIED g) 1).fset (F.CORE_RES_CTX g) c).fset (F.MXE_CHK_STAT_NO_PARTNER g) alone
def State.release (s : State) (g : Nat) : State := s.fset (F.CORE_RES_OCCUPIED g) 0
def State.releaseAll (s : State) (c : Nat) : State := (s.occupied c).foldl State.release s

/-- R213, R212: the cores of a context that stops between steps are free again. -/
def State.idleCores (s : State) (c : Nat) : State := s.releaseAll c

/-- LS and OC of core `g` zeroed, with their upsets and those of its ACF. -/
def State.zeroSram (s : State) (g : Nat) : State :=
  { s with mem := memClear (memClear s.mem (lsBase g) 0x400000) (ocBase g) 0x40000
           ecc := s.ecc.dropIf fun a => sramOf a == some (.core g) }

/-- R184: the program of core `g` copied from the forme area into the program region. The second value is false when
the forme area cannot be read, which faults the context at the caller (R167, R233). -/
def State.copyProgram (s : State) (c g : Nat) : State × Bool :=
  match (s.ctx c).forme with
  | none => (s, true)
  | some f =>
    match f.slotOf g with
    | none => (s, true)
    | some slot =>
      match f.progs.find? fun p => p.die == g / 32 && p.slot == slot with
      | none => (s, true)
      | some p =>
        let (s, ok) := s.checkRead (f.area.base + p.off) (4 * p.nWords) (some c)
        if ok then ((s.memWrite (lsBase g + p.lsOff) (s.bytes (f.area.base + p.off) (4 * p.nWords)) (some c)).1, true)
        else (s, false)

/-- R145: the fills of core `g`'s reads that are in flight end with them. -/
def State.dropFills (s : State) (g : Nat) : State :=
  { s with dies := s.dies.map fun _ d => { d with fills := d.fills.filter fun f => f.core != g } }

/-- R212: the engines' work on core `g` is gone, with the requests that the descriptors of context `c` sent from there. Those
of another context, which may be saved, stay outstanding (R220). -/
def State.blankCore (s : State) (c g : Nat) : State :=
  let mine := fun (x : Xfer) => match x.owner with | .desc h _ _ => h == g && x.ctx == c | _ => false
  ({ s with xfers := s.xfers.filter (fun x => !mine x), ended := s.ended.filter fun e => !mine e.1 }.dropFills g).modCore g
    Core.blank

/-- R212, R184: core `g` at the start of a step: nothing carries over, and the program is copied. -/
def State.freshCore (s : State) (c g : Nat) : State :=
  let s := ((s.zeroSram g).blankCore c g).modCore g fun k => { k with mxeAt := s.timeUs, vxeAt := s.timeUs, xfeAt := s.timeUs }
  match s.copyProgram c g with
  | (s, true) => s
  | (s, false) => s.ctxFault c 0x0302 g

/-- The eight thread entries of core `g` in an impression record (R177). -/
def Forme.startsOf (f : Forme) (r : ImpRec) (g : Nat) : List Nat := (r.starts.drop (8 * f.coreList.idxOf g)).take 8

/-- R105, R106: an impression's threads start on core `g`. -/
def State.startThreads (s : State) (f : Forme) (r : ImpRec) (g : Nat) : State :=
  let e := f.startsOf r g
  s.modCore g fun k =>
    let ts := (List.range 8).filter fun t => e.getD t 0xFFFFFFFF != 0xFFFFFFFF
    { k with
      thr := ((List.range 8).zip k.thr).map fun p =>
        if ts.contains p.1 then { p.2 with st := .run, pc := e.getD p.1 0, arg := 0, val := 0 }
        else { p.2 with st := .idle }
      started := ts
      impDone := false
      replays := 0
      thrAt := List.replicate 8 s.timeUs }

/-- The impression record in progress: the schedule's, or its retry path's. -/
def State.impRec (s : State) (c : Nat) : Option ImpRec :=
  match (s.ctx c).forme with
  | none => none
  | some f =>
    let x := s.ctx c
    match f.imps[x.pos.imp]? with
    | none => none
    | some r => if x.pos.retry then f.retries[r.retryIdx]? else some r

/-- R106, R80: whether core `g` has finished its impression: its threads have ended, and so have the matrix and vector
instructions they issued, a monitor flush on its way among them. -/
def State.coreDone (s : State) (g : Nat) : Bool :=
  let k := s.core g
  k.started.all (fun t => ((k.thr.getD t Thread.idle).st == .ended)) && k.vq.isEmpty && k.tiles.isEmpty
    && k.xm.isEmpty && k.mx.isNone && !s.dies.entries.any (fun d => d.2.flushes.any fun f => f.core == g)
    && k.groups.all fun x => x.st == .parked

/-! ### Resets (R358, R371) -/

/-- The cores that a reset, or the capture before it, stops (Table 12-4). -/
def State.coresHit (s : State) : ResetAct → List Nat
  | .ctxDown c => s.occupied c
  | .core g => [g]
  | .die d => (List.range 32).map fun c => 32 * d + c
  | _ => s.cores.keys

/-- R231, R371: whether the capture under way holds units of context `c`. -/
def State.captureOn (s : State) (c : Nat) : Bool :=
  match s.rst.capture with
  | none => false
  | some k => (s.coresHit k.act).any fun g => s.occupant g == some c

/-! ### Launch clocks (R195) -/

/-- The voltage that matches a clock, from 0.60 V to 0.85 V (R425). -/
def railMv (mhz : Nat) : Nat := Nat.max 600 (Nat.min 850 (Config.railMv mhz).toNat)

/-- VDD_CDd at `mv` mV. -/
def State.setCdRail (s : State) (d mv : Nat) : State :=
  { s with pwr := { s.pwr with rails := { s.pwr.rails with cd := listSet s.pwr.rails.cd d mv } } }

/-- R425: the clock of die `d` and its matching VDD_CDd. -/
def State.setClock (s : State) (d mhz : Nat) : State :=
  (s.fset (F.PWR_DIE_CLK_MHZ d) mhz).setCdRail d (railMv mhz)

/-- The largest FLOOR_MHZ of the formes running on die `d`; 0 when none runs there (R195). -/
def State.floorMhz (s : State) (d : Nat) : Nat :=
  ((List.range 8).filter fun c => s.ctxState c == ctxRunning).foldl (fun m c => match (s.ctx c).forme with
    | some f => if (f.chaseOf d).ncores = 0 then m else Nat.max m f.floorMhz
    | none => m) 0

/-- R195: no die runs below the floor of a forme that launches, THROTTLE_N apart. -/
def State.launchClocks (s : State) : State :=
  (List.range 4).foldl (fun s d =>
    let fl := s.floorMhz d
    let now := s.fget (F.PWR_DIE_CLK_MHZ d)
    let s := s.fset (F.PWR_DIE_FLOOR_MHZ d) fl
    if fl ≤ now ∨ s.fget F.PWR_STAT_THROTTLED = 1 ∨ bit (s.fget F.MGT_CAP_SUM_CD_PRESENT) d = false
        ∨ s.pwr.tripped.contains d = true then s
    else s.setClock d fl) s

/-! ### Layout of memory landings -/

/-- Bytes landed by the fabric, a command or an engine: the write, and the sum blocks it touches (R74). A line of the OC that
the matrix engine holds takes it too (DESIGN CHOICE, assumption 101). -/
def State.landBytes (s : State) (a : Nat) (l : List Byte) (ctx : Option Nat) : State × Bool :=
  let (s, ok) := s.memWrite a l ctx
  match place a with
  | .oc g => (s.clearSums g (a - ocBase g) l.length, ok)
  | _ => (s, ok)

/-- Bytes landed by an engine of context `c`; a memory block that could not be merged faults it (R453). -/
def State.landFor (s : State) (c g a : Nat) (l : List Byte) : State :=
  let p := s.landBytes a l (some c)
  if p.2 then p.1 else p.1.accessFault c a g

/-! ### Arrivals (R216, R218, R225, R226, R232) -/

/-- What becomes of an arrival. -/
inductive Arrival where
  | land | landing | busy | window | noContext
  deriving DecidableEq, Repr

/-- STATUS of the ACK that answers it (Table 8-5). -/
def Arrival.status : Arrival → Nat
  | .land => 0 | .landing => 0 | .busy => 1 | .window => 2 | .noContext => 3

/-- Whether the context is stopped in one of the states of R225. -/
def State.stoppedCtx (s : State) (c : Nat) : Bool :=
  let v := s.ctxState c
  v == ctxSaving || v == ctxSaved || v == ctxRestoring || v == ctxMigrating

/-- Whether arrivals for core `g` of context `c` go to the landing buffer: from the stop tick until the core's replay has
completed (R225, R227). -/
def State.buffered (s : State) (c g : Nat) : Bool :=
  s.stoppedCtx c && ((s.ctx c).saved.any (·.core == g) || (s.ctx c).landing.any (·.core == g)
    || s.ctxState c != ctxRestoring)

/-- The 64-byte units of a landing-buffer entry (R226). -/
def landUnits (n : Nat) : Nat := (n + 63) / 64 + 1
def State.landFill (s : State) (c : Nat) : Nat :=
  (((s.ctx c).landing.filter fun e => e.kind != .ended).map fun e => landUnits e.data.length).sum

/-- R226: whether the landing buffer of context `c` has room for an arrival of `n` bytes. -/
def State.landRoom (s : State) (c n : Nat) : Bool :=
  match (s.ctx c).forme with
  | none => false
  | some f => decide (64 * (s.landFill c + landUnits n) ≤ f.landing)

/-- R218, R225, R232: the checks of an arriving access to [a, a+n) of context `c`. -/
def State.arrival (s : State) (c : Nat) (write : Bool) (a n : Nat) : Arrival :=
  let v := s.ctxState c
  if v = ctxFree ∨ v = ctxTearing ∨ v = ctxFaulted then .noContext
  else match (s.ctx c).forme with
    | none => .noContext
    | some f =>
      let core := fun (g off len : Nat) =>
        if off + n ≤ len ∧ f.coreList.contains g then
          if s.buffered c g then
            if write = false then Arrival.busy
            else if s.landRoom c n then .landing else .busy
          else if s.occupant g = some c then .land else .window
        else .window
      match place a with
      | .hbm _ => if f.inWindow write a n && s.inService a n then .land else .window
      | .lpx _ => if f.inWindow write a n && s.inService a n then .land else .window
      | .ls g => core g (a - lsBase g) 0x400000
      | .oc g => core g (a - ocBase g) 0x40000
      | .reserved => .window

/-- R226: an entry of the landing buffer. -/
def State.putLanding (s : State) (c : Nat) (e : LandEntry) : State :=
  let s := s.modCtx c fun x => { x with landing := x.landing ++ [e] }
  s.fset (F.CTX_LAND_FILL c) (s.landFill c)

/-- The core of an LS or OC address. -/
def coreOf (a : Nat) : Nat :=
  match place a with
  | .ls g => g
  | .oc g => g
  | _ => 0

/-- R218, R226: the destination's counts of a refused arrival; the first busy refusal of a stop is told. -/
def State.countRefusal (s : State) (c : Nat) : Arrival → State
  | .window => s.fadd (F.CTX_REMOTE_REF_WIN_CNT c) 1
  | .busy =>
    let s := s.fadd (F.CTX_REMOTE_REF_BUSY_CNT c) 1
    if s.stoppedCtx c ∧ (s.ctx c).busyTold = false then
      ((s.fset (F.CTX_STAT_BP c) 1).raise 0x0425 (some c) 0 []).modCtx c fun x => { x with busyTold := true }
    else s
  | _ => s

/-- A write arrival applied: landed, or kept in the landing buffer. -/
def State.applyArrival (s : State) (c : Nat) (r : Arrival) (a : Nat) (l : List Byte) : State :=
  match r with
  | .land => s.landFor c (coreOf a) a l
  | .landing => s.putLanding c ⟨.write, coreOf a, a, l, 0⟩
  | _ => s.countRefusal c r

/-! ### Multi-module groups (R186, R190) -/

/-- Whether a context's tick group spans modules: its imposition has another member (DEDUCED, assumption 24). -/
def State.spans (s : State) (c : Nat) : Bool :=
  match (s.ctx c).coll.imp with
  | none => false
  | some i => decide (1 < i.m)

/-! ### Teardown (R231) -/

/-- R149: the locked ways of a context unlocked and their lines invalidated. -/
def State.unlockWays (s : State) (c : Nat) : State :=
  (List.range 4).foldl (fun s d =>
    (List.range 20).foldl (fun s w =>
      let f := F.DC_WAYLOCK_WAY_OWNER d (w / 8) (w % 8)
      if s.fget f = c then
        (s.fset f 15).modDie d fun x => { x with lines := x.lines.filter fun l => l.way != w }
      else s) s) s

/-- R149: the first `n` shared ways of die `d`, or those that are left, locked to context `c` (a shared way reads 15), and their
lines invalidated (DEDUCED, assumption 27). -/
def State.lockWays (s : State) (c d n : Nat) : State :=
  let free := (List.range 20).filter fun w => 15 = s.fget (F.DC_WAYLOCK_WAY_OWNER d (w / 8) (w % 8))
  (free.take n).foldl (fun s w =>
    (s.fset (F.DC_WAYLOCK_WAY_OWNER d (w / 8) (w % 8)) c).modDie d fun x =>
      { x with lines := x.lines.filter fun l => l.way != w }) s

/-- The bytes of an area zeroed by teardown, with their upsets (R359). -/
def State.zeroArea (s : State) (a : Area) : State :=
  { s with mem := memClear s.mem a.base a.len
           ecc := s.ecc.dropIf fun x => decide (a.base ≤ x) && decide (x < a.base + a.len) }.snoop a.base a.len

/-- Registers of the Context domain that belong to context `c` return to their reset values (R12). -/
def State.resetCtxRegs (s : State) (c : Nat) : State :=
  { s with regs := s.regs.dropIf fun o =>
      (decide (0x1000 + 0x40 * c ≤ o) && decide (o < 0x1000 + 0x40 * c + 0x40)
        && !(o == R.CTX_FAULT c || o == R.CTX_TIME c))
      || (decide (0x1400 + 0x40 * c ≤ o) && decide (o < 0x1440 + 0x40 * c))
      || (decide (0x0C001000 + 0x10 * c ≤ o) && decide (o < 0x0C001010 + 0x10 * c)) }

/-- The fabric addresses that context `c`'s impositions name, in force and draining. -/
def State.namedBy (s : State) (c : Nat) : List Nat :=
  let k := (s.ctx c).coll
  ((k.imp.map (·.ranks)).getD []) ++ ((k.drain.map (·.imp.ranks)).getD [])

/-- R315: of the addresses `old` that an imposition named, those that none in force or draining names any longer leave the
peer table. -/
def State.prunePeers (s : State) (old : List Nat) : State :=
  let named := ((List.range 8).map s.namedBy).flatten
  { s with peers := s.peers.filter fun p => named.contains p.fab || !old.contains p.fab }

/-! ### The reduction engines' entries (R265) -/

def State.coll (s : State) (c : Nat) : Coll := (s.ctx c).coll
def State.modColl (s : State) (c : Nat) (f : Coll → Coll) : State := s.modCtx c fun x => { x with coll := f x.coll }

def State.slotsSec (s : State) (c : Nat) : SlotsSec := (((s.ctx c).forme).map (·.slots)).getD SlotsSec.empty
def State.desc? (s : State) (c b : Nat) : Option BucketDesc := (s.slotsSec c).buckets[b]?

def State.curEpoch (s : State) (c : Nat) : Nat := (((s.coll c).imp).map (·.iepoch)).getD 0

def Bucket.opened (b : Bucket) : Bool := b.st == .reduce || b.st == .gather

/-- R265: whether a bucket holds an entry of its engine: open, and not INVALID yet. -/
def Bucket.holds (b : Bucket) : Bool := b.opened && !b.bad

/-- RDX_STAT.OPEN of every engine, and OLD_OPEN of context `c`. -/
def State.countOpen (s : State) (c : Nat) : State :=
  let all := (List.range 8).map fun k => (s.coll k).buckets.filterMap fun b =>
    if b.holds then (s.desc? k b.idx).map (·.rdx) else none
  let s := (List.range 4).foldl (fun s k => s.fset (F.RDX_STAT_OPEN k) (all.flatten.count k)) s
  let e := s.curEpoch c
  s.fset (F.RDX_DRAIN_OLD_OPEN c) ((s.coll c).buckets.filter fun b => b.opened && b.iepoch != e).length

/-- R231 steps 2 to 5; a core that a reset took from the context thaws with its teardown (Table 12-1): core state, save area and landing buffer zeroed, resources released, the slot FREE. -/
def State.tearNow (s : State) (c : Nat) : State :=
  let gs := s.occupied c
  let s := gs.foldl (fun s g => (s.zeroSram g).blankCore c g) s
  let lost := (s.chaseCoresOf c).filter fun g => (s.occupant g).isNone
  let s := (gs ++ lost).foldl State.thawCore s
  let s := match (s.ctx c).forme with
    | none => s
    | some f => (f.save ++ [f.header, f.land]).foldl State.zeroArea s
  let s := match (s.ctx c).forme with
    | none => s
    | some f =>
      { s with dies := s.dies.map fun d x => { x with
          quoin := x.quoin.dropIf fun q => f.quoins.any fun r => r.die == d && r.num == q
          mon := x.mon.dropIf fun e => f.mons.any fun r => r.die == d && r.entry == e
          flushes := x.flushes.filter fun y => !gs.contains y.core } }
  let s := (s.unlockWays c).releaseAll c
  let x := s.ctx c
  let named := s.namedBy c
  let keep : Ctx := { Ctx.reset with
    rings := x.rings, lastRing := x.lastRing, crAddr := x.crAddr, crRkey := x.crRkey, crCfg := x.crCfg, crCi := x.crCi
    crK := x.crK, crQp := x.crQp, backlog := x.backlog, backlogFull := x.backlogFull }
  let s := { (s.setCtx c keep) with
    xfers := s.xfers.filter fun y => y.ctx != c
    ended := s.ended.filter fun y => y.1.ctx != c }
  (((s.resetCtxRegs c).countOpen c).raise 0x0422 (some c) 0 []).prunePeers named

/-- Everything a command in progress of context `c` was doing is abandoned: MIGRATE, SAVE, PREEMPT, RESTORE and pending
or held SET_IMPOSITION complete with TORN_DOWN (R210, R313). -/
def State.abandonCommands (s : State) (c : Nat) : State :=
  let s := [4, 5, 6, 7, 9].foldl (fun s o => s.completeAll c o stTornDown) s
  let s := (List.range 4).foldl (fun s r =>
    match (s.ring c r).cur with
    | some k => if (k.opc = 9 ∧ k.stage ≠ .heldMgmt) ∨ k.stage = .waitCores then s.complete c r stTornDown 0 0 else s
    | none => s) s
  (s.modCtx c fun x => { x with launch := none, stop := none, coll := { x.coll with pend := none, tasks := [] } }).fset
    (F.TRN_IMP_STAT_PENDING c) 0

/-- R209, check 26 of Table 6-6: a LOAD_FORME under way, whose context has left the accepted states. -/
def State.abandonLoad (s : State) (c : Nat) : State :=
  match (s.ctx c).loading with
  | none => s
  | some l =>
    let gone := fun (r : QReq Rec Event) => if r.own = .image c l.ring then { r with own := .gone (l.want - l.image.length) } else r
    let qps := s.hpt.qps.map fun (q : Qp Rec Event) => { q with sent := q.sent.map gone }
    let s : State := { s with hpt := { s.hpt with qps := qps } }
    ((s.modCtx c fun x => { x with loading := none }).raise 0x0401 (some c) 0 [0x50]).complete c l.ring stRefused 0x50 0

/-- Table 11-7: a recovery order under way ends with STATUS 5. -/
def State.abandonOrder (s : State) (c : Nat) : State :=
  match (s.ctx c).coll.order with
  | none => s
  | some o =>
    let s := (s.memWrite (o.addr + 32) (leBytes 1 5) (some c)).1.modCtx c fun x => { x with coll := { x.coll with order := none } }
    ((s.fset (F.RES_STAT_ORDER c) 3).fset (F.RES_STAT_ORDER_STATUS c) 5).raise 0x0808 (some c) 0 [5]

/-- R210, R231: teardown begins; its engines stop at the next tick. -/
def State.startTeardown (s : State) (c : Nat) : State :=
  let was := s.ctxState c
  let s := (s.abandonCommands c).abandonLoad c
  let s := (s.modCtx c fun x => { x with
    tearing := if was = ctxFaulted then some s.timeUs else none, faultStop := false }).abandonOrder c
  (s.fset (F.CTX_STAT_STOP_PENDING c) 0).setCtxState c ctxTearing

end Sys2Proof.Machine
end

