-- ==== Sys2Proof/Machine/RdxOps.lean ====
section
/-!
DEFINITION. Operations of the reduction engines: the layout of buckets and frames (R269 to R280), the schedules (R272 to
R276, R283), units (R278, R279), admission (R281), encoding, hops and gathering (R283 to R290, R301), completion (R294,
R296) and what a failed unit leaves (R289 to R291).
-/

namespace Sys2Proof.Machine

/-- The imposition and segment table of imposition epoch `e`: in force, or draining (R298). -/
def State.tables (s : State) (c e : Nat) : Option (Imposition × List (Nat × Nat)) :=
  let k := s.coll c
  match k.imp with
  | some i => if i.iepoch = e then some (i, k.segs) else
    match k.drain with
    | some d => if d.imp.iepoch = e then some (d.imp, d.segs) else none
    | none => none
  | none => none

/-- What a member knows of a bucket: its descriptor, its group's fabric addresses in ring order, its own group rank,
and the segment table. -/
structure Lay where
  d : BucketDesc
  fabs : List Nat
  me : Nat
  segs : List (Nat × Nat)
  deriving DecidableEq, Repr

def Lay.n (l : Lay) : Nat := l.fabs.length
def Lay.segCount (l : Lay) : Nat := if l.d.kind = 3 then 1 else l.n
def Lay.seg (l : Lay) (k : Nat) : Nat × Nat := l.segs.getD (l.d.segBase + k) (0, 0)
def Lay.fab (l : Lay) (r : Nat) : Nat := l.fabs.getD r 0

def State.lay (s : State) (c b e : Nat) : Option Lay :=
  match s.desc? c b, s.tables c e with
  | some d, some (i, segs) =>
    let g := i.groups.getD d.group []
    if g.contains i.self then some ⟨d, g.map fun r => i.ranks.getD r 0, g.idxOf i.self, segs⟩ else none
  | _, _ => none

/-- R273: first block (segment index) and number of blocks of a segment in a direction. -/
def Lay.span (l : Lay) (k dir : Nat) : Nat × Nat :=
  let n := (l.seg k).2
  if l.d.kind = 2 then (if dir = 0 then (0, (n + 1) / 2) else ((n + 1) / 2, n / 2)) else (0, n)

def Lay.dirs (l : Lay) : List Nat := if l.d.kind = 2 then [0, 1] else [0]

/-- R280: UOFF of a segment and direction. -/
def Lay.uoff (l : Lay) (k dir : Nat) : Nat :=
  let up := ((List.range k).map fun i => (l.dirs.map fun d => ((l.span i d).2 + 14) / 15).sum).sum
  if dir = 1 then up + ((l.span k 0).2 + 14) / 15 else up

/-- Frames of a bucket's gather area. -/
def Lay.gatherFrames (l : Lay) : Nat := l.uoff l.segCount 0

/-- R272, R273: this member's distance from the owner of segment `k` in ring order. -/
def Lay.dist (l : Lay) (k dir : Nat) : Nat := if dir = 0 then (l.me + l.n - k % l.n) % l.n else (k + l.n - l.me) % l.n

/-- R272: this member's reduce hop number on a ring segment. -/
def Lay.hop (l : Lay) (k dir : Nat) : Nat := (l.dist k dir + l.n - 1) % l.n

/-- The ring neighbour that this member sends to. -/
def Lay.next (l : Lay) (dir : Nat) : Nat := if dir = 0 then (l.me + 1) % l.n else (l.me + l.n - 1) % l.n

/-- Table 9-8. -/
def hopInc (sched h : Nat) : Nat :=
  if sched = 0 then log2Up (h + 1) else if sched = 1 then (log2Up (h + 1) + 1) / 2 else 0

/-- R274: the hop number of tree level `v`. -/
def Lay.treeHop (l : Lay) (v : Nat) : Nat := Nat.min (2 ^ v) l.n - 1
def Lay.levels (l : Lay) : Nat := log2Up l.n

/-! ### Slots (R275, R276, R200) -/

/-- R276: the times in ns, none in the future, at which slots that name the operation started: START_NS after the tick of
their impression or of its retry path (R176). Between steps every slot has started, and so have a draining bucket's. -/
def State.slotStarts (s : State) (c b phase dir : Nat) (hops : List Nat) (old : Bool) : List Nat :=
  match (s.ctx c).forme with
  | none => []
  | some f =>
    let x := s.ctx c
    let begun := fun (r : Option ImpRec) (at_ : Nat) => match r with
      | none => []
      | some r => (((f.slots.slots.drop r.slotFirst).take r.slotCnt).filter fun w =>
          w.bucket == b && w.phase == phase && w.dir == dir && hops.any (fun h => decide (w.hopFirst ≤ h ∧ h ≤ w.hopLast))
            && decide (1000 * at_ + w.start ≤ 1000 * s.timeUs)).map fun w => 1000 * at_ + w.start
    if old || !x.pos.inStep then [0]
    else (((f.imps.zip x.coll.impAts).map fun p => begun (some p.1) p.2) ++ x.retried.map fun p => begun f.retries[p.1]? p.2).flatten

/-- R276: whether a slot that names the operation has started. -/
def State.slotStarted (s : State) (c b phase dir : Nat) (hops : List Nat) (old : Bool) : Bool :=
  !(s.slotStarts c b phase dir hops old).isEmpty

/-! ### Quoins named by forme records -/

/-- The quoin a bucket names (Table 9-4 names no die): on the die that declares it first, else as the first core of the
chases sees it (DEDUCED, assumption 30). -/
def State.formeQuoinCore (s : State) (c q : Nat) : Nat :=
  match (s.ctx c).forme with
  | none => 0
  | some f =>
    let first := f.coreList.headD 0
    if q < 512 then first else
      match f.quoins.find? fun d => d.num == q with
      | some d => 32 * d.die
      | none => first

def State.formeQuoinAdd (s : State) (c q : Nat) (i : Int) : State :=
  if q = 0 then s else s.quoinAdd (s.formeQuoinCore c q) q i

/-! ### Units (Table 9-6) -/

structure RUnit where
  tag : Nat
  first : Nat
  hop : Nat
  n : Nat
  uflags : Nat
  tr : Trailer
  obs : List Nat
  blocks : List Block
  deriving DecidableEq, Repr

def RUnit.last (u : RUnit) : Bool := bit u.uflags 0
def RUnit.phase (u : RUnit) : Nat := bits u.uflags 1 1
def RUnit.dir (u : RUnit) : Nat := bits u.uflags 2 2
def RUnit.missing (u : RUnit) : Bool := bit u.uflags 3

/-- The wire bytes of a unit. -/
def RUnit.bytes (u : RUnit) : List Byte :=
  let esc := ((List.range u.blocks.length).zip u.blocks).foldl (fun a p => a + b2n p.2.escape * 2 ^ p.1) 0
  let t := if u.last then u.tr else Trailer.zero
  leBytes 8 u.tag ++ leBytes 2 u.first ++ leBytes 2 u.hop ++ leBytes 1 u.n ++ leBytes 1 u.uflags ++ leBytes 1 t.flags
    ++ leBytes 1 0 ++ leBytes 4 esc ++ slice (u.obs.map (BitVec.ofNat 8 ·)) 0 30 ++ leBytes 2 t.origin
    ++ leBytes 2 t.slackRank ++ leBytes 2 t.slack ++ leBytes 4 t.ssLocal ++ leBytes 4 t.ssRed
    ++ (u.blocks.map Block.bytes).flatten

/-- The blocks of a unit, `n` of them, by its ESC_MAP; none where one is malformed. -/
def parseBlocks (esc : Nat) : Nat → Nat → List Byte → Option (List Block)
  | 0, _, _ => some []
  | k + 1, i, l =>
    let w := if bit esc i then 130 else 66
    match Block.parse (slice l 0 w), parseBlocks esc k (i + 1) (l.drop w) with
    | some b, some r => if b.escape = bit esc i then some (b :: r) else none
    | _, _ => none

/-- A received unit; none where a field is reserved or out of range or a block is malformed (Table 9-7, order 4). -/
def RUnit.parse (l : List Byte) : Option RUnit :=
  let uf := leAt l 13 1
  let n := leAt l 12 1
  let esc := leAt l 16 4
  let tf := leAt l 14 1
  let miss := bit uf 3
  let obs := (List.range 30).map fun i => leAt l (20 + i) 1
  let tr : Trailer := ⟨tf, leAt l 50 2, leAt l 52 2, leAt l 54 2, leAt l 56 4, leAt l 60 4⟩
  let bad : Bool := decide (l.length < 64) || decide (16 ≤ uf) || decide (64 ≤ tf) || decide (30 < n)
    || leAt l 15 1 != 0 || decide (16 ≤ leAt l 10 2 / 256) || decide (2 ^ n ≤ esc) || (obs.drop n).any (· != 0)
    || (miss && (esc != 0 || obs.any (· != 0))) || (!bit uf 0 && tr != Trailer.zero)
    || (n == 0 && !bit uf 0 && !miss)
  if bad then none
  else
    match (if miss then some [] else parseBlocks esc n 0 (l.drop 64)) with
    | none => none
    | some bs => some ⟨leAt l 0 8, leAt l 8 2, leAt l 10 2, n, uf, tr, obs.take n, bs⟩

/-- The bucket tag (Table 9-2). -/
def bucketTag (c e step b k : Nat) : Nat := c * 2 ^ 60 + e * 2 ^ 44 + step % 65536 * 2 ^ 28 + b * 2 ^ 12 + k

/-- The bytes of the unit in frame `f`: its header and the blocks that stand in the frame. -/
def State.unitBytes (s : State) (f : UnitIn) : List Byte := f.head ++ s.bytes (f.addr + 64) (f.len - 64)

/-- The tag of the unit in a frame. -/
def UnitIn.tag (f : UnitIn) : Nat := leAt f.head 0 8

/-! ### Buckets -/

def State.bucket? (s : State) (c b e : Nat) : Option Bucket := (s.coll c).buckets.find? fun x => x.idx == b && x.iepoch == e
def State.putBucket (s : State) (c : Nat) (b : Bucket) : State :=
  s.modColl c fun k => { k with buckets := k.buckets.map fun x => if x.idx = b.idx ∧ x.iepoch = b.iepoch then b else x }

def Bucket.work? (b : Bucket) (k dir : Nat) : Option SegWork := b.work.find? fun w => w.seg == k && w.dir == dir
def Bucket.putWork (b : Bucket) (w : SegWork) : Bucket :=
  { b with work := b.work.map fun x => if x.seg = w.seg ∧ x.dir = w.dir then w else x }

/-- An event raised once per bucket and step. -/
def State.bucketEvent (s : State) (c : Nat) (b : Bucket) (code unit : Nat) (data : List Nat) : State × Bucket :=
  if b.events.contains code then (s, b)
  else (s.raise code (some c) unit ([b.idx] ++ data), { b with events := code :: b.events })

/-- The flags this member ORs into the LAST bucket's trailers (R293): those of the step so far. MISSING looks at the buckets
before the LAST one; POISONED at it too where `all` says so. -/
def State.stepFlags (s : State) (c : Nat) (all : Bool) : Nat :=
  let x := s.ctx c
  let mine := x.coll.buckets.filter fun b => b.step == x.step
  let before := mine.filter fun b => (s.desc? c b.idx).all fun d => !d.last
  let poison := (if all then mine else before).any fun b => b.work.any fun w => bit w.trailer.flags 0
  x.coll.carry ||| b2n poison ||| (2 * b2n (before.any (·.bad))) ||| (4 * b2n x.suspect) ||| (8 * b2n x.rangeFlag)

/-! ### Exponents (R283 to R285) -/

/-- The exponent-table entry of block `i`, clamped (R283); the second value says that it was. -/
def State.baseExp (s : State) (l : Lay) (i : Nat) : Nat × Bool :=
  let e := (s.byte (l.d.expt + i)).toNat
  let hi := 0xFE - hopInc l.d.hopSched (l.n - 1)
  if e < 1 then (1, true) else if hi < e then (hi, true) else (e, false)

/-- The engine's own read of `n` bytes at `a`, which corrects them or faults the context (R166, R167). -/
def State.rdxRead (s : State) (c a n : Nat) : State :=
  let (s, ok) := s.checkRead a n (some c)
  if ok then s else s.accessFault c a 0

/-- The exponent-table entry of block `i` read from memory. -/
def State.readExp (s : State) (c : Nat) (l : Lay) (i : Nat) : State × Nat × Bool :=
  let s := s.rdxRead c (l.d.expt + i) 1
  (s, s.baseExp l i)

/-- Smallest E from 0x01 to 0xFE with |v| ≤ 127 × 2^(E - 127), and 0xFE where there is none (R284). -/
def needOf (v : Num) : Nat :=
  match v with
  | .fin _ m x => (((List.range 254).map (· + 1)).find? fun (e : Nat) =>
      let sh : Int := x + 127 - (e : Int)
      if 0 ≤ sh then decide (m * 2 ^ sh.toNat ≤ 127) else decide (m ≤ 127 * 2 ^ (-sh).toNat)).getD 0xFE
  | _ => 0xFE

/-- The need of a block at hop 0. -/
def needEncode (v : List Nat) : Nat :=
  let ns := v.map fpFP32.decode
  if ns.any Num.isNonFinite then 1 else ns.foldl (fun a x => Nat.max a (needOf x)) 1

/-- The need of a block's sums at a hop (R284). -/
def needHop (a b : Block) (eOut : Nat) : Nat :=
  if a.poison || b.poison then 1
  else (a.vals.zip b.vals).foldl (fun m p =>
    let t := bsAlign p.1 a.exp eOut + bsAlign p.2 b.exp eOut
    Nat.max m (needOf (.fin (decide (t < 0)) t.natAbs ((eOut : Int) - 127 - 32)))) 1

/-- Element `i`'s random word of a reduction-engine operation (Table 2-8). -/
def State.rdxWord (s : State) (c rdx hop blk tag i : Nat) : Nat :=
  let x := s.ctx c
  philoxWord i (2 ^ 31 + rdx % 2 * 2 ^ 29 + rdx / 2 * 2 ^ 28 + hop % 256 * 2 ^ 20 + blk % 2 ^ 20) (tag % 2 ^ 32) (tag / 2 ^ 32)
    ((x.srSeed % 2 ^ 32) ^^^ (x.step % 2 ^ 32)) (x.srSeed / 2 ^ 32)

/-- The local contribution of block `i`: 64 FP32 codes. An uncorrectable read faults the context (R167). -/
def State.localBlock (s : State) (c : Nat) (l : Lay) (i : Nat) : State × List Nat :=
  let a := l.d.src + 256 * i
  let s := s.rdxRead c a 256
  (s, (List.range 64).map fun j => s.le (a + 4 * j) 4)

/-- The squared norm of FP32 codes added to `acc` in order (R301). -/
def addNorm (acc : Nat) (v : List Nat) : Nat :=
  v.foldl (fun a x =>
    fadd32 a (fpFP32.round .rne false 0 ((fpFP32.decode x).mul (fpFP32.decode x))).code) acc

/-- R286: the counts and events of one encoding or one hop: an escape (R63, R65), and clamped elements (R66). -/
def State.countEscape (s : State) (c : Nat) (b : Bucket) (rdx : Nat) (esc : Bool) (sats : Nat) : State × Bucket :=
  let (s, b) := if esc then
      let s := (s.fadd (F.RDX_ESC_CNT_ESC_BLK rdx) 1).fset (F.RDX_STAT_ESC_SEEN rdx) 1
      s.bucketEvent c b 0x0601 rdx []
    else (s, b)
  if 0 < sats then (s.fadd (F.RDX_ESC_CNT_ESC_SAT rdx) sats).bucketEvent c b 0x0602 rdx [] else (s, b)

/-- Counts and flags of one operation on one block (R286, R288). -/
def State.countBlock (s : State) (c : Nat) (b : Bucket) (rdx : Nat) (blk : Block) (wasEsc : Bool) (sats : Nat) :
    State × Bucket :=
  let (s, b) := s.countEscape c b rdx (blk.escape && !wasEsc) sats
  (if blk.poison then (s.fadd (F.RDX_FAULT_CNT_POISON_BLK rdx) 1).fset (F.RDX_STAT_POISON_SEEN rdx) 1 else s, b)

/-- The local contribution of block `i` (bucket-relative) encoded at E_0 with the words of hop 0 (R283): the block, its
need, its FP32 codes and the clamped elements. -/
def State.encodeLocal (s : State) (c : Nat) (l : Lay) (tag i : Nat) : State × Block × Nat × List Nat × Nat :=
  let (s, e, clamped) := s.readExp c l i
  let s := s.fsetIf clamped (F.RDX_STAT_EXP_CLAMP l.d.rdx) 1
  let (s, v) := s.localBlock c l i
  let s := s.fadd (F.RDX_NF_NF_COUNT c) (v.filter fun x => (fpFP32.decode x).isNonFinite).length
  let (b, sat) := bsEncode e v (s.rdxWord c l.d.rdx 0 i tag)
  (s, b, needEncode v, v, sat)

/-! ### Sending units (R279, R280, R289) -/

/-- Bytes of the blocks packed so far. -/
def packBytes (p : List (Block × Nat)) : Nat := (p.map fun x => x.1.length).sum

/-- A unit sent to group rank `dest` at `addr`. -/
def State.sendUnit (s : State) (c : Nat) (l : Lay) (u : RUnit) (dest addr bkt : Nat) (resync : Bool) : State :=
  s.request (mkXfer .bucket (.unit c bkt (u.tag % 4096) u.dir u.phase u.first u.n u.last u.missing) (l.fab dest) 4 c c addr
    u.bytes 0 0) resync

/-- R280: the reduce-phase frame of the next unit of direction `dir`. -/
def State.reduceFrame (s : State) (c : Nat) (l : Lay) (b : Bucket) (dir : Nat) : Nat :=
  let u := if dir = 0 then b.sent0 else b.sent1
  (s.slotsSec c).stageBase + (l.d.soff + dir * l.d.frames + u % l.d.frames) * 2048

def Bucket.count (b : Bucket) (dir : Nat) : Bucket :=
  if dir = 0 then { b with sent0 := b.sent0 + 1 } else { b with sent1 := b.sent1 + 1 }

/-- R280: the gather frame of unit `j` of a segment. -/
def Lay.gatherFrame (l : Lay) (k dir j : Nat) : Nat := l.d.gather + (l.uoff k dir + j) * 2048

/-- Where a reduce operation's units go: to a rank, or into the own gather frames (R287). -/
inductive Dest where
  | rank (r : Nat)
  | own
  deriving DecidableEq, Repr

/-- A MISSING unit sent or received (R289). -/
def State.countMissing (s : State) (rdx : Nat) : State :=
  (s.fadd (F.RDX_FAULT_CNT_MISS_UNIT rdx) 1).fset (F.RDX_STAT_MISS_SEEN rdx) 1

/-- One unit of a reduce operation leaves: to the next rank, or, at the owner, as a gather unit in its own frame. -/
def State.leave (s : State) (c : Nat) (l : Lay) (b : Bucket) (w : SegWork) (dst : Dest) (hop n : Nat)
    (p : List (Block × Nat)) (last missing : Bool) : State × Bucket × SegWork :=
  let tag := bucketTag c b.iepoch b.step b.idx w.seg
  let ph := match dst with | .own => 1 | .rank _ => 0
  let u : RUnit := ⟨tag, w.first, (match dst with | .own => 1 | .rank _ => hop), n,
    b2n last + 2 * ph + 4 * w.dir + 8 * b2n missing, w.trailer, if missing then [] else p.map (·.2), p.map (·.1)⟩
  let w2 := { w with first := w.first + n, pack := [] }
  match dst with
  | .rank r =>
    let s := if missing then s.countMissing l.d.rdx else s
    (s.sendUnit c l u r (s.reduceFrame c l b w.dir) b.idx false, b.count w.dir, w2)
  | .own =>
    let a := l.gatherFrame w.seg w.dir w.units
    let s := s.landFor c 0 a u.bytes
    (s.modColl c fun k => { k with frames := if l.n = 1 then k.frames else k.frames ++ [⟨a, u.bytes.length, .own, u.bytes.take 64⟩] }, b,
      { w2 with units := w.units + 1, ranges := w.ranges ++ [(w.first, n)], whole := w.whole || last })

/-- R279: one block joins the pack; the pack leaves first where the block does not fit. -/
def State.packBlock (s : State) (c : Nat) (l : Lay) (b : Bucket) (w : SegWork) (dst : Dest) (hop : Nat) (x : Block × Nat) :
    State × Bucket × SegWork :=
  if w.pack.length = 30 ∨ 1984 < packBytes w.pack + x.1.length then
    let (s, b, w) := s.leave c l b w dst hop w.pack.length w.pack false false
    (s, b, { w with pack := [x] })
  else (s, b, { w with pack := w.pack ++ [x] })

/-! ### Decoding (R285, R287) -/

/-- R287: blocks [f, f+n) of a segment decoded into OUT, their OBS kept for the exponent table. -/
def State.decodeInto (s : State) (c : Nat) (l : Lay) (b : Bucket) (start : Nat) (bs : List (Block × Nat)) : State × Bucket :=
  ((List.range bs.length).zip bs).foldl (fun (a : State × Bucket) p =>
    let i := start + p.1
    let (v, sat) := bsDecode p.2.1
    let s := a.1.landFor c 0 (l.d.out + 256 * i) (v.map (leBytes 4 ·)).flatten
    let b := { a.2 with obs := a.2.obs.set i p.2.2 }
    let s := if p.2.1.poison then (s.fadd (F.RDX_FAULT_CNT_POISON_BLK l.d.rdx) 1).fset (F.RDX_STAT_POISON_SEEN l.d.rdx) 1 else s
    if 0 < sat then
      ((s.fadd (F.RDX_DEC_SAT_COUNT l.d.rdx) sat).fset (F.RDX_STAT_DEC_SAT l.d.rdx) 1).bucketEvent c b 0x060C l.d.rdx []
    else (s, b)) (s, b)

/-! ### The reduce phase -/

/-- One produced block of a reduce operation: packed, and at the owner decoded first (with SS_RED). -/
def State.produce (s : State) (c : Nat) (l : Lay) (b : Bucket) (w : SegWork) (dst : Dest) (hop i : Nat) (x : Block × Nat) :
    State × Bucket × SegWork :=
  let (s, b, w) := match dst with
    | .rank _ => (s, b, w)
    | .own =>
      let (s, b) := s.decodeInto c l b i [x]
      (s, b, { w with trailer := { w.trailer with ssRed := addNorm w.trailer.ssRed (bsDecode x.1).1 } })
  let w := { w with trailer := { w.trailer with
    flags := w.trailer.flags ||| b2n x.1.poison ||| (16 * b2n x.1.escape)
    origin := w.trailer.origin } }
  s.packBlock c l b w dst hop x

/-- R288, R293: a locally poisoned block names its origin; the trailer takes the member's own flags in the LAST bucket. -/
def SegWork.origin (w : SegWork) (poison : Bool) (me : Nat) : SegWork :=
  if poison && w.trailer.origin == 0xFFFF then { w with trailer := { w.trailer with origin := me } } else w

/-- The end of a segment's reduce operation: the trailer is completed (R288, R293, R296, R301) and the last unit leaves: with
the blocks packed, or as a MISSING unit that stands for `miss` blocks (R289). -/
def State.closeSeg (s : State) (c : Nat) (l : Lay) (b : Bucket) (w : SegWork) (dst : Dest) (hop : Nat) (arrived : Trailer)
    (miss : Option Nat) : State × Bucket :=
  let own := if l.d.last then s.stepFlags c true else 0
  let slackHere : Bool := l.d.last && w.dir == 0 && (match dst with | .own => true | .rank _ => false)
  let t : Trailer := {
    flags := w.trailer.flags ||| arrived.flags ||| own ||| (2 * b2n (b.bad || miss.isSome))
    origin := if arrived.origin ≠ 0xFFFF then arrived.origin else w.trailer.origin
    slackRank := if slackHere then l.me else 0xFFFF
    slack := if slackHere then (s.coll c).slack else 0
    ssLocal := if l.d.stats then fadd32 arrived.ssLocal w.norm else 0
    ssRed := if l.d.stats then w.trailer.ssRed else 0 }
  let (s, b, w) := s.leave c l b { w with trailer := t } dst hop (miss.getD w.pack.length) w.pack true miss.isSome
  let s := if l.d.last then s.modColl c fun k => { k with sent := own } else s
  (s, b.putWork { w with reduced := true })

/-- Hop 0 of a segment (R272, R274): every block encoded in order. For a tree whose member sends later, the blocks stay
as its partial sum. -/
def State.encodeSeg (s : State) (c : Nat) (l : Lay) (b : Bucket) (w : SegWork) (dst : Dest) : State × Bucket :=
  let (f, n) := l.span w.seg w.dir
  let base := (l.seg w.seg).1
  let tag := bucketTag c b.iepoch b.step b.idx w.seg
  let r := (List.range n).foldl (fun (a : State × Bucket × SegWork) j =>
    let (s, b, w) := a
    let i := base + f + j
    let (s, x, need, v, sat) := s.encodeLocal c l tag i
    let (s, b) := s.countBlock c b l.d.rdx x false sat
    let (s, b) := if x.poison then s.bucketEvent c b 0x0603 l.d.rdx [l.me] else (s, b)
    let w := (w.origin x.poison l.me)
    let w := { w with norm := if l.d.stats then addNorm w.norm v else 0
                      trailer := { w.trailer with flags := w.trailer.flags ||| (if 0 < sat then 32 else 0) } }
    s.produce c l b w dst 0 i (x, Nat.max need 1)) (s, b, { w with first := f })
  r.1.closeSeg c l r.2.1 r.2.2 dst 0 Trailer.zero none

/-- One arriving block added to a local block at hop `h` (R64, R283, R284). -/
def State.hopBlock (s : State) (c : Nat) (l : Lay) (b : Bucket) (w : SegWork) (dst : Dest) (h i : Nat) (tag : Nat)
    (x : Block × Nat) (y : Block) : State × Bucket × SegWork :=
  let dh := hopInc l.d.hopSched h
  let e := (s.baseExp l i).1 + dh
  let (z, sat) := bsHop x.1 y e (s.rdxWord c l.d.rdx h i tag)
  let need := needHop x.1 y e
  let obs := Nat.max x.2 (Nat.max (need - dh) 1)
  let (s, b) := s.countBlock c b l.d.rdx z x.1.escape sat
  let w := { w with trailer := { w.trailer with flags := w.trailer.flags ||| (if 0 < sat then 32 else 0) } }
  s.produce c l b w dst h i (z, obs)

/-- The packed blocks, where there are any, leave as a unit. -/
def State.leavePack (s : State) (c : Nat) (l : Lay) (b : Bucket) (w : SegWork) (dst : Dest) (hop : Nat) :
    State × Bucket × SegWork :=
  if w.pack.isEmpty then (s, b, w) else s.leave c l b w dst hop w.pack.length w.pack false false

/-- A missing range at a reduce hop (R289): the pack leaves, then a MISSING unit stands for the range. -/
def State.missRange (s : State) (c : Nat) (l : Lay) (b : Bucket) (w : SegWork) (dst : Dest) (hop n : Nat) (last : Bool)
    (arrived : Trailer) : State × Bucket :=
  let (s, b, w) := (s.countMissing l.d.rdx).leavePack c l { b with bad := true } w dst hop
  if last then s.closeSeg c l b w dst hop arrived (some n)
  else
    let (s, b, w) := s.leave c l b { w with trailer := { w.trailer with flags := w.trailer.flags ||| 2 } } dst hop n [] false true
    (s, b.putWork w)

/-- A reduce hop on one arrived unit of a ring segment (R272, R283). -/
def State.hopUnit (s : State) (c : Nat) (l : Lay) (b : Bucket) (w : SegWork) (dst : Dest) (u : RUnit) : State × Bucket :=
  let h := l.hop w.seg w.dir
  if u.missing then s.missRange c l b { w with first := if w.pack.isEmpty then u.first else w.first } dst h u.n u.last u.tr
  else
    let base := (l.seg w.seg).1
    let tag := u.tag
    let r := ((List.range u.n).zip (u.blocks.zip u.obs)).foldl (fun (a : State × Bucket × SegWork) p =>
      let (s, b, w) := a
      let i := base + u.first + p.1
      let (s, y, _, v, sat) := s.encodeLocal c l tag i
      let (s, b) := s.countEscape c b l.d.rdx y.escape sat
      let (s, b) := if y.poison && !p.2.1.poison then s.bucketEvent c b 0x0603 l.d.rdx [l.me] else (s, b)
      let w := w.origin (y.poison && !p.2.1.poison) l.me
      let w := { w with norm := if l.d.stats then addNorm w.norm v else 0
                        trailer := { w.trailer with flags := w.trailer.flags ||| (16 * b2n y.escape) ||| (if 0 < sat then 32 else 0) } }
      s.hopBlock c l b w dst h i tag p.2 y)
      (s, b, { w with first := if w.pack.isEmpty then u.first else w.first })
    if u.last then r.1.closeSeg c l r.2.1 r.2.2 dst h u.tr none else (r.1, r.2.1.putWork r.2.2)

/-! ### Trees (R274) -/

/-- The partial sum of a tree member before its first receive: its own contribution at E_0. One that `sends` it does hop 0 and
observes its need; for another it is the local block of its first hop (R274, R284). -/
def State.treeLocal (s : State) (c : Nat) (l : Lay) (b : Bucket) (w : SegWork) (sends : Bool) : State × Bucket × SegWork :=
  let n := (l.seg 0).2
  let tag := bucketTag c b.iepoch b.step b.idx 0
  (List.range n).foldl (fun (a : State × Bucket × SegWork) j =>
    let (s, b, w) := a
    let i := (l.seg 0).1 + j
    let (s, x, need, v, sat) := s.encodeLocal c l tag i
    let (s, b) := s.countBlock c b l.d.rdx x false sat
    let (s, b) := if x.poison then s.bucketEvent c b 0x0603 l.d.rdx [l.me] else (s, b)
    let w := (w.origin x.poison l.me)
    let w := { w with norm := if l.d.stats then addNorm w.norm v else 0
                      trailer := { w.trailer with flags := w.trailer.flags ||| b2n x.poison ||| (16 * b2n x.escape)
                                                    ||| (if 0 < sat then 32 else 0) } }
    (s, { b with part := b.part.set j (x, if sends then Nat.max need 1 else 0) }, w)) (s, b, { w with level := 1 })

/-- The level at which this member sends in the reduce phase: the lowest set bit of its rank; rank 0 never sends. -/
def Lay.sendLevel (l : Lay) : Nat :=
  ((List.range (l.levels + 1)).find? fun v => bit l.me v).map (· + 1) |>.getD (l.levels + 1)

/-- Levels from `v` on at which a unit is due to this member, before its own send level. -/
def Lay.dueFrom (l : Lay) (v : Nat) : Nat :=
  ((List.range (l.levels + 2)).find? fun x => decide (v ≤ x ∧ 1 ≤ x)
    && (decide (l.sendLevel ≤ x) || decide (l.levels < x) || decide (l.me + 2 ^ (x - 1) < l.n))).getD (l.levels + 1)

/-- The partial sum leaves: to the receiver of its send level, or, at rank 0, as the final segment. Missing blocks in a row
leave as one MISSING unit of at most 30 (R289). -/
def State.treeSend (s : State) (c : Nat) (l : Lay) (b : Bucket) (w : SegWork) : State × Bucket :=
  let n := (l.seg 0).2
  let dst := if l.me = 0 then Dest.own else Dest.rank (l.me - 2 ^ (l.sendLevel - 1))
  let hop := l.sendLevel
  let gap := fun (a : State × Bucket × SegWork) (k : Nat) =>
    if k = 0 then a else a.1.leave c l a.2.1 a.2.2 dst hop k [] false true
  let r := (List.range n).foldl (fun (a : (State × Bucket × SegWork) × Nat) j =>
    match b.part.find j with
    | some x =>
      let g := gap a.1 a.2
      (g.1.produce c l g.2.1 g.2.2 dst hop ((l.seg 0).1 + j) x, 0)
    | none =>
      let g := if a.2 = 30 then gap a.1 30 else a.1
      (g.1.leavePack c l g.2.1 g.2.2 dst hop, a.2 % 30 + 1)) ((s, b, { w with first := 0, pack := [] }), 0)
  r.1.1.closeSeg c l r.1.2.1 { r.1.2.2 with norm := w.norm } dst hop { w.trailer with ssRed := 0, ssLocal := 0 }
    (if r.2 = 0 then none else some r.2)

/-- A tree hop on one arrived unit: its blocks added to the partial sum (R274). -/
def State.treeHopUnit (s : State) (c : Nat) (l : Lay) (b : Bucket) (w : SegWork) (u : RUnit) : State × Bucket :=
  let h := l.treeHop u.hop
  let dh := hopInc l.d.hopSched h
  let (s, b, w) :=
    if u.missing then
      (s.countMissing l.d.rdx, { b with bad := true, part := b.part.dropIf fun j => decide (u.first ≤ j ∧ j < u.first + u.n) },
        { w with trailer := { w.trailer with flags := w.trailer.flags ||| 2 } })
    else ((List.range u.n).zip (u.blocks.zip u.obs)).foldl (fun (a : State × Bucket × SegWork) p =>
      let (s, b, w) := a
      let j := u.first + p.1
      match b.part.find j with
      | none => a
      | some y =>
        let i := (l.seg 0).1 + j
        let (s, e0, clamped) := s.readExp c l i
        let e := e0 + dh
        let s := s.fsetIf clamped (F.RDX_STAT_EXP_CLAMP l.d.rdx) 1
        let (z, sat) := bsHop p.2.1 y.1 e (s.rdxWord c l.d.rdx h i u.tag)
        let obs := Nat.max (Nat.max p.2.2 y.2) (Nat.max (needHop p.2.1 y.1 e - dh) 1)
        let (s, b) := s.countBlock c b l.d.rdx z p.2.1.escape sat
        (s, { b with part := b.part.set j (z, obs) },
          { w with trailer := { w.trailer with flags := w.trailer.flags ||| b2n z.poison ||| (16 * b2n z.escape)
                                                 ||| (if 0 < sat then 32 else 0) } })) (s, b, w)
  if u.last then
    let w := { w with
      level := u.hop + 1
      norm := if l.d.stats then fadd32 u.tr.ssLocal w.norm else 0
      trailer := { w.trailer with flags := w.trailer.flags ||| u.tr.flags
                                  origin := if u.tr.origin ≠ 0xFFFF ∧ (w.trailer.origin = 0xFFFF ∨ w.trailer.origin = l.me)
                                            then u.tr.origin else w.trailer.origin } }
    if l.sendLevel ≤ l.dueFrom w.level ∨ l.levels < l.dueFrom w.level then s.treeSend c l b w else (s, b.putWork w)
  else (s, b.putWork w)

end Sys2Proof.Machine
end

