-- ==== Sys2Proof/Machine/TrainOps.lean ====
section
/-!
DEFINITION. Imposition and training: the imposition image and its checks (R308, R311), how an imposition takes effect
(R309, R314), the rebalancer (R327), the noise averages (R302), batch steering (R328) and the step monitor (R325).
-/

namespace Sys2Proof.Machine

/-! ### Registers that act from the next step boundary -/

/-- The registers of a context whose writes take effect at a step boundary. -/
def boundaryRegs (c : Nat) : List Nat :=
  [R.TRN_MON_CTRL c, R.TRN_LOSS_LO c, R.TRN_LOSS_HI c, R.TRN_RBAL c, R.TRN_NF_LIM c, R.RES_CTRL c, R.RES_TBL_LO c, R.RES_TBL_HI c]

/-- The values of those registers are taken (a step boundary). -/
def State.latch (s : State) (c : Nat) : State :=
  s.modColl c fun k => { k with inForce := (boundaryRegs c).foldl (fun t o => t.set o (s.rget o)) k.inForce }

/-- A field's value in force. -/
def State.fheld (s : State) (c : Nat) (f : Fld) : Nat :=
  bits ((s.coll c).inForce.get (regReset f.off).toNat f.off) f.hi f.lo

/-! ### binary32 arithmetic, RNE -/

def r32 (n : Num) : Nat := (fpFP32.round .rne false 0 n).code
def fmul32 (a b : Nat) : Nat := r32 ((fpFP32.decode a).mul (fpFP32.decode b))
def fsub32 (a b : Nat) : Nat := r32 ((fpFP32.decode a).add (fpFP32.decode b).neg)
def fsqrt32 (a : Nat) : Nat := r32 (fpFP32.decode a).sqrt
def f32 (n : Nat) : Nat := r32 (.ofInt n)

/-- A quotient rounded once: 64 quotient bits and a sticky bit. -/
def fdiv32 (a b : Nat) : Nat :=
  match fpFP32.decode a, fpFP32.decode b with
  | .fin s m e, .fin t n f =>
    if n = 0 then (if m = 0 then fpFP32.canonNan else fpFP32.sign (s != t) + fpFP32.infCode)
    else if m = 0 then fpFP32.sign (s != t)
    else r32 (.fin (s != t) (2 * (m * 2 ^ 64 / n) + b2n (m * 2 ^ 64 % n != 0)) (e - f - 65))
  | .inf s, .fin t _ _ => fpFP32.sign (s != t) + fpFP32.infCode
  | .fin s _ _, .inf t => fpFP32.sign (s != t)
  | _, _ => fpFP32.canonNan

/-- ⌈x⌉ of a positive FP32 value, 0 for anything else. -/
def fceil32 (a : Nat) : Nat :=
  match fpFP32.decode a with
  | .fin false m e => if 0 ≤ e then m * 2 ^ e.toNat else (m + 2 ^ (-e).toNat - 1) / 2 ^ (-e).toNat
  | _ => 0

/-! ### Regions (R270) -/

/-- Whether [a, a+n) lies in a region whose window has WRITE. -/
def Forme.inRegionW (f : Forme) (a n : Nat) : Bool :=
  f.regions.any (fun r => decide (r.base ≤ a ∧ a + n ≤ r.base + r.len)) && f.inWindow true a n

/-! ### The imposition image (Table 10-1) -/

/-- The tables of an image whose bounds have been checked. -/
def parseImposition (l : List Byte) : Imposition :=
  let dims := (List.range 5).map fun i => leAt l (16 + 2 * i) 2
  let m := leAt l 8 2
  let rankOff := leAt l 40 4
  let mbOff := leAt l 44 4
  let grpOff := leAt l 48 4
  let segOff := leAt l 52 4
  { iepoch := leAt l 4 2, self := leAt l 6 2, m := m, stages := leAt l 14 1, auto := leAt l 15 1 == 1, dims := dims
    perMb := leAt l 28 4, mbMin := leAt l 32 2, mbMax := leAt l 34 2, totMin := leAt l 36 2, totMax := leAt l 38 2
    ranks := (List.range m).map fun i => leAt l (rankOff + 4 * i) 4 % 2 ^ 24
    mb := (List.range (dims.getD 0 0)).map fun i => leAt l (mbOff + 2 * i) 2
    groups := (List.range (leAt l 10 2)).map fun g =>
      let o := leAt l (grpOff + 8 * g) 4
      (List.range (leAt l (grpOff + 8 * g + 4) 2)).map fun i => leAt l (o + 2 * i) 2
    segs := (List.range (leAt l 12 2)).map fun i => (leAt l (segOff + 8 * i) 4, leAt l (segOff + 8 * i + 4) 4)
    hash := some (slice l 64 48), mbOff := mbOff, image := l, rmap := none }

/-- Check 1 of Table 10-2 on the bytes: BAD_IMAGE. -/
def badImposition (l : List Byte) : Bool :=
  let len := leAt l 56 4
  let m := leAt l 8 2
  let ng := leAt l 10 2
  let grpOff := leAt l 48 4
  let inside := fun o n => decide (o % 8 = 0 ∧ o + n ≤ len)
  let zero := fun o n => (slice l o n).all (· == 0)
  leAt l 0 4 != 0x4D49574B || decide (len < 128) || decide (65536 < len)
    || !inside (leAt l 40 4) (4 * m) || !inside (leAt l 44 4) (2 * leAt l 16 2) || !inside grpOff (8 * ng)
    || !inside (leAt l 52 4) (8 * leAt l 12 2) || !zero 26 2 || !zero 60 4 || !zero 112 16
    || (List.range m).any (fun i => leAt l (leAt l 40 4 + 4 * i + 3) 1 != 0)
    || (List.range ng).any (fun g => !zero (grpOff + 8 * g + 6) 2
      || !inside (leAt l (grpOff + 8 * g) 4) (2 * leAt l (grpOff + 8 * g + 4) 2))
    || decide (1 < leAt l 15 1)

/-- Check 7 of Table 10-2: GROUP_INVALID. -/
def badGroups (f : Forme) (i : Imposition) : Bool :=
  i.groups.isEmpty || decide (1024 < i.groups.length)
    || i.groups.any (fun g => g.any (fun r => decide (i.m ≤ r)) || decide (g.dedup.length ≠ g.length))
    || f.slots.buckets.any fun b => decide (i.groups.length ≤ b.group)
      || (b.last && decide ((i.groups.getD b.group []).dedup.length ≠ i.m))

/-- R271: whether entries tile `n` blocks. -/
def tiles : Nat → List (Nat × Nat) → Nat → Bool
  | at_, [], n => at_ == n
  | at_, (a, k) :: r, n => a == at_ && decide (k ≤ 65536) && tiles (at_ + k) r n

/-- Check 8 of Table 10-2: SEGMENT_INVALID, on the segment table that would be in force. -/
def badSegments (f : Forme) (i : Imposition) (segs : List (Nat × Nat)) : Bool :=
  decide (4096 < i.segs.length)
    || f.slots.buckets.any fun b =>
      let g := i.groups.getD b.group []
      let n := if b.kind = 3 then 1 else g.length
      let l : Lay := ⟨b, g, 0, segs⟩
      decide (4096 < b.segBase + n) || !tiles 0 ((List.range n).map fun k => segs.getD (b.segBase + k) (0, 0)) b.nblk
        || (b.last && !f.inRegionW f.slots.slack (2 * g.length)) || !f.inRegionW b.gather (2048 * l.gatherFrames)

/-- The segment table after an imposition: the image's, zero beyond it, or the old one where it has none (R314). -/
def newSegs (old : List (Nat × Nat)) (i : Imposition) : List (Nat × Nat) :=
  if i.segs.isEmpty then old else i.segs ++ List.replicate (4096 - i.segs.length) (0, 0)

/-- The checks of Table 10-2 in order; 0 where all pass. -/
def State.checkImposition (s : State) (c : Nat) (f : Forme) (imgAddr rmap effective : Nat) : State × Nat × Option Imposition :=
  let len := s.le (imgAddr + 56) 4
  if f.inWindow false imgAddr 128 = false ∨ len < 128 ∨ 65536 < len ∨ f.inWindow false imgAddr len = false then (s, 0x60, none)
  else
    let (s, ok) := s.checkRead imgAddr len (some c)
    let l := s.bytes imgAddr len
    if ok = false ∨ badImposition l = true then (s, 0x60, none)
    else
      let i := parseImposition l
      let d := (i.iepoch + 65536 - s.curEpoch c) % 65536
      let news := i.ranks.filter fun r => (s.peer r).isNone
      let code :=
        if i.hash ≠ some f.hash then 0x61
        else if d = 0 ∨ 32767 < d then 0x62
        else if i.m < 1 ∨ 4096 < i.m ∨ i.dims.contains 0 ∨ i.dims.foldl (· * ·) 1 ≠ i.m ∨ i.stages < 1 ∨ 8 < i.stages then 0x63
        else if i.m ≤ i.self ∨ i.ranks.getD i.self 0 ≠ s.fget F.FAB_SELF_FAB then 0x64
        else if i.ranks.dedup.length ≠ i.ranks.length then 0x65
        else if badGroups f i then 0x66
        else if badSegments f i (newSegs (s.coll c).segs i) then 0x67
        else if i.perMb = 0 ∨ i.mbMin = 0 ∨ i.mbMax < i.mbMin ∨ i.mb.any (fun m => decide (m < i.mbMin) || decide (i.mbMax < m))
            ∨ (i.auto ∧ i.totMax < i.totMin) then 0x68
        else if 4096 < s.peers.length + (news.filter fun r => r != s.fget F.FAB_SELF_FAB).length then 0x69
        else if effective < (s.ctx c).step then 0x6A
        else if rmap % 64 ≠ 0 ∨ f.inRegionW rmap len = false then 0x6B
        else 0
      (s, code, some { i with rmap := some rmap })

/-- The implicit imposition (R309). -/
def State.implicit (s : State) (f : Forme) : Imposition :=
  { iepoch := 0, self := 0, m := 1, stages := 1, auto := false, dims := [1, 1, 1, 1, 1], perMb := 1, mbMin := 1, mbMax := 1
    totMin := 0, totMax := 0, ranks := [s.fget F.FAB_SELF_FAB], mb := [1], groups := [[0]], segs := f.slots.segs
    hash := none, mbOff := 0, image := [], rmap := none }

/-- R309: whether a forme fits the implicit imposition. -/
def Forme.fitsImplicit (f : Forme) : Bool :=
  f.slots.buckets.all fun b =>
    let e := f.slots.segs.getD b.segBase (0, 0)
    let l : Lay := ⟨b, [0], 0, f.slots.segs⟩
    b.group == 0 && e == (0, b.nblk) && f.inRegionW b.gather (2048 * l.gatherFrames)
      && (!b.last || f.inRegionW f.slots.slack 2)

/-- R316: whether the imposition in force names the loaded forme, or the forme fits the implicit one. -/
def State.impositionFits (s : State) (c : Nat) : Bool :=
  match (s.ctx c).forme, (s.coll c).imp with
  | some f, some i => match i.hash with
    | some h => h == f.hash
    | none => f.fitsImplicit
  | _, _ => true

/-! ### The rank map's micro-batch table -/

def State.mbTable (s : State) (i : Imposition) : List Nat :=
  match i.rmap with
  | none => i.mb
  | some a => (List.range (i.dims.getD 0 0)).map fun x => s.le (a + i.mbOff + 2 * x) 2

def State.putMb (s : State) (c : Nat) (i : Imposition) (m : List Nat) : State :=
  match i.rmap with
  | none => s
  | some a => s.landFor c 0 (a + i.mbOff) (m.map (leBytes 2 ·)).flatten

/-! ### The rebalancer (R327) -/

/-- The replica of fewest slack that may give, and of most that may take; ties go to the lowest. -/
def pickLo (m : List Nat) (sl : List Int) (mbMin : Nat) : Option Nat :=
  (List.range m.length).foldl (fun b x =>
    if mbMin < m.getD x 0 then
      match b with
      | none => some x
      | some y => if sl.getD x 0 < sl.getD y 0 then some x else b
    else b) none

def pickHi (m : List Nat) (sl : List Int) (mbMax : Nat) : Option Nat :=
  (List.range m.length).foldl (fun b x =>
    if m.getD x 0 < mbMax then
      match b with
      | none => some x
      | some y => if sl.getD y 0 < sl.getD x 0 then some x else b
    else b) none

/-- R327: the loop, at most `k` moves. -/
def rebalanceLoop : Nat → Nat → Int → Int → Nat → List Nat → List Int → List Nat
  | 0, _, _, _, _, m, _ => m
  | k + 1, mn, c, h, mx, m, sl =>
    match pickLo m sl mn, pickHi m sl mx with
    | some lo, some hi =>
      if lo = hi ∨ sl.getD hi 0 - c < sl.getD lo 0 + c + h then m
      else rebalanceLoop k mn c h mx (listSet (listSet m lo (m.getD lo 0 - 1)) hi (m.getD hi 0 + 1))
        (listSet (listSet sl lo (sl.getD lo 0 + c)) hi (sl.getD hi 0 - c))
    | _, _ => m

/-- R327: the LAST bucket's slack array moves micro-batches between replicas. -/
def State.rebalance (s : State) (c : Nat) (d : BucketDesc) (i : Imposition) : State :=
  if i.hash = none then s
  else
    let g := i.groups.getD d.group []
    let dd := i.dims.getD 0 1
    let slack := g.zip ((List.range g.length).map fun p => s.le ((s.slotsSec c).slack + 2 * p) 2)
    let sl := (List.range dd).map fun x =>
      ((slack.filter fun p => p.1 % dd == x).foldl (fun (a : Option Nat) p =>
        some (match a with | none => p.2 | some v => Nat.min v p.2)) none).getD 0
    let m := s.mbTable i
    let m2 := rebalanceLoop (s.fheld c (F.TRN_RBAL_MAXMOVE c)) i.mbMin (s.fheld c (F.TRN_RBAL_MBCOST_US c))
      (s.fheld c (F.TRN_RBAL_HYST_US c)) i.mbMax m (sl.map Int.ofNat)
    if m2 = m then s else (s.putMb c i m2).raise 0x0708 (some c) 0 []

/-! ### Noise averages (R302) and steering (R328) -/

/-- R302: the averages after a step, from the statistics records of its buckets. -/
def State.noiseStep (s : State) (c : Nat) : State :=
  match (s.coll c).imp with
  | none => s
  | some i =>
    let k := s.coll c
    let recs := ((s.slotsSec c).buckets.zip (List.range (s.slotsSec c).buckets.length)).filter fun p =>
      p.1.stats && decide (1 < (i.groups.getD p.1.group []).length)
    if recs.isEmpty ∨ (k.verdict.map (·.1)) ≠ some 1 then s
    else
      let n := (i.groups.getD ((recs.map (·.1.group)).headD 0) []).length
      let gs := recs.foldl (fun a p =>
        fadd32 a (fdiv32 (s.le ((s.slotsSec c).stats + 32 * p.2) 4) (f32 (i.groups.getD p.1.group []).length))) 0
      let gb := recs.foldl (fun a p =>
        fadd32 a (fdiv32 (s.le ((s.slotsSec c).stats + 32 * p.2 + 4) 4) (f32 ((i.groups.getD p.1.group []).length ^ 2)))) 0
      let b := fdiv32 (fmul32 (f32 i.perMb) (f32 (s.mbTable i).sum)) (f32 (i.dims.getD 0 1))
      let bb := fmul32 (f32 n) b
      let g2 := fdiv32 (fsub32 (fmul32 bb gb) (fmul32 b gs)) (fsub32 bb b)
      let sv := fdiv32 (fsub32 gs gb) (fsub32 (fdiv32 (f32 1) b) (fdiv32 (f32 1) bb))
      let ema := fun a x => fadd32 a (fmul32 (fdiv32 (f32 1) (f32 64)) (fsub32 x a))
      let av := { k.avg with g2 := ema k.avg.g2 g2, s := ema k.avg.s sv, updates := k.avg.updates + 1, seen := true }
      (s.modColl c fun k => { k with avg := av }).rset (R.TRN_BNOISE c) (fdiv32 av.s av.g2)

/-- R328: the steered table, when the averages have been updated in at least 64 steps. -/
def State.steered (s : State) (c : Nat) (i : Imposition) : Option (Nat × List Nat) :=
  match (s.coll c).imp with
  | none => none
  | some old =>
    if i.auto = false ∨ (s.coll c).avg.updates < 64 ∨ old.hash = none then none
    else
      let m := (s.mbTable old).sum
      let av := (s.coll c).avg
      let t0 := fceil32 (fdiv32 (fdiv32 av.s av.g2) (f32 i.perMb))
      let dd := i.dims.getD 0 1
      let cl := fun lo hi v => Nat.min hi (Nat.max lo v)
      let t := cl (dd * i.mbMin) (dd * i.mbMax) (cl ((m + 1) / 2) (2 * m) (cl i.totMin i.totMax t0))
      some (t, (List.range dd).map fun x => t / dd + b2n (decide (x < t % dd)))

/-! ### Taking effect (R298, R299, R314) -/

/-- R293: the flags raised after the last reduce-phase operation of the step's LAST bucket, for the next step's to carry. -/
def State.lateFlags (s : State) (c : Nat) : Nat :=
  let k := s.coll c
  let late := s.stepFlags c false
  if k.lastStarted then late ^^^ (late &&& k.sent) else 0

/-- R298, R299: the old epoch drains or its buckets are discarded; what a dropped one has to carry on is kept (R293). -/
def State.drainOld (s : State) (c : Nat) (new : Imposition) : State :=
  let late := s.lateFlags c
  let s := s.modColl c fun k => { k with carry := if k.lastStarted then late else k.carry }
  let k := s.coll c
  match k.imp with
  | none => s
  | some old =>
    let gone := fun (b : Bucket) =>
      match s.desc? c b.idx with
      | none => false
      | some d => (old.groups.getD d.group []).any fun r =>
        let fab := old.ranks.getD r 0
        !(new.ranks.contains fab)
          || (match s.peer fab with | some p => p.st != .valid | none => false)
    let dead := k.buckets.filter fun b => b.opened && gone b
    let live := k.buckets.filter fun b => b.opened && !gone b
    let s := dead.foldl (fun s b => s.raise 0x0608 (some c) 0 [b.idx]) s
    let s := s.fadd (F.RDX_DRAIN_DISCARDED c) dead.length
    let s := s.modColl c fun k => { k with
      buckets := live
      frames := k.frames.filter fun u =>
        let tag := u.tag
        bits tag 59 44 == new.iepoch || live.any fun b => b.iepoch == bits tag 59 44 && b.idx == bits tag 27 12
      drain := if live.isEmpty then none else some ⟨old, k.segs⟩
      rerun := k.rerun || !dead.isEmpty }
    let s := s.fset (F.RDX_DRAIN_DRAINING c) (b2n !live.isEmpty)
    let s := s.fset (F.RDX_EPOCH_OLD_EPOCH c) old.iepoch
    if dead.isEmpty then s
    else
      (s.modCtx c fun x => { x with counts := ⟨x.stepRing, x.stepTag, 1⟩ :: x.counts }).fset (F.CTX_STAT_STEPS_LEFT c)
        (satAdd 0xFFFF (s.fget (F.CTX_STAT_STEPS_LEFT c)) 1)

/-- R314: a pending imposition takes effect; its command completes. The peer table takes no more than 4,096 entries (R247).
The work of the boundary is made for the new imposition (R336, R338; DEDUCED, assumption 102). -/
def State.applyImposition (s : State) (c : Nat) (p : PendImp) : State :=
  let i := p.imp
  let st := s.steered c i
  let s := s.modColl c fun k => { k with avg := { k.avg with g2 := 0, s := 0, updates := 0 } }
  let s := s.drainOld c i
  let named := s.namedBy c
  let news := (i.ranks.filter fun r => (s.peer r).isNone && r != s.fget F.FAB_SELF_FAB).dedup
  let s := { s with peers := s.peers ++ (news.take (4096 - s.peers.length)).map Peer.new }
  let s := s.modColl c fun k => { k with imp := some i, segs := newSegs k.segs i, pend := none, bound := .fresh }
  let s := match i.rmap with
    | none => s
    | some a => s.landFor c 0 a i.image
  let s := match st with
    | some t => (s.putMb c i t.2).raise 0x0709 (some c) 0 [t.1]
    | none => s
  let s := (s.fset (F.RDX_EPOCH_CUR_EPOCH c) i.iepoch).fset (F.TRN_IMP_STAT_PENDING c) 0
  (((s.raise 0x0701 (some c) 0 [i.iepoch]).complete c p.ring stOk 0 0).prunePeers named).countOpen c

/-- R313: the checks of Table 10-2 that are repeated when the forme has been replaced. -/
def State.repeatChecks (s : State) (c : Nat) (i : Imposition) : Nat :=
  match (s.ctx c).forme with
  | none => 0
  | some f =>
    if i.hash ≠ some f.hash then 0x61 else if badGroups f i then 0x66
    else if badSegments f i (newSegs (s.coll c).segs i) then 0x67 else 0

/-- R312, R313, R300: at a step boundary, a pending imposition that is due takes effect or ends; one whose boundary an epoch
drain holds is due at the next boundary after it. -/
def State.impositionDue (s : State) (c : Nat) : State :=
  match (s.coll c).pend with
  | none => s
  | some p =>
    if p.effective ≠ 0xFFFFFFFF ∧ p.effective ≠ (s.ctx c).step ∧ p.held = false then s
    else if (s.coll c).drain ≠ none then s.modColl c fun k => { k with pend := some { p with held := true } }
    else
      let code := s.repeatChecks c p.imp
      if code = 0 then s.applyImposition c p
      else (((s.modColl c fun k => { k with pend := none }).fset (F.TRN_IMP_STAT_PENDING c) 0).raise 0x0702 (some c) 0
        [code]).complete c p.ring stRefused code 0

/-! ### The step monitor (R325) -/

/-- R325: the context's non-finite counters read and cleared into its totals. -/
def State.readNf (s : State) (c : Nat) : State :=
  let gs := s.occupied c
  let tot := (List.range 6).map fun k =>
    gs.foldl (fun a g => a + s.rget (R.VXE_NF_CNT g k)) 0 + (if k = 2 then s.rget (R.RDX_NF c) else 0)
  let s := gs.foldl (fun s g => (List.range 6).foldl (fun s k => s.rset (R.VXE_NF_CNT g k) 0) s) s
  (s.rset (R.RDX_NF c) 0).modColl c fun k => { k with nf := (k.nf.zip tot).map fun p => p.1 + p.2 }

/-- One loss tested and averaged (R325). -/
def State.lossStep (s : State) (c x : Nat) : State :=
  let a := (s.coll c).avg
  let kk := fdiv32 (f32 (s.fheld c (F.TRN_MON_CTRL_K_X4 c))) (f32 4)
  let al := fdiv32 (f32 1) (f32 (2 ^ s.fheld c (F.TRN_MON_CTRL_ALPHA_LOG2 c)))
  let lim := fmul32 kk (fsqrt32 a.v)
  let spike := (s.raise 0x0705 (some c) 0 [x, a.mu, lim]).fadd (F.TRN_MON_STAT_SPIKES c) 1
  if (fpFP32.decode x).isNonFinite then spike
  else if a.n = 0 then s.modColl c fun k => { k with avg := { k.avg with mu := x, v := 0, n := 1 } }
  else if s.fheld c (F.TRN_MON_CTRL_WARMUP c) ≤ a.n ∧ (fpFP32.decode (fadd32 a.mu lim)).lt (fpFP32.decode x) = true then spike
  else
    let d := fsub32 x a.mu
    let mu := fadd32 a.mu (fmul32 al d)
    let v := fmul32 (fsub32 (f32 1) al) (fadd32 a.v (fmul32 (fmul32 al d) d))
    s.modColl c fun k => { k with avg := { k.avg with mu := mu, v := v, n := k.avg.n + 1 } }

/-- R325: the step monitor at a step end that writes a verdict. -/
def State.stepMonitor (s : State) (c : Nat) : State :=
  if s.fheld c (F.TRN_MON_CTRL_EN c) = 0 then s
  else
    let t := (s.coll c).nf
    let lim := s.fheld c (F.TRN_NF_LIM_LIMIT c)
    let above := ((List.range 6).filter fun k => decide (lim < t.getD k 0))
    let s := if above.isEmpty then s else
      let q := fun k => Nat.min 0xFFFF (t.getD k 0)
      let s := above.foldl (fun s _ => s.raise 0x0706 (some c) 0 [q 0 + 65536 * q 1, q 2 + 65536 * q 3, q 4 + 65536 * q 5]) s
      (s.fset (F.TRN_MON_STAT_NF_CLASS c) (above.foldl (fun a k => a + 2 ^ k) 0)).fadd (F.TRN_MON_STAT_NF_STEPS c) 1
    if s.fheld c (F.TRN_LOSS_HI_VALID c) = 0 then s
    else
      let a := s.fheld c (F.TRN_LOSS_LO_ADDR_LO c) + 2 ^ 32 * s.fheld c (F.TRN_LOSS_HI_ADDR_HI c)
      match (s.ctx c).forme with
      | none => s
      | some f =>
        if f.inWindow false a 4 then
          let (s, ok) := s.checkRead a 4 (some c)
          if ok then s.lossStep c (s.le a 4) else s.accessFault c a 0
        else s.raise 0x0707 (some c) 0 []

end Sys2Proof.Machine
end

