-- ==== Sys2Proof/Machine/ResOps.lean ====
section
/-!
DEFINITION. Resilience: the resilience table (R335, R336), generations and background tasks (R337 to R343), parity (R344,
R345), fingerprints and repair (R331 to R334) and recovery orders (R349 to R351).
-/

namespace Sys2Proof.Machine

/-! ### The table in force -/

def tBuddy (l : List Byte) : Nat := leAt l 6 2
def tPgroup (l : List Byte) : Nat := leAt l 10 2
def tFpgroup (l : List Byte) : Nat := leAt l 12 2
def tMirrorOut (l : List Byte) : Nat := leAt l 16 8
def tParity (l : List Byte) : Nat := leAt l 32 8
def tOutbox (l : List Byte) : Nat := leAt l 40 8
def tFpArray (l : List Byte) : Nat := leAt l 48 8
def tFmax (l : List Byte) : Nat := leAt l 56 4

/-- The extents: address, length in bytes, and the FP flag. -/
def tExtents (l : List Byte) : List (Nat × Nat × Bool) :=
  (List.range (leAt l 14 2)).map fun i => (leAt l (64 + 16 * i) 8, 64 * leAt l (72 + 16 * i) 4, bit (leAt l (76 + 16 * i) 1) 0)

/-- S, the member's state in bytes, and F, the fragment size. -/
def tSize (l : List Byte) : Nat := ((tExtents l).map fun e => e.2.1).sum
def tFrag (l : List Byte) : Nat := (tSize l + 511) / 512 * 64

/-- R336: the table at `a` is bad. -/
def State.badTable (s : State) (a : Nat) (f : Forme) (i : Imposition) : Bool :=
  let n := s.le (a + 14) 2
  let l := s.bytes a (64 + 16 * n)
  let none_ := fun v => v == 0xFFFF
  let rank := fun v => none_ v || decide (v < i.m)
  let zero := fun o k => (slice l o k).all (· == 0)
  let pg := i.groups.getD (tPgroup l) []
  let fg := i.groups.getD (tFpgroup l) []
  let areaOk := fun v k => v % 64 == 0 && f.inRegionW v k
  let S := tSize l
  leAt l 0 4 != 0x5254574B || leAt l 4 2 != i.iepoch || decide (n < 1) || decide (64 < n) || !f.inWindow false a (64 + 16 * n)
    || !rank (tBuddy l) || !rank (leAt l 8 2) || !zero 60 4 || tFmax l % 64 != 0
    || (List.range n).any (fun k => leAt l (64 + 16 * k) 8 % 64 != 0 || !zero (70 + 16 * k) 2 || leAt l (72 + 16 * k) 4 == 0
      || decide (1 < leAt l (76 + 16 * k) 1) || !zero (77 + 16 * k) 3 || !f.inRegionW (leAt l (64 + 16 * k) 8) (64 * leAt l (72 + 16 * k) 4))
    || (!none_ (tBuddy l) && tMirrorOut l % 64 != 0)
    || (!none_ (leAt l 8 2) && !areaOk (leAt l 24 8) (2 * (64 + S)))
    || (!none_ (tPgroup l) && (pg.length != 10 || !pg.contains i.self || decide (tFmax l < tFrag l)
      || !areaOk (tParity l) (20 * (64 + tFmax l)) || !areaOk (tOutbox l) (9 * tFmax l)))
    || (!none_ (tFpgroup l) && (!fg.contains i.self || !areaOk (tFpArray l) (32 * fg.length)))

/-- R336: the table is read at a boundary. -/
def State.readTable (s : State) (c : Nat) : State :=
  let a := s.fheld c (F.RES_TBL_LO_ADDR_LO c) + 2 ^ 32 * s.fheld c (F.RES_TBL_HI_ADDR_HI c)
  let ok : Bool := s.fheld c (F.RES_TBL_HI_VALID c) == 1 && (match (s.ctx c).forme, (s.coll c).imp with
    | some f, some i => !s.badTable a f i
    | _, _ => false)
  let (s, ok) := if ok then s.checkRead a (64 + 16 * s.le (a + 14) 2) (some c) else (s, false)
  let l := if ok then s.bytes a (64 + 16 * s.le (a + 14) 2) else []
  let s := (s.modColl c fun k => { k with table := l }).fset (F.RES_STAT_TABLE_BAD c) (b2n !ok)
  if ok then s else s.raise 0x080B (some c) 0 []

/-! ### Sending a task's writes (R338, R341) -/

/-- The bytes of a source. -/
def State.srcBytes (s : State) : Src → List Byte
  | .lit b => b
  | .mem a n => s.bytes a n

def Src.size : Src → Nat
  | .lit b => b.length
  | .mem _ n => n

/-- The first 2 KiB of a source, and the rest. -/
def Src.split : Src → Src × Src
  | .lit b => (.lit (b.take 2048), .lit (b.drop 2048))
  | .mem a n => (.mem a (Nat.min 2048 n), .mem (a + Nat.min 2048 n) (n - Nat.min 2048 n))

def State.putTask (s : State) (c : Nat) (t : Task) : State :=
  s.modColl c fun k => { k with tasks := k.tasks.map fun x => if x.kind = t.kind ∧ x.gen = t.gen then t else x }
def State.dropTask (s : State) (c : Nat) (t : Task) : State :=
  s.modColl c fun k => { k with tasks := k.tasks.filter fun x => !(x.kind == t.kind && x.gen == t.gen) }

/-- R338: a task is complete once its last write is acknowledged. -/
def State.finishTask (s : State) (c : Nat) (t : Task) : State :=
  let s := s.dropTask c t
  match t.kind with
  | .mirror => s.fset (F.RES_MIRROR_GEN_GEN c) t.gen
  | .parity => s.fset (F.RES_PARITY_GEN_GEN c) t.gen
  | _ => s

/-- The checked read of a source (R167). -/
def State.readSrc (s : State) (c : Nat) : Src → State × Bool
  | .lit _ => (s, true)
  | .mem a n => s.checkRead a n (some c)

/-- The core that a fault of the reduction engines' work for context `c` names: the first of its chases. -/
def State.faultCore (s : State) (c : Nat) : Nat := (s.chaseCoresOf c).headD 0

/-- The next writes of a task, up to the first that goes to a peer: pieces for this module itself land at once. A
migration's `gen` is the context number at its target. The second value is false when the bytes to send could not be
read (R167); `taskFailed` then decides. -/
def State.pushTask (s : State) (c : Nat) (t : Task) : Nat → State × Bool
  | 0 => (s, true)
  | k + 1 =>
    match t.todo with
    | [] => (if t.kind = .parityRead ∨ t.kind = .migrate then s.putTask c t else s.finishTask c t, true)
    | p :: r =>
      if p.src.size = 0 then s.pushTask c { t with todo := r } k
      else
        let (a, b) := p.src.split
        let t2 := { t with todo := { p with dst := p.dst + a.size, src := b } :: r }
        match s.readSrc c a with
        | (s, false) => (s.putTask c t, false)
        | (s, true) =>
          if p.fab = s.fget F.FAB_SELF_FAB ∧ t.kind ≠ .migrate then
            (s.landFor c (s.faultCore c) p.dst (s.srcBytes a)).pushTask c t2 k
          else
            let at_ : Option Nat := match a with | .mem x _ => homeDie x | .lit _ => none
            (((s.crossed none at_ ((s.portFor p.fab 0).map fun q => 4 + q / 24)).putTask c { t2 with out := true }).request
              (mkXfer .write (.task c (t.kind.code + 8 * t.gen)) p.fab 0 c (if t.kind = .migrate then t.gen else c) p.dst
                (s.srcBytes a) 0 0) false, true)

/-- Enough steps for a task's pieces that need no peer. -/
def Task.fuel (t : Task) : Nat := (t.todo.map fun p => p.src.size / 2048 + 2).sum + 1

/-- R343: a task given up for its generation. -/
def State.abandonTask (s : State) (c : Nat) (t : Task) : State :=
  let s := (s.dropTask c t).modCtx c fun x => { x with suspect := true }
  if t.kind = .mirror then (s.raise 0x0802 (some c) 0 [t.gen]).fadd (F.RES_CNT_MIRROR_FAIL c) 1
  else (s.raise 0x0803 (some c) 0 [t.gen]).fadd (F.RES_CNT_PARITY_FAIL c) 1

/-- R343: a task's write has failed, or the bytes that it sends could not be read (R167; DEDUCED, assumption 95): it starts
again once, then is abandoned. A fingerprint's records are always sent again. A migration's copy stops (R230). -/
def State.taskFailed (s : State) (c : Nat) (t : Task) : State :=
  if t.kind = .migrate then s.putTask c { t with fails := 1, out := false }
  else if t.fails = 0 ∨ t.kind = .fp then
    let t2 := { t with todo := t.pieces, fails := t.fails + 1, out := false }
    match (s.putTask c t2).pushTask c t2 t2.fuel with
    | (s, true) => s
    | (s, false) => s.abandonTask c t2
  else s.abandonTask c t

/-- A task sends what it has left. -/
def State.runTask (s : State) (c : Nat) (t : Task) : State :=
  match s.pushTask c t t.fuel with
  | (s, true) => s
  | (s, false) => s.taskFailed c t

/-- A new task starts sending. -/
def State.startTask (s : State) (c : Nat) (kind : TaskKind) (gen : Nat) (ps : List Piece) : State :=
  let t : Task := ⟨kind, gen, ps, ps, 0, false⟩
  (s.modColl c fun k => { k with tasks := k.tasks.filter (fun x => !(x.kind == kind && x.gen == gen)) ++ [t] }).runTask c t

/-! ### Mirror, parity, fingerprint -/

/-- A slot header of R342; byte 9 is the fragment number of R345. -/
def slotHeader (gen rank iepoch state frag len crc : Nat) : List Byte :=
  leBytes 4 gen ++ leBytes 2 rank ++ leBytes 2 iepoch ++ leBytes 1 state ++ leBytes 1 frag ++ leBytes 6 0 ++ leBytes 8 len
    ++ leBytes 8 crc ++ leBytes 32 0

/-- The member's state bytes, in table order. -/
def State.stateBytes (s : State) (l : List Byte) : List Byte := ((tExtents l).map fun e => s.bytes e.1 e.2.1).flatten

/-- The checked read of the extents `es` (R167). -/
def State.readExtents (s : State) (c : Nat) (es : List (Nat × Nat × Bool)) : State × Bool :=
  es.foldl (fun p e => let r := p.1.checkRead e.1 e.2.1 (some c); (r.1, p.2 && r.2)) (s, true)

/-- R342: the mirror of generation `g`. -/
def State.startMirror (s : State) (c g : Nat) (l : List Byte) (i : Imposition) : State :=
  let S := tSize l
  let a := tMirrorOut l + g % 2 * (64 + S)
  let fab := i.ranks.getD (tBuddy l) 0
  let h := fun st => slotHeader g i.self i.iepoch st 0 S (crc64 (s.stateBytes l))
  let body := ((tExtents l).foldl (fun (p : Nat × List Piece) e => (p.1 + e.2.1, p.2 ++ [⟨fab, p.1, .mem e.1 e.2.1⟩])) (a + 64, [])).2
  s.startTask c .mirror g ([⟨fab, a, .lit (h 0)⟩] ++ body ++ [⟨fab, a, .lit (h 1)⟩])

/-- α^k · v, a table of doublings. -/
def gfShift (k v : Nat) : Nat := iter k (fun _ x => gfDouble x) v

/-- The exclusive or of byte lists of one length. -/
def xorBytes (a b : List Byte) : List Byte := (a.zip b).map fun p => p.1 ^^^ p.2
def gfScale (k : Nat) (a : List Byte) : List Byte := a.map fun b => BitVec.ofNat 8 (gfShift k b.toNat)

/-- R344: fragments 0 to 9 of `data` at fragment size `F`. -/
def parityFragments (data : List Byte) (F : Nat) : List (List Byte) :=
  let d := (List.range 8).map fun i => slice data (i * F) F
  let z := List.replicate F (0 : Byte)
  d ++ [d.foldl xorBytes z, ((List.range 8).zip d).foldl (fun a p => xorBytes a (gfScale p.1 p.2)) z]

/-- R345: where fragment writes of the member at position `k` land. -/
def paritySlot (l : List Byte) (np gen k : Nat) : Nat := tParity l + (10 * (gen / np % 2) + k) * (64 + tFmax l)

/-- R344, R345, R338: the parity read `t` is complete: the outbox is written and the fragment writes start. Extents that
could not be read fail the task (R343). -/
def State.parityReadDone (s : State) (c : Nat) (t : Task) : State :=
  let g := t.gen
  let l := (s.coll c).table
  match (s.coll c).imp, s.readExtents c (tExtents l) with
  | none, (s, _) => s.dropTask c t
  | some _, (s, false) => s.taskFailed c t
  | some i, (s, true) =>
    let s := s.dropTask c t
    let fsz := tFrag l
    let frs := parityFragments (s.stateBytes l) fsz
    let np := s.fheld c (F.RES_CTRL_N_P c)
    let grp := i.groups.getD (tPgroup l) []
    let k := grp.idxOf i.self
    let s := ((List.range 10).zip frs).foldl (fun s p =>
      if p.1 = 0 then s else s.landFor c (s.faultCore c) (tOutbox l + (p.1 - 1) * tFmax l) p.2) s
    let a := paritySlot l np g k
    let ps := (((List.range 10).zip frs).map fun p =>
      let fab := i.ranks.getD (grp.getD ((k + p.1) % 10) 0) 0
      let h := fun st => slotHeader g i.self i.iepoch st p.1 fsz (crc64 p.2)
      [⟨fab, a, .lit (h 0)⟩, ⟨fab, a + 64, if p.1 = 0 then .lit p.2 else .mem (tOutbox l + (p.1 - 1) * tFmax l) fsz⟩,
        ⟨fab, a, Src.lit (h 1)⟩]).flatten
    s.startTask c .parity g ps

/-- R331: the fingerprint of generation `g`, and its records. An extent that cannot be read faults the context (R167;
DEDUCED, assumption 95). -/
def State.startFp (s : State) (c g : Nat) (l : List Byte) (i : Imposition) : State :=
  match s.readExtents c ((tExtents l).filter fun e => e.2.2) with
  | (s, false) => s.ctxFault c 0x0302 (s.faultCore c)
  | (s, true) =>
  let fp := crc64 (((tExtents l).filter fun e => e.2.2).map fun e => s.bytes e.1 e.2.1).flatten
  let grp := i.groups.getD (tFpgroup l) []
  let pos := grp.idxOf i.self
  let a := tFpArray l + 16 * (grp.length * (g / s.fheld c (F.RES_CTRL_N_FP c) % 2) + pos)
  let rec_ := leBytes 4 g ++ leBytes 2 pos ++ leBytes 2 0 ++ leBytes 8 fp
  (s.modColl c fun k => { k with fpWrote := some g }).startTask c .fp g
    (grp.map fun r => ⟨i.ranks.getD r 0, a, .lit rec_⟩)

/-- R331: where a record `l` that a cell brings for the line `a` lands: a WRITE cell names lines of 64 bytes only (Table
8-3), and the record's own GEN and position say which 16 bytes of it are meant (DESIGN CHOICE, assumption 96). -/
def State.fpLanding (s : State) (c a : Nat) (l : List Byte) : Nat × List Byte :=
  let t := (s.coll c).table
  match (s.coll c).imp with
  | none => (a, l)
  | some i =>
    let n := (i.groups.getD (tFpgroup t) []).length
    let x := tFpArray t + 16 * (n * (leAt l 0 4 / s.fheld c (F.RES_CTRL_N_FP c) % 2) + leAt l 4 2)
    if t.isEmpty = false ∧ tFpgroup t ≠ 0xFFFF ∧ l.length = 64 ∧ leAt l 4 2 < n ∧ x / 64 * 64 = a then (x, l.take 16) else (a, l)

/-- R336, R341: the background tasks of context `c` end where they are. -/
def State.endTasks (s : State) (c : Nat) : State :=
  { s with xfers := s.xfers.filter fun x => match x.owner with | .task d _ => d != c | _ => true }.modColl c fun k =>
    { k with tasks := [] }

/-- R341: stopped tasks start again from their beginning. -/
def State.resumeTasks (s : State) (c : Nat) : State :=
  ((s.coll c).tasks.filter fun t => !t.out && !t.todo.isEmpty && t.kind != .migrate).foldl (fun s t => s.runTask c t) s

/-- R338, Table 11-5: the tasks due at boundary `g` start. -/
def State.startTasks (s : State) (c g : Nat) : State :=
  let l := (s.coll c).table
  match (s.coll c).imp with
  | none => s
  | some i =>
    if l.isEmpty ∨ (s.coll c).tasksOff then s
    else
      let s := if s.fheld c (F.RES_CTRL_MIRROR_EN c) = 1 ∧ tBuddy l ≠ 0xFFFF then s.startMirror c g l i else s
      let s := if s.fheld c (F.RES_CTRL_PARITY_EN c) = 1 ∧ tPgroup l ≠ 0xFFFF ∧ g % s.fheld c (F.RES_CTRL_N_P c) = 0 then
        s.startTask c .parityRead g [] else s
      if s.fheld c (F.RES_CTRL_FP_EN c) = 1 ∧ tFpgroup l ≠ 0xFFFF ∧ g % s.fheld c (F.RES_CTRL_N_FP c) = 0 then
        s.startFp c g l i else s

/-- R336, R338, R341: the work of a step boundary, once in it: the table is read; a bad one ends the tasks, a good one lets
those start that were stopped, and those due, which a migration's target leaves to the boundary its source has made. -/
def State.boundaryWork (s : State) (c : Nat) : State :=
  let b := (s.coll c).bound
  if b = .done then s
  else
    let s := (s.readTable c).modColl c fun k => { k with bound := .done }
    if (s.coll c).table.isEmpty then s.endTasks c
    else
      let s := s.resumeTasks c
      if b = .fresh then s.startTasks c (s.ctx c).step else s

/-- R339: whether every task due before the LAST bucket of step `n` is complete. -/
def State.gateOpen (s : State) (c n : Nat) : Bool :=
  (s.coll c).tasks.all fun t =>
    match t.kind with
    | .migrate => true
    | .parity => decide (n < t.gen + 2)
    | _ => decide (n < t.gen + 1)

/-- The end of a task's request. -/
def State.taskEnded (s : State) (c key : Nat) (e : XEnd) : State :=
  match (s.coll c).tasks.find? fun t => t.kind.code + 8 * t.gen == key with
  | none => s
  | some t =>
    match e with
    | .ok => s.runTask c { t with out := false }
    | _ => s.taskFailed c t

/-! ### Fingerprint comparison and repair (R332, R333) -/

/-- The next pull of a repair. -/
def State.pushRepair (s : State) (c : Nat) : State :=
  match (s.coll c).repair with
  | none => s
  | some r =>
    match r.left with
    | [] => s
    | (a, n) :: _ => s.request (mkXfer .read (.repair c) r.fab 0 c c a [] a (Nat.min 2048 n)) false

/-- R333: a pull has ended: its bytes lie at the same addresses. A failed one is made again at the next tick (`repairAgain`).
-/
def State.repairEnded (s : State) (c : Nat) (e : XEnd) (n : Nat) : State :=
  match (s.coll c).repair with
  | none => s
  | some r =>
    match e, r.left with
    | .ok, (a, k) :: t =>
      let s := s.modColl c fun x => { x with repair := some { r with left := if n < k then (a + n, k - n) :: t else t } }
      s.pushRepair c
    | _, _ => s

/-- R333: a repair whose pull has failed is taken up again. -/
def State.repairAgain (s : State) (c : Nat) : State :=
  if s.xfers.any fun x => x.owner == .repair c then s else s.pushRepair c

/-- R332: the records of generation `g` compared. -/
def State.fpCompare (s : State) (c g : Nat) : State :=
  let l := (s.coll c).table
  match (s.coll c).imp with
  | none => s
  | some i =>
    if l.isEmpty ∨ (s.coll c).fpWrote ≠ some g then s
    else
      let grp := i.groups.getD (tFpgroup l) []
      let n := grp.length
      if n < 2 then s
      else
        let base := tFpArray l + 16 * n * (g / s.fheld c (F.RES_CTRL_N_FP c) % 2)
        match s.checkRead base (16 * n) (some c) with
        | (s, false) => s.accessFault c base (s.faultCore c)
        | (s, true) =>
        let recs := (List.range n).map fun p => (s.le (base + 16 * p) 4, s.le (base + 16 * p + 8) 8)
        let vals := (recs.filter fun r => r.1 == g).map (·.2)
        match vals.find? fun v => decide (n < 2 * vals.count v) with
        | none => ((s.fset (F.RES_STAT_FP_HOLD c) 1).raise 0x0805 (some c) 0 [g]).modCtx c fun x => { x with suspect := true }
        | some v =>
          let me := grp.idxOf i.self
          if recs.getD me (0, 0) = (g, v) then s
          else
            let p := recs.idxOf (g, v)
            let s := (s.raise 0x0804 (some c) 0 [g]).fadd (F.RES_CNT_FP_MISMATCH c) 1
            let exts := ((tExtents l).filter fun e => e.2.2).map fun e => (e.1, e.2.1)
            (s.modColl c fun k => { k with repair := some ⟨i.ranks.getD (grp.getD p 0) 0, exts⟩ }).pushRepair c

/-! ### Recovery (R349 to R351) -/

/-- The result of an order (Table 11-7), its registers and events. On success the context stands at boundary GEN_DONE, whose
tasks start at its launch (R351, R352; DEDUCED, assumption 102). -/
def State.orderDone (s : State) (c addr status source gen : Nat) : State :=
  let ok : Bool := status == 0 || status == 2
  let inW := match (s.ctx c).forme with | some f => f.inRegionW addr 64 | none => false
  let s := if inW then s.landFor c (s.faultCore c) (addr + 32) (leBytes 1 status ++ leBytes 1 source ++ leBytes 2 0 ++ leBytes 4 gen)
    else s
  let s := (s.fset (F.RES_STAT_ORDER c) (if ok then 2 else 3)).fset (F.RES_STAT_ORDER_STATUS c) status
  let s := s.modColl c fun k => { k with order := none }
  let s := if status = 2 then s.raise 0x0809 (some c) 0 [gen] else s
  if ok then
    let s := s.modColl c fun k => { k with bound := .fresh, tasksOff := false, pend := k.pend.map fun p => { p with held := false } }
    (((s.modCtx c fun x => { x with step := gen }).fset (F.RES_LIVE_GEN_LIVE_GEN c) gen).fset (F.RES_STAT_LIVE_VALID c) 1).raise
      0x0807 (some c) 0 [status, gen]
  else s.raise 0x0808 (some c) 0 [status]

def State.setOrder (s : State) (c : Nat) (o : Order) : State := s.modColl c fun k => { k with order := some o }

/-- GF(2^8) exponentiation and inverse. -/
def gfMul (a b : Nat) : Nat := gfTimes a b
def gfInv (a : Nat) : Nat := iter 254 (fun _ x => gfMul a x) 1

/-- R344: the data from 8 of the 10 fragments; `f i` is fragment i, none where absent. -/
def rebuild (F : Nat) (f : Nat → Option (List Byte)) : Option (List Byte) :=
  let z := List.replicate F (0 : Byte)
  let miss := (List.range 8).filter fun i => (f i).isNone
  let a := (List.range 8).foldl (fun x i => xorBytes x ((f i).getD z)) z
  let b := (List.range 8).foldl (fun x i => xorBytes x (gfScale i ((f i).getD z))) z
  let mulB := fun (k : Nat) (l : List Byte) => l.map fun v => BitVec.ofNat 8 (gfMul k v.toNat)
  let join := fun (g : Nat → List Byte) => some ((List.range 8).map fun i => (f i).getD (g i)).flatten
  match miss with
  | [] => join fun _ => z
  | [x] =>
    match f 8, f 9 with
    | some p, _ => join fun _ => xorBytes p a
    | none, some q => join fun _ => mulB (gfInv (gfShift x 1)) (xorBytes q b)
    | none, none => none
  | [x, y] =>
    match f 8, f 9 with
    | some p, some q =>
      let u := xorBytes p a
      let v := xorBytes q b
      let dx := mulB (gfInv (gfShift x 1 ^^^ gfShift y 1)) (xorBytes v (mulB (gfShift y 1) u))
      join fun i => if i = x then dx else xorBytes u dx
    | _, _ => none
  | _ => none

/-- Bytes written over the extents in order. -/
def State.writeState (s : State) (c : Nat) (l data : List Byte) : State :=
  ((tExtents l).foldl (fun (p : State × List Byte) e => (p.1.landFor c (p.1.faultCore c) e.1 (p.2.take e.2.1), p.2.drop e.2.1))
    (s, data)).1

/-- The device address, within the extents, of byte `off` of the state, and the bytes left in that extent. -/
def extentAt (exts : List (Nat × Nat × Bool)) (off : Nat) : Nat × Nat :=
  match exts with
  | [] => (0, 0)
  | e :: r => if off < e.2.1 then (e.1 + off, e.2.1 - off) else extentAt r (off - e.2.1)

/-- Position of the order's source rank in the parity group. -/
def Order.pos (o : Order) (i : Imposition) (l : List Byte) : Nat :=
  (i.groups.getD (tPgroup l) []).idxOf (if o.rank = 0xFFFF then i.self else o.rank)

/-- Holder and address of parity header `part`: fragment part mod 10 of generation slot part div 10 (R351). -/
def Order.head (o : Order) (i : Imposition) (l : List Byte) (part : Nat) : Nat × Nat :=
  let k := o.pos i l
  (i.ranks.getD ((i.groups.getD (tPgroup l) []).getD ((k + part % 10) % 10) 0) 0,
    tParity l + (10 * (part / 10) + k) * (64 + tFmax l))

/-- Whether a parity header is COMPLETE for generation `g` and fragment `k` of `rank`. -/
def headOk (h : List Byte) (g rank k F : Nat) : Bool :=
  leAt h 0 4 == g && leAt h 4 2 == rank && leAt h 8 1 == 1 && leAt h 9 1 == k && leAt h 16 8 == F

/-- The fragments whose headers are COMPLETE for generation `g`. -/
def Order.have (o : Order) (i : Imposition) (l : List Byte) (np g : Nat) : List Nat :=
  let rank := if o.rank = 0xFFFF then i.self else o.rank
  (List.range 10).filter fun k => match o.heads.find (10 * (g / np % 2) + k) with
    | some h => headOk h g rank k (tFrag l)
    | none => false

/-- The generation that the parity source rebuilds: the one wanted, else the newest older one (R351). -/
def Order.pick (o : Order) (i : Imposition) (l : List Byte) (np : Nat) : Option Nat :=
  let gens := (o.gen :: (o.heads.entries.map fun e => leAt e.2 0 4)).filter fun g => decide (g ≤ o.gen)
  (gens.filter fun g => decide (8 ≤ (o.have i l np g).length)).foldl
    (fun b g => match b with | none => some g | some x => some (Nat.max x g)) none

/-- A pull of at most 2 KiB for an order: from this module's own memory at once, else by READ_REQ (TC0). Local bytes are
given back, or the failure of a read that met an uncorrectable error (R351). -/
def State.pull (s : State) (c part fab a ret n : Nat) : State × Option (Option (List Byte)) :=
  if fab = s.fget F.FAB_SELF_FAB then
    let r := s.checkRead a n (some c)
    (r.1, some (if r.2 then some (r.1.bytes a n) else none))
  else (s.request (mkXfer .read (.recover c part) fab 0 c c a [] ret n) false, none)

/-- Part numbers of an order's pulls: 0 the buddy's header, 1 its data, 2 to 21 parity headers, 32 + i fragment i. -/
def partBuddyHead : Nat := 0
def partBuddyData : Nat := 1
def partHead : Nat := 2
def partFrag : Nat := 32

/-- R351: what an order does next, given the sources' answers so far. `k` bounds the pulls served by local memory. -/
def State.pushOrder (s : State) (c : Nat) (o : Order) (part : Nat) (got : Option (List Byte)) : Nat → State
  | 0 => s.setOrder c o
  | k + 1 =>
    let l := (s.coll c).table
    match (s.coll c).imp with
    | none => s.setOrder c { o with result := some 1 }
    | some i =>
      let np := s.fheld c (F.RES_CTRL_N_P c)
      let rank := if o.rank = 0xFFFF then i.self else o.rank
      let S := tSize l
      let fsz := tFrag l
      let toParity := fun (s : State) =>
        if bit o.srcs 2 ∧ tPgroup l ≠ 0xFFFF then
          let o2 := { o with source := 3, data := [], heads := .empty, frags := .empty }
          let h := o2.head i l 0
          let (s, g) := s.pull c partHead h.1 h.2 h.2 64
          match g with
          | none => s.setOrder c o2
          | some b => s.pushOrder c o2 partHead b k
        else s.setOrder c { o with result := some 1 }
      let nextFrag := fun (s : State) (o : Order) =>
        match o.pick i l np with
        | none => s.setOrder c { o with result := some 1 }
        | some g =>
          let o := if o.want = g then o else { o with want := g, frags := .empty, data := [] }
          let have_ := (o.have i l np g).take 8
          match have_.find? fun f => (o.frags.find f).isNone with
          | none =>
            (match rebuild fsz fun f => o.frags.find f with
            | some d => (s.writeState c l (d.take S)).setOrder c
                { o with result := some (if g = o.gen then 0 else 2) }
            | none => s.setOrder c { o with result := some 1 })
          | some f =>
            let h := o.head i l (10 * (g / np % 2) + f)
            let a := h.2 + 64 + o.data.length
            let (s, r) := s.pull c (partFrag + f) h.1 a a (Nat.min 2048 (fsz - o.data.length))
            match r with
            | none => s.setOrder c o
            | some b => s.pushOrder c o (partFrag + f) b k
      if part = partBuddyHead then
        match got with
        | none => toParity s
        | some h =>
          if leAt h 0 4 = o.gen ∧ leAt h 4 2 = rank ∧ leAt h 8 1 = 1 ∧ leAt h 16 8 = S then
            let x := extentAt (tExtents l) 0
            let a := tMirrorOut l + o.gen % 2 * (64 + S) + 64
            let o2 := { o with heads := o.heads.set 100 h, data := [] }
            let (s, r) := s.pull c partBuddyData (i.ranks.getD (tBuddy l) 0) a x.1 (Nat.min 2048 x.2)
            match r with
            | none => s.setOrder c o2
            | some b => s.pushOrder c o2 partBuddyData b k
          else toParity s
      else if part = partBuddyData then
        match got with
        | none => toParity s
        | some b =>
          let s := s.landFor c (s.faultCore c) (extentAt (tExtents l) o.data.length).1 b
          let d := o.data ++ b
          if d.length = S then
            if crc64 d = leAt ((o.heads.find 100).getD []) 24 8 then
              s.setOrder c { o with data := [], want := o.gen, result := some 0 }
            else toParity s
          else
            let x := extentAt (tExtents l) d.length
            let a := tMirrorOut l + o.gen % 2 * (64 + S) + 64 + d.length
            let (s, r) := s.pull c partBuddyData (i.ranks.getD (tBuddy l) 0) a x.1 (Nat.min 2048 x.2)
            match r with
            | none => s.setOrder c { o with data := d }
            | some b => s.pushOrder c { o with data := d } partBuddyData b k
      else if part < partFrag then
        let o2 := match got with | none => o | some h => { o with heads := o.heads.set (part - partHead) h }
        if part - partHead < 19 then
          let h := o2.head i l (part - partHead + 1)
          let (s, r) := s.pull c (part + 1) h.1 h.2 h.2 64
          match r with
          | none => s.setOrder c o2
          | some b => s.pushOrder c o2 (part + 1) b k
        else nextFrag s o2
      else
        let f := part - partFrag
        let key := 10 * (o.want / np % 2) + f
        let drop_ := { o with heads := o.heads.erase key, data := [] }
        match got with
        | none => nextFrag s drop_
        | some b =>
          let d := o.data ++ b
          if d.length < fsz then nextFrag s { o with data := d }
          else if crc64 d = leAt ((o.heads.find key).getD []) 24 8 then
            nextFrag s { o with data := [], frags := o.frags.set f d }
          else nextFrag s drop_

/-- A bound on an order's local pulls. -/
def orderFuel (l : List Byte) : Nat := 64 + 2 * (tSize l / 64) + 10 * (tFrag l / 64 + 1)

/-- The end of an order's request: its bytes, or a failure of the source. -/
def State.orderEnded (s : State) (c part : Nat) (e : XEnd) (got : List Byte) : State :=
  match (s.coll c).order with
  | none => s
  | some o => s.pushOrder c o part (if e = .ok then some got else none) (orderFuel (s.coll c).table)

end Sys2Proof.Machine
end

