-- ==== Sys2Proof/Machine/RdxRun.lean ====
section
/-!
DEFINITION. What the reduction engines do: the start of a bucket (R265), reduce operations (R272 to R276, R283, R339),
gather hops and re-fetches (R287, R290), completion and the step verdict (R285, R294, R296, R301), the end of a unit's
request (R289, R291), stalls (R291) and the admission of units (R281).
-/

namespace Sys2Proof.Machine

/-! ### The start of a bucket (R265, Table 9-1) -/

/-- Bucket entries in use on engine `k`. -/
def State.entries (s : State) (k : Nat) : Nat :=
  ((List.range 8).map fun c => ((s.coll c).buckets.filter fun b =>
    b.holds && (((s.desc? c b.idx).map (·.rdx)) == some k)).length).sum

/-- A bucket of the current epoch starts: its local contributions are ready, an entry is free and no drain holds it. A
bucket whose group does not hold this member has no work here and is done at once. -/
def State.bucketStart (s : State) (c idx : Nat) : State :=
  let e := s.curEpoch c
  match s.desc? c idx, s.bucket? c idx e with
  | some d, some b =>
    let ready : Bool := d.wq == 0 || decide (d.wval ≤ s.quoin (s.formeQuoinCore c d.wq) d.wq)
    if b.st ≠ .waiting ∨ s.ctxState c ≠ ctxRunning ∨ s.fget (F.RDX_CTRL_EN d.rdx) = 0 ∨ 64 ≤ s.entries d.rdx
        ∨ (s.coll c).drain ≠ none ∨ ready = false then s
    else match s.lay c idx e with
      | none => (s.putBucket c { b with st := .done }).formeQuoinAdd c d.cq 1
      | some _ => (s.putBucket c { b with st := .reduce, progress := s.timeUs }).countOpen c
  | _, _ => s

/-! ### Completion (R285, R294, R296, R301) -/

/-- R294: the verdict record, RDX_VERDICTn and the step's outcome. -/
def State.writeVerdict (s : State) (c : Nat) (b : Bucket) (outcome cause origin : Nat) : State :=
  let sec := s.slotsSec c
  let rec_ := leBytes 1 outcome ++ leBytes 1 cause ++ leBytes 2 origin ++ leBytes 2 b.step ++ leBytes 2 b.iepoch
    ++ List.replicate 56 0
  let s := s.landFor c 0 sec.verdict rec_
  let s := (((s.fset (F.RDX_VERDICT_VALID c) 1).fset (F.RDX_VERDICT_OUTCOME c) outcome).fset (F.RDX_VERDICT_CAUSE c)
    cause).fset (F.RDX_VERDICT_STEP c) b.step
  let s := (s.modColl c fun k => { k with verdict := some (outcome, cause) }).modCtx c fun x => { x with outcome := outcome }
  if outcome = 2 then s.raise 0x060B (some c) 0 [cause] else s

/-- The OR of a bucket's segment flags. -/
def Bucket.flags (b : Bucket) : Nat := b.work.foldl (fun a w => a ||| w.trailer.flags) 0

/-- R294: the verdict of the LAST bucket; an ABSENT verdict of the step stands. -/
def State.lastVerdict (s : State) (c : Nat) (b : Bucket) : State :=
  if ((s.coll c).verdict.map (·.1)) = some 3 then s
  else
    let f := b.flags
    let origin := ((b.work.find? fun w => bit w.trailer.flags 0).map (·.trailer.origin)).getD 0xFFFF
    let skip : Bool := bit f 0 || bit f 1 || bit f 2 || (bit f 3 && s.fget (F.CTX_CFG_RANGE_KEEP c) == 0)
    s.writeVerdict c b (if skip then 2 else 1) f origin

/-- R285: the exponent table of the next step. A sum above 0xFF is a free value in the byte. -/
def State.nextExponents (s : State) (c : Nat) (l : Lay) (b : Bucket) : State :=
  b.obs.entries.foldl (fun s p =>
    let e := p.2 + s.fget (F.RDX_CTRL_HEADROOM l.d.rdx)
    let r := if e < 256 then (s, e) else s.freeVal
    r.1.landFor c 0 (l.d.expt + p.1) (leBytes 1 r.2)) s

/-- R301: the statistics record. -/
def State.writeStats (s : State) (c : Nat) (l : Lay) (b : Bucket) : State :=
  let ss := b.work.foldl (fun a w => fadd32 a w.trailer.ssLocal) 0
  let sr := b.work.foldl (fun a w => fadd32 a w.trailer.ssRed) 0
  (s.landFor c 0 ((s.slotsSec c).stats + 32 * b.idx)
    (leBytes 4 ss ++ leBytes 4 sr ++ leBytes 2 l.n ++ leBytes 1 b.flags ++ List.replicate 21 0))

/-- R296: the slack array, from the trailers received for the forward segments. -/
def State.writeSlacks (s : State) (c : Nat) (b : Bucket) : State :=
  b.work.foldl (fun s w =>
    if w.dir = 0 ∧ w.whole = true ∧ w.trailer.slackRank ≠ 0xFFFF then
      (s.landFor c 0 ((s.slotsSec c).slack + 2 * w.trailer.slackRank) (leBytes 2 w.trailer.slack))
    else s) s

/-- A bucket ends: DONE, INVALID, or incomplete (R290); what R285, R301, R294, R327 and R332 do at its end. -/
def State.bucketEnd (s : State) (c : Nat) (l : Lay) (b : Bucket) : State :=
  let s := if b.bad || b.incomplete then s else s.nextExponents c l b
  let s := if l.d.stats && !b.incomplete then s.writeStats c l b else s
  let s := if l.d.last then s.writeSlacks c b else s
  let s := if b.incomplete then (s.raise 0x0606 (some c) l.d.rdx [b.idx]).writeVerdict c b 3 0 0xFFFF
    else if l.d.last then s.lastVerdict c b else s
  let s := s.putBucket c { b with st := if b.bad || b.incomplete then .invalid else .done, progress := s.timeUs }
  let s := (s.formeQuoinAdd c l.d.cq 1).countOpen c
  if l.d.last ∧ b.incomplete = false then
    match s.tables c b.iepoch with
    | some (i, _) => (s.rebalance c l.d i).fpCompare c (b.step - 1)
    | none => s
  else s

/-- Whether a frame lies in a bucket's gather area. -/
def Lay.inGather (l : Lay) (a : Nat) : Bool := decide (l.d.gather ≤ a ∧ a < l.d.gather + 2048 * l.gatherFrames)

/-- Whether every segment has been reduced, and every unit of it decoded and forwarded. -/
def State.gathered (s : State) (c : Nat) (l : Lay) (b : Bucket) : Bool :=
  b.work.all (fun w => w.reduced && w.whole && ((w.ranges.map (·.2)).sum == (l.span w.seg w.dir).2))
    && (s.coll c).frames.all fun f => !l.inGather f.addr || f.src != .own

/-- The state of a bucket after an operation on it. -/
def State.settleBucket (s : State) (c : Nat) (l : Lay) (b : Bucket) : State :=
  let b := { b with progress := s.timeUs, st := if b.st = .reduce ∧ b.work.all (·.reduced) then .gather else b.st }
  let s := s.putBucket c b
  if s.gathered c l b then s.bucketEnd c l b else s.countOpen c

/-! ### Frames -/

/-- The first frame that holds a unit of this bucket, phase and direction that satisfies `p`. -/
def State.nextIn (s : State) (c : Nat) (b : Bucket) (phase dir : Nat) (p : UnitIn → RUnit → Bool) : Option (UnitIn × RUnit) :=
  (s.coll c).frames.findSome? fun f =>
    match RUnit.parse (s.unitBytes f) with
    | none => none
    | some u =>
      if u.tag = bucketTag c b.iepoch b.step b.idx (u.tag % 4096) ∧ u.phase = phase ∧ u.dir = dir ∧ p f u = true
      then some (f, u) else none

/-- Bytes of a unit on the wire. -/
def RUnit.wire (u : RUnit) : Nat := 64 + (u.blocks.map Block.length).sum

def State.dropFrame (s : State) (c : Nat) (f : UnitIn) : State :=
  s.modColl c fun k => { k with frames := k.frames.erase f }

/-! ### The reduce phase -/

/-- R339: whether the LAST bucket's first operation is held; its event is raised once per step. -/
def State.gateHold (s : State) (c n : Nat) : State × Bool :=
  if (s.coll c).lastStarted ∨ s.gateOpen c n = true then (s, false)
  else
    let s := s.fset (F.RES_STAT_GATE_WAIT c) 1
    (if (s.coll c).gateTold then s else (s.raise 0x0801 (some c) 0 []).modColl c fun k => { k with gateTold := true }, true)

/-- R337: the LAST bucket's first operation starts; the generation held live is no longer so. -/
def State.startLast (s : State) (c : Nat) : State :=
  if (s.coll c).lastStarted then s
  else ((s.modColl c fun k => { k with lastStarted := true }).fset (F.RES_STAT_GATE_WAIT c) 0).fset (F.RES_STAT_LIVE_VALID c) 0

/-- One reduce operation of a bucket in direction `dir`: the encoding of a segment (hop 0), or the hop on the oldest
arrived unit; none where none is ready (R276). -/
def State.reduceOn (s : State) (c : Nat) (b : Bucket) (dir : Nat) : Option State :=
  match s.lay c b.idx b.iepoch with
  | none => none
  | some l =>
    let old := b.iepoch != s.curEpoch c
    let started := fun hops => s.slotStarted c b.idx 0 dir hops old
    let begin_ := fun (k : State → State × Bucket) =>
      let (s, hold) := if l.d.last then s.gateHold c b.step else (s, false)
      if hold then some s
      else
        let (s, b) := k (if l.d.last then s.startLast c else s)
        some (s.settleBucket c l b)
    if l.d.kind = 3 then
      match b.work? 0 0 with
      | none => none
      | some w =>
        if w.reduced ∨ dir = 1 then none
        else if w.level = 0 ∧ l.sendLevel ≤ l.dueFrom 1 then
          if started [0, 1, l.sendLevel] then
            begin_ fun s => let r := s.treeLocal c l b w true; r.1.treeSend c l r.2.1 r.2.2
          else none
        else match s.nextIn c b 0 0 fun _ u => u.hop == l.dueFrom (Nat.max 1 w.level) && started [u.hop] with
          | none => none
          | some (f, u) => begin_ fun s =>
            let (s, b, w) := if w.level = 0 then s.treeLocal c l b w false else (s, b, w)
            ((s.rdxRead c f.addr u.wire).dropFrame c f).treeHopUnit c l b w u
    else
      match b.work.find? fun w => w.dir == dir && !w.reduced && l.hop w.seg dir == 0 && started [0] with
      | some w => begin_ fun s => s.encodeSeg c l b w (if l.dist w.seg dir = 0 then .own else .rank (l.next dir))
      | none =>
        match s.nextIn c b 0 dir fun _ u => started [l.hop (u.tag % 4096) dir] with
        | none => none
        | some (f, u) =>
          match b.work? (u.tag % 4096) dir with
          | none => none
          | some w => begin_ fun s =>
            ((s.rdxRead c f.addr u.wire).dropFrame c f).hopUnit c l b w (if l.dist w.seg dir = 0 then .own else .rank (l.next dir)) u

/-- R266: whether the buckets of context `c` encode and hop: it runs, or it idles with a bucket of its last step open. -/
def State.bucketsRun (s : State) (c : Nat) : Bool :=
  (s.ctxState c == ctxRunning || s.ctxState c == ctxIdle) && !s.clockStopped none

/-- Buckets of index `idx` that an operation may serve: open, not stopped (R291), on an enabled engine of such a
context; the draining epoch's first. -/
def State.serving (s : State) (c idx : Nat) : List Bucket :=
  let en : Bool := match s.desc? c idx with | some d => s.fget (F.RDX_CTRL_EN d.rdx) == 1 | none => false
  if s.bucketsRun c = false ∨ en = false then []
  else
    let l := (s.coll c).buckets.filter fun b => b.idx == idx && b.opened && !b.events.contains 99
    l.filter (fun b => b.iepoch != s.curEpoch c) ++ l.filter fun b => b.iepoch == s.curEpoch c

def State.reduceOperation (s : State) (c idx dir : Nat) : State :=
  ((s.serving c idx).findSome? fun b => s.reduceOn c b dir).getD s

/-! ### The gather phase (R287, R290) -/

/-- R272 to R274: where this member forwards a gather unit, with the HOP it then carries. -/
def Lay.gatherNext (l : Lay) (k dir : Nat) : List (Nat × Nat) :=
  if l.d.kind = 3 then
    let top := if l.me = 0 then l.levels else l.sendLevel - 1
    ((List.range top).map fun i => top - i).filterMap fun v =>
      if l.me + 2 ^ (v - 1) < l.n then some (l.me + 2 ^ (v - 1), v) else none
  else if l.dist k dir + 1 < l.n then [(l.next dir, l.dist k dir + 1)] else []

/-- The hops or levels of this member's gather operation on a segment, received or sent. -/
def Lay.gatherHops (l : Lay) (k dir : Nat) : List Nat :=
  if l.d.kind = 3 then l.sendLevel :: (l.gatherNext k dir).map (·.2) else [l.dist k dir, l.dist k dir + 1]

/-- R275, R287: the hops whose slot starts the handling of a gather unit: those it is forwarded at, and for the last
receiver the hop that brings it. -/
def Lay.gatherSlot (l : Lay) (k dir : Nat) (own : Bool) : List Nat :=
  let next := (l.gatherNext k dir).map (·.2)
  if own || !next.isEmpty then next else l.gatherHops k dir

/-- R290: the holders of a gather unit that this member may fetch it from: the owner and its successors in the phase's
order, up to its own predecessor. -/
def Lay.holders (l : Lay) (k dir : Nat) : List Nat :=
  if l.d.kind = 3 then
    (((List.range l.levels).map fun v => l.me / 2 ^ (v + 1) * 2 ^ (v + 1)).filter (· != l.me)).dedup.reverse
  else (List.range (l.dist k dir)).map fun x => if dir = 0 then (k + x) % l.n else (k + l.n - x) % l.n

/-- R290: a fetch of a gather unit from holder number `r`. -/
def State.refetchUnit (s : State) (c : Nat) (l : Lay) (b : Bucket) (k dir j r : Nat) : State :=
  match (l.holders k dir)[r]? with
  | none => s.bucketEnd c l { b with incomplete := true }
  | some h =>
    let a := l.gatherFrame k dir j
    s.request (mkXfer .read (.refetch c b.idx k dir j r) (l.fab h) 1 c c a [] a 2048) false

/-- The bytes of a unit as it is forwarded at `hop`. -/
def forwarded (bytes : List Byte) (hop : Nat) : List Byte := bytes.take 10 ++ leBytes 2 hop ++ bytes.drop 12

/-- R287: one gather unit decoded, kept in its frame and forwarded. -/
def State.gatherOn (s : State) (c : Nat) (b : Bucket) (dir : Nat) : Option State :=
  match s.lay c b.idx b.iepoch with
  | none => none
  | some l =>
    let old := b.iepoch != s.curEpoch c
    match s.nextIn c b 1 dir fun f u =>
      s.slotStarted c b.idx 1 dir (l.gatherSlot (u.tag % 4096) dir (f.src == .own)) old with
    | none => none
    | some (f, u) =>
      let k := u.tag % 4096
      match b.work? k dir with
      | none => none
      | some w =>
        let j := (f.addr - l.gatherFrame k dir 0) / 2048
        let s := s.dropFrame c f
        if u.missing ∧ f.src = .arrived then
          let s := ((s.raise 0x0605 (some c) l.d.rdx [b.idx, k, j]).fadd (F.RDX_FAULT_CNT_REREQ l.d.rdx) 1).countMissing l.d.rdx
          some (s.refetchUnit c l b k dir j 0)
        else
          let s := s.rdxRead c f.addr u.wire
          let s := if u.missing && f.src == .fetched then s.countMissing l.d.rdx else s
          let mine : Bool := f.src == .own && l.d.last && dir == 0 && u.last
          let sl := (s.coll c).slack
          let f : UnitIn := if mine then { f with head := f.head.take 54 ++ leBytes 2 sl ++ f.head.drop 56 } else f
          let send := fun (s : State) => (l.gatherNext k dir).foldl (fun s p =>
            (if u.missing then s.countMissing l.d.rdx else s).request (mkXfer .bucket (.unit c b.idx k dir 1 u.first u.n u.last u.missing) (l.fab p.1) 4 c c f.addr
              (forwarded ((s.unitBytes f).take u.wire) p.2) 0 0) false) s
          let s := if l.d.last then s.modColl c fun q => { q with gathering := true } else s
          if f.src = .own then
            let s := if mine then s.landFor c 0 (f.addr + 54) (leBytes 2 sl) else s
            let b := if mine then b.putWork { w with trailer := { w.trailer with slack := sl } } else b
            some ((send s).settleBucket c l b)
          else
            let (s, b) := s.decodeInto c l b ((l.seg k).1 + u.first)
              (u.blocks.zip u.obs)
            let b := if u.missing then { b with bad := true } else b
            let w := { w with ranges := w.ranges ++ [(u.first, u.n)], whole := w.whole || u.last
                              trailer := if u.last then u.tr else w.trailer }
            some ((send s).settleBucket c l (b.putWork w))

def State.gatherHop (s : State) (c idx dir : Nat) : State :=
  ((s.serving c idx).findSome? fun b => s.gatherOn c b dir).getD s

/-- R290: the end of a fetch: the unit waits in its frame, or the next holder is asked. -/
def State.refetchEnded (s : State) (c idx k dir j r : Nat) (e : XEnd) : State :=
  match (s.coll c).buckets.find? fun b => b.idx == idx && b.opened with
  | none => s
  | some b =>
    match s.lay c idx b.iepoch with
    | none => s
    | some l =>
      if e = .ok then s.modColl c fun q => { q with frames := q.frames ++ [⟨l.gatherFrame k dir j, 2048, .fetched, s.bytes (l.gatherFrame k dir j) 64⟩] }
      else s.refetchUnit c l b k dir j (r + 1)

/-! ### The end of a unit's request (R289, R291, R232) -/

/-- R289, R290: a unit has failed: a MISSING unit takes its place; a MISSING unit that fails stops the bucket (R291). -/
def State.unitFailed (s : State) (c : Nat) (x : Xfer) (b : Bucket) (l : Lay) (dir phase first n : Nat) (last missing : Bool) :
    State :=
  if missing then s.putBucket c { b with events := 99 :: b.events }
  else
    let s := (s.raise 0x0604 (some c) l.d.rdx [b.idx]).countMissing l.d.rdx
    let s := (s.putBucket c (if phase = 0 then { b with bad := true } else b)).countOpen c
    match RUnit.parse x.data with
    | none => s
    | some u =>
      let u2 : RUnit := { u with
        uflags := u.uflags ||| 8, obs := [], blocks := []
        tr := if last ∧ phase = 0 then { u.tr with flags := u.tr.flags ||| 2 } else u.tr }
      s.request (mkXfer .bucket (.unit c b.idx (u.tag % 4096) dir phase first n last true) x.fab 4 c c x.addr u2.bytes 0 0) true

/-- The end of a unit's request. -/
def State.unitEnded (s : State) (c : Nat) (x : Xfer) (idx dir phase first n : Nat) (last missing : Bool) (e : XEnd) : State :=
  let ep := leAt x.data 0 8 / 2 ^ 44 % 65536
  match s.bucket? c idx ep with
  | none => s
  | some b =>
    match s.lay c idx ep with
    | none => s
    | some l =>
      match e with
      | .ok => s.putBucket c { b with progress := s.timeUs }
      | .noContext => (s.raise 0x0427 (some c) l.d.rdx [x.fab]).putBucket c { b with events := 99 :: b.events }
      | _ => s.unitFailed c x b l dir phase first n last missing

/-! ### Stalls and lost members (R291, R292) -/

/-- The member whose unit is due to this one on bucket `b`, and since when in ns: the predecessor in an operation on a unit
that has not arrived and whose slot has started. -/
def State.unitDue (s : State) (c : Nat) (b : Bucket) : Option (Nat × Nat) :=
  match s.lay c b.idx b.iepoch with
  | none => none
  | some l =>
    let old := b.iepoch != s.curEpoch c
    let due := fun (w : SegWork) (phase fab : Nat) (hops : List Nat) =>
      (s.slotStarts c b.idx phase w.dir hops old).min?.map fun t => (fab, t)
    b.work.findSome? fun w =>
      if l.d.kind = 3 then
        let v := l.dueFrom (Nat.max 1 w.level)
        (if w.reduced = false ∧ v < l.sendLevel ∧ v ≤ l.levels then due w 0 (l.fab (l.me + 2 ^ (v - 1))) [v] else none).or
          (if w.whole = false ∧ l.me ≠ 0 then due w 1 (l.fab (l.me - 2 ^ (l.sendLevel - 1))) (l.gatherHops w.seg 0) else none)
      else
        let prev := l.fab (if w.dir = 0 then (l.me + l.n - 1) % l.n else (l.me + 1) % l.n)
        let h := l.hop w.seg w.dir
        (if w.reduced = false ∧ h ≠ 0 then due w 0 prev [h] else none).or
          (if w.whole = false ∧ l.dist w.seg w.dir ≠ 0 then due w 1 prev (l.gatherHops w.seg w.dir) else none)

/-- R355: event 0x080A, once per peer per step, names the peer, the context and its tick group. -/
def State.tellStraggler (s : State) (c fab : Nat) : State :=
  if (s.coll c).told.contains fab then s
  else (s.raise 0x080A (some c) 0 [fab, c, s.fget (F.CTX_CFG_TICK_GROUP c)]).modColl c fun k => { k with told := fab :: k.told }

/-- R291, R292: no progress for the context's peer timeout while a unit is due, and no slip that holds it: the collectives
fail with MEMBER_LOST. The timeout counts from the last of the progress, the slot's start and the slip's end. -/
def State.bucketStall (s : State) (c idx : Nat) : State :=
  let stuck := (s.coll c).buckets.findSome? fun b =>
    if b.idx = idx ∧ b.opened = true then
      match s.unitDue c b with
      | some (fab, t) =>
        if 1000 * (Nat.max b.progress (s.ctx c).slipEnd + 1000 * s.fget (F.CTX_CFG_PEER_TO_MS c)) ≤ 1000 * s.timeUs
            ∧ t + 1000000 * s.fget (F.CTX_CFG_PEER_TO_MS c) ≤ 1000 * s.timeUs then some fab else none
      | none => none
    else none
  match stuck with
  | none => s
  | some fab =>
    if s.bucketsRun c = true ∧ (s.ctx c).slipping = false then
      (s.tellStraggler c fab).modColl c fun k => { k with lost := true }
    else s

/-- R292: whether an open bucket's group holds the member at `fab`. -/
def State.lostMember (s : State) (c fab : Nat) : Bool :=
  (s.coll c).buckets.any fun b => b.opened && (match s.lay c b.idx b.iepoch with | some l => l.fabs.contains fab | none => false)

/-- R298: the drain ends when no old-epoch bucket is open: the old tables are released. -/
def State.epochDrained (s : State) (c : Nat) : State :=
  let k := s.coll c
  let e := s.curEpoch c
  if k.drain = none ∨ k.buckets.any (fun b => b.opened && b.iepoch != e) then s
  else
    let named := s.namedBy c
    let s := s.modColl c fun k => { k with
      drain := none, buckets := k.buckets.filter (fun b => b.iepoch == e)
      frames := k.frames.filter fun u => bits (u.tag) 59 44 == e }
    (((s.fset (F.RDX_DRAIN_DRAINING c) 0).raise 0x0609 (some c) 0 []).prunePeers named).countOpen c

/-! ### Admission (R281, Table 9-7) -/

/-- Whether `a` lies in the context's staging area, and whether in a gather area. -/
def State.inStaging (s : State) (c a : Nat) : Bool :=
  let x := s.slotsSec c
  decide (x.stageBase ≤ a ∧ a < x.stageBase + 2048 * x.stageLen)

def State.inGatherArea (s : State) (c a : Nat) : Bool :=
  let e := s.curEpoch c
  let old := ((s.coll c).drain.map (·.imp.iepoch)).getD e
  (List.range (s.slotsSec c).buckets.length).any fun b =>
    (match s.lay c b e with | some l => l.inGather a | none => false)
      || (match s.lay c b old with | some l => l.inGather a | none => false)

/-- Table 9-7, order 4: whether HOP is a hop number or level of the group, and ORIGIN and SLACK_RANK name its ranks or none. -/
def Lay.inRange (l : Lay) (u : RUnit) : Bool :=
  let rank := fun r : Nat => r == 0xFFFF || decide (r < l.n)
  (if l.d.kind = 3 then decide (1 ≤ u.hop ∧ u.hop ≤ l.levels) else decide (u.phase ≤ u.hop ∧ u.hop < l.n))
    && rank u.tr.origin && rank u.tr.slackRank

/-- Table 9-7 in order, for a unit at `a` in a cell that names context `c`: the status, and whether the bytes land. A
range that has been consumed already, or that waits in its frame, is acknowledged and dropped. -/
def State.admitUnit (s : State) (c a : Nat) (data : List Byte) : State × Nat :=
  let v := s.ctxState c
  if v = ctxFree ∨ v = ctxTearing ∨ v = ctxFaulted then (s, 3)
  else if s.inStaging c a = false ∧ s.inGatherArea c a = false then (s.countRefusal c .window, 2)
  else
    let tag := leAt data 0 8
    let idx := bits tag 27 12
    let ep := bits tag 59 44
    let st := bits tag 43 28
    let k := tag % 4096
    let now := (s.ctx c).step % 65536
    let draining : Bool := ep != s.curEpoch c && (s.bucket? c idx ep).any fun b => b.step % 65536 == st
    let rdx := ((s.desc? c idx).map (·.rdx)).getD 0
    let stale := fun (s : State) =>
      let s := s.fadd (F.RDX_DROP_CNT_STALE rdx) 1
      let key := 2 ^ 40 + idx
      if (s.coll c).told.contains key then s
      else (s.raise 0x060A (some c) rdx [idx]).modColl c fun q => { q with told := key :: q.told }
    match s.lay c idx ep with
    | none => (stale s, 3)
    | some l =>
      if tag / 2 ^ 60 ≠ c ∨ (st ≠ now ∧ st ≠ (now + 1) % 65536 ∧ draining = false) ∨ l.segCount ≤ k then (stale s, 3)
      else match RUnit.parse (data.take 2048) with
        | none => (s, 4)
        | some u =>
          let (off, len) := l.span k u.dir
          if (u.dir = 1 ∧ l.d.kind ≠ 2) ∨ u.first < off ∨ off + len < u.first + u.n ∨ l.inRange u = false then (s, 4)
          else
            let busy : Bool := u.phase == 0 && (s.coll c).frames.any fun f => f.addr == a
            if busy then (s.fadd (F.RDX_DROP_CNT_BUSY rdx) 1, 1)
            else
              let used : Bool := u.phase == 1 && (s.bucket? c idx ep).any fun b => b.step % 65536 == st &&
                (match b.work? k u.dir with | some w => w.ranges.contains (u.first, u.n) | none => false)
              let again : Bool := (s.coll c).frames.any fun f => f.addr == a && f.head == data.take 64
              if used || again then (s, 0)
              else
                let s := s.landFor c 0 a data
                (s.modColl c fun q => { q with frames := q.frames ++ [⟨a, data.length, .arrived, data.take 64⟩] }, 0)

end Sys2Proof.Machine
end

