-- ==== Sys2Proof/Machine/Ctc.lean ====
section
/-!
DEFINITION. The control core (spec/04_vector_engine_and_control_core.md): which thread issues (R104), the legality of
its word (R110), scalar hazards (R107, R131), and the eighteen CTC instructions of Table 4-3.
-/

namespace Sys2Proof.Machine

/-- The fields of a CTC word (Table 4-2). -/
def wOpc (w : Nat) : Nat := bits w 31 26
def wSd (w : Nat) : Nat := bits w 25 21
def wSa (w : Nat) : Nat := bits w 20 16
def wSb (w : Nat) : Nat := bits w 15 11
def wFunc (w : Nat) : Nat := bits w 10 0
def wImm (w : Nat) : Int := sext 16 w
def wUnit (w : Nat) : Nat := bits w 25 24

/-- R110: whether a CTC word is legal by itself: a listed opcode, FUNC or UNIT, and no unused field set. -/
def ctcLegal (w : Nat) : Bool :=
  match wOpc w with
  | 1 => decide (wFunc w ≤ 12)
  | 2 => true | 3 => true | 4 => true | 5 => true | 6 => true | 7 => true | 8 => true | 9 => true
  | 10 => decide (wSd w = 0)
  | 11 => decide (wSd w = 0 ∧ wFunc w = 0)
  | 12 => decide (wSb w = 0 ∧ wFunc w = 0)
  | 13 => decide (wSa w = 0 ∧ wSb w = 0 ∧ wFunc w = 0)
  | 14 => decide (wUnit w ≤ 2 ∧ bits w 23 0 = 0)
  | 15 => decide (bits w 25 0 = 0)
  | 16 => decide (bits w 25 0 = 0)
  | _ => false

/-- Payload words of an ISSUE (R109). -/
def payloadLen (w : Nat) : Nat :=
  if wOpc w = 14 then (if wUnit w = 0 then 4 else if wUnit w = 1 then 2 else 1) else 0

/-- The scalar registers that a word reads. -/
def ctcReads (w payload : Nat) : List Nat :=
  match wOpc w with
  | 1 => [wSa w, wSb w]
  | 2 => [wSa w] | 3 => [wSa w] | 4 => [wSa w]
  | 5 => [wSa w, wSd w]
  | 6 => [wSd w, wSa w] | 7 => [wSd w, wSa w] | 8 => [wSd w, wSa w]
  | 9 => [wSa w] | 10 => [wSa w]
  | 11 => [wSa w, wSb w]
  | 12 => [wSa w]
  | 14 =>
    if wUnit w = 1 then
      [bits payload 35 31, bits payload 30 26, bits payload 25 21, bits payload 20 16, bits payload 15 11]
    else if wUnit w = 2 then [payload % 32] else []
  | _ => []

/-- The scalar register that a word writes, if it writes one. -/
def ctcWrites (w : Nat) : List Nat :=
  match wOpc w with
  | 1 => [wSd w] | 2 => [wSd w] | 3 => [wSd w] | 4 => [wSd w] | 9 => [wSd w] | 12 => [wSd w] | 13 => [wSd w]
  | _ => []

def State.thread (s : State) (g t : Nat) : Thread := (s.core g).thr.getD t Thread.idle
def State.setThread (s : State) (g t : Nat) (x : Thread) : State :=
  s.modCore g fun c => { c with thr := listSet c.thr t x }

/-- The value of scalar register `r`. -/
def State.sreg (s : State) (g t r : Nat) : Nat := ((s.thread g t).sreg.get 0 r).toNat

/-- Scalar register `r` written. DESIGN CHOICE (assumption 87): an error that waits in the register stays. -/
def State.setSreg (s : State) (g t r v : Nat) : State :=
  let x := s.thread g t
  s.setThread g t { x with sreg := x.sreg.set r (BitVec.ofNat 64 v) }

/-- The program counter moved. -/
def State.setPc (s : State) (g t pc : Nat) : State := s.setThread g t { s.thread g t with pc := pc }

/-- The thread's state changed. -/
def State.setThr (s : State) (g t : Nat) (st : ThrSt) : State := s.setThread g t { s.thread g t with st := st }

/-- The word at LS offset `pc` and its payload, when both lie in the program region (R109, R134). -/
def State.ctcFetch (s : State) (g pc : Nat) : Option (Nat × Nat) :=
  match s.coreForme g with
  | none => none
  | some f =>
    let lim := (f.chaseOf (g / 32)).lsProg
    if lim < pc + 4 then none
    else
      let w := s.le (lsBase g + pc) 4
      let n := payloadLen w
      if lim < pc + 4 + 4 * n then none else some (w, s.le (lsBase g + pc + 4) (4 * n))

/-- The LS offset of an LD or ST. -/
def State.ldOff (s : State) (g t w : Nat) : Nat := wrap 64 ((s.sreg g t (wSa w) : Int) + wImm w * 8)

/-- R104: the state a thread in RUN is in, with its next word: RUN when the word can issue, else the wait it is in. An
illegal word can issue. -/
inductive Ready where
  | issue | waitSb | waitEng | waitHaz
  deriving DecidableEq, Repr

def State.ready (s : State) (g t : Nat) : Ready :=
  let c := s.core g
  match s.ctcFetch g (s.thread g t).pc with
  | none => .issue
  | some (w, p) =>
    if ctcLegal w = false then .issue
    else if (ctcReads w p ++ ctcWrites w).any (c.pendingReg t) then .waitSb
    else if wOpc w = 14 ∧ wUnit w = 0 ∧ (s.galley g).xm ≤ c.xm.length then .waitEng
    else if wOpc w = 14 ∧ wUnit w = 1 ∧ 16 ≤ c.vq.length then .waitEng
    else if wOpc w = 14 ∧ wUnit w = 2 ∧ 32 ≤ c.xq.length then .waitEng
    else if (wOpc w = 4 ∨ wOpc w = 5) ∧ c.vq.any (fun e =>
        match e.writes g with
        | none => false
        | some (a, n) =>
          let o := lsBase g + s.ldOff g t w
          decide (a < o + 8) && decide (o < a + n)) then .waitHaz
    else .issue

/-- R104: the thread that issues next, the first ready one after the thread that issued last. -/
def State.ctcPick (s : State) (g : Nat) : Option Nat :=
  ((List.range 8).map fun i => ((s.core g).last + 1 + i) % 8).find? fun t =>
    (s.thread g t).st == .run && s.ready g t == .issue

/-- CTC_THR_STAT's code of thread `t` (Table 4-1). -/
def State.thrCode (s : State) (g t : Nat) : Nat :=
  match (s.thread g t).st with
  | .idle => 0
  | .run => match s.ready g t with
    | .issue => 1
    | .waitSb => 3
    | .waitEng => 4
    | .waitHaz => 7
  | .waitQ => 2
  | .waitPeek => 5
  | .waitFence => 6
  | .ended => 8
  | .frozen => 15

/-- R109, R133, R134: the scalar registers a word reads, checked: a single-bit error is corrected and counted, a
double-bit error raises event 0x0206 and faults the context. The second value says whether to go on. -/
def State.sregCheck (s : State) (g t : Nat) (rs : List Nat) : State × Bool :=
  let hits := rs.dedup.filterMap fun r => ((s.core g).sregUpset.find (t * 32 + r)).map fun k => (r, k)
  let s1 := hits.foldl (fun s h =>
    if h.2 = 1 then
      (s.modCore g fun c => { c with sregUpset := c.sregUpset.erase (t * 32 + h.1) }).fadd (F.CTC_SREG_ECC_SEC_CNT g) 1
    else s) s
  if hits.any fun h => h.2 ≠ 1 then ((s1.fadd (F.CTC_SREG_ECC_DED_CNT g) 1).illegal g 0x0206, false) else (s1, true)

/-- One CTC issue: the picked thread's word is fetched and checked; when it is the instruction `op` (of unit `unit` for
ISSUE), `eff` runs on the state with the program counter past the word. An illegal word faults whatever was asked, and so does an effect that finds the instruction illegal (none), with the program
counter held at the word. -/
def ctcRow (op : Nat) (unit : Option Nat) (eff : State → Nat → Nat → Nat → Option State) (g : Nat) (s : State) : State :=
  if s.live g = false then s
  else match s.ctcPick g with
    | none => s
    | some t =>
      let pc := (s.thread g t).pc
      match s.ctcFetch g pc with
      | none => s.illegal g 0x0205
      | some (w, p) =>
        if ctcLegal w = false then s.illegal g 0x0205
        else if wOpc w ≠ op ∨ (unit.getD (wUnit w) ≠ wUnit w) then s
        else
          let r := s.checkRead (lsBase g + pc) (4 + 4 * payloadLen w) (s.occupant g)
          let q := r.1.sregCheck g t (ctcReads w p)
          if r.2 = false then r.1.setThr g t .frozen
          else if q.2 = false then q.1
          else
            let s := q.1.modCore g fun c => { c with last := t, thrAt := listSet c.thrAt t s.timeUs }
            match eff (s.setPc g t (pc + 4 + 4 * payloadLen w)) t w p with
            | none => s.illegal g 0x0205
            | some s' => s'.settle g

/-- The 64-bit ALU (Table 4-3). -/
def aluOp (f a b : Nat) : Nat :=
  let m := 2 ^ 64
  let sa := sext 64 a
  let sb := sext 64 b
  match f with
  | 0 => (a + b) % m
  | 1 => (a + (m - b)) % m
  | 2 => a &&& b
  | 3 => a ||| b
  | 4 => a ^^^ b
  | 5 => a * 2 ^ (b % 64) % m
  | 6 => a / 2 ^ (b % 64)
  | 7 => wrap 64 (sa / (2 ^ (b % 64) : Nat))
  | 8 => a * b % m
  | 9 => if sa < sb then 1 else 0
  | 10 => if a < b then 1 else 0
  | 11 => if sa < sb then a else b
  | _ => if sa < sb then b else a

/-- ALU: SD = SA op SB. -/
def execAlu (g : CoreId) (s : State) : Host.Outcome State Fault Refusal :=
  .next (ctcRow 1 none (fun s t w _ =>
    some <| s.setSreg g t (wSd w) (aluOp (wFunc w) (s.sreg g t (wSa w)) (s.sreg g t (wSb w)))) g s)

/-- ADDI: SD = SA + sign-extended IMM16. -/
def execAddi (g : CoreId) (s : State) : Host.Outcome State Fault Refusal :=
  .next (ctcRow 2 none (fun s t w _ =>
    some <| s.setSreg g t (wSd w) (wrap 64 ((s.sreg g t (wSa w) : Int) + wImm w))) g s)

/-- ORSH: SD = (SA << 16) | zero-extended IMM16. -/
def execOrsh (g : CoreId) (s : State) : Host.Outcome State Fault Refusal :=
  .next (ctcRow 3 none (fun s t w _ =>
    some <| s.setSreg g t (wSd w) (s.sreg g t (wSa w) * 65536 % 2 ^ 64 + w % 65536)) g s)

/-- LD: the 64-bit LS word at the 8-byte aligned offset; outside the layout or misaligned is illegal (R110, R134). -/
def execLd (g : CoreId) (s : State) : Host.Outcome State Fault Refusal :=
  .next (ctcRow 4 none (fun s t w _ =>
    let o := s.ldOff g t w
    if o % 8 ≠ 0 ∨ s.lsOk g o 8 = false then none
    else
      let r := s.checkRead (lsBase g + o) 8 (s.occupant g)
      if r.2 = false then some <| r.1.setThr g t .frozen
      else some <| r.1.setSreg g t (wSd w) (s.le (lsBase g + o) 8)) g s)

/-- ST: SD stored at the offset of LD. -/
def execSt (g : CoreId) (s : State) : Host.Outcome State Fault Refusal :=
  .next (ctcRow 5 none (fun s t w _ =>
    let o := s.ldOff g t w
    if o % 8 ≠ 0 ∨ s.lsOk g o 8 = false then none
    else
      let r := s.memWrite (lsBase g + o) (leBytes 8 (s.sreg g t (wSd w))) (s.occupant g)
      some <| if r.2 then r.1 else r.1.setThr g t .frozen) g s)

/-- A branch: SA and SB are the first two register fields of format B; OFFS16 counts words from this word. -/
def branch (cond : Nat → Nat → Bool) (g : Nat) (s : State) (t w : Nat) : State :=
  if cond (s.sreg g t (wSd w)) (s.sreg g t (wSa w)) then
    s.setPc g t (wrap 64 (((s.thread g t).pc : Int) - 4 + 4 * wImm w))
  else s

/-- BEQ: branch if SA = SB. -/
def execBeq (g : CoreId) (s : State) : Host.Outcome State Fault Refusal :=
  .next (ctcRow 6 none (fun s t w _ => some <| branch (fun a b => a == b) g s t w) g s)

/-- BNE: branch if SA ≠ SB. -/
def execBne (g : CoreId) (s : State) : Host.Outcome State Fault Refusal :=
  .next (ctcRow 7 none (fun s t w _ => some <| branch (fun a b => a != b) g s t w) g s)

/-- BLT: branch if SA < SB, signed. -/
def execBlt (g : CoreId) (s : State) : Host.Outcome State Fault Refusal :=
  .next (ctcRow 8 none (fun s t w _ => some <| branch (fun a b => decide (sext 64 a < sext 64 b)) g s t w) g s)

/-- JMPR: to the 4-byte aligned offset SA + IMM16 × 4; SD = the offset of the next word. -/
def execJmpr (g : CoreId) (s : State) : Host.Outcome State Fault Refusal :=
  .next (ctcRow 9 none (fun s t w _ =>
    let o := wrap 64 ((s.sreg g t (wSa w) : Int) + wImm w * 4)
    if o % 4 ≠ 0 then none
    else some <| (s.setSreg g t (wSd w) (s.thread g t).pc).setPc g t o) g s)

/-- A quoin access by a thread: a quoin the context does not own is a window violation, and the thread freezes
(R152, R217). -/
def quoinUse (g : Nat) (s : State) (t q : Nat) (eff : State → State) : State :=
  if s.quoinOwned g q then eff s else (s.setThr g t .frozen).violation g

/-- QADD: IMM16 is added to quoin SA[9:0] and its wait list is evaluated (R153). -/
def execQadd (g : CoreId) (s : State) : Host.Outcome State Fault Refusal :=
  .next (ctcRow 10 none (fun s t w _ =>
    let q := s.sreg g t (wSa w) % 1024
    some <| quoinUse g s t q fun s => s.quoinAdd g q (wImm w)) g s)

/-- QWAIT: the thread goes on when the counter is at least SB[31:0], else it waits in WAIT_Q. -/
def execQwait (g : CoreId) (s : State) : Host.Outcome State Fault Refusal :=
  .next (ctcRow 11 none (fun s t w _ =>
    let q := s.sreg g t (wSa w) % 1024
    let v := s.sreg g t (wSb w) % 2 ^ 32
    some <| quoinUse g s t q fun s =>
      if v ≤ s.quoin g q then s
      else s.setThread g t { s.thread g t with st := .waitQ, arg := q, val := v }) g s)

/-- QREAD: SD = the counter, zero-extended. -/
def execQread (g : CoreId) (s : State) : Host.Outcome State Fault Refusal :=
  .next (ctcRow 12 none (fun s t w _ =>
    let q := s.sreg g t (wSa w) % 1024
    some <| quoinUse g s t q fun s => s.setSreg g t (wSd w) (s.quoin g q)) g s)

/-- GPEEK: SD = the head of the MXE→VXE galley; while it is empty the thread waits in WAIT_PEEK. -/
def execGpeek (g : CoreId) (s : State) : Host.Outcome State Fault Refusal :=
  .next (ctcRow 13 none (fun s t w _ =>
    some <| s.setThread g t { s.thread g t with st := .waitPeek, arg := wSd w }) g s)

/-- The eight words of the descriptor at LS offset `o`. -/
def State.descWords (s : State) (g o : Nat) : List Nat := (List.range 8).map fun i => s.le (lsBase g + o + 8 * i) 8

/-- Whether a descriptor, or a later one of its chain as it stands in the LS, writes the operand cache. -/
def State.chainToOc (s : State) (g : Nat) : Nat → List Nat → Bool
  | 0, _ => false
  | k + 1, l =>
    let op := bits (l.getD 0 0) 63 60
    let next := bits (l.getD 7 0) 21 6
    ((op == 1 || op == 2) && bits (l.getD 0 0) 55 55 == 0 && place (bits (l.getD 2 0) 47 0) == .oc g)
      || (next != 0 && s.chainToOc g k (s.descWords g (64 * next)))

/-- ISSUE UNIT 0: the MXE instruction enters the XFE→MXE galley, behind the thread's own transfers into the operand
cache that have not landed (R75), which are named by their chains. -/
def execIssueMxe (g : CoreId) (s : State) : Host.Outcome State Fault Refusal :=
  .next (ctcRow 14 (some 0) (fun s t _ p =>
    some <|
      let c := s.core g
      let l := (c.xq ++ c.act.map (·.d) ++ c.lost).filter fun d => d.thread == t && s.chainToOc g 65536 d.words
      let w := c.chainWait.filter fun d => d.thread == t &&
        s.chainToOc g 65536 (if d.words.isEmpty then s.descWords g d.addr else d.words)
      s.modCore g fun c => { c with xm := c.xm ++ [⟨p, t, ((l ++ w).map (·.chain)).dedup⟩] }) g s)

/-- ISSUE UNIT 1: the VXE instruction enters the VXE queue with the scalars it names (R113, R128). -/
def execIssueVxe (g : CoreId) (s : State) : Host.Outcome State Fault Refusal :=
  .next (ctcRow 14 (some 1) (fun s t _ p =>
    let r := s.sreg g t
    some <| s.modCore g fun c => { c with vq := c.vq ++ [⟨p, t, r (bits p 35 31), r (bits p 30 26), r (bits p 25 21),
      r (bits p 20 16), r (bits p 15 11)⟩] }) g s)

/-- Fields of a transfer descriptor (Table 5-6). -/
def dField (l : List Nat) (word hi lo : Nat) : Nat := bits (l.getD word 0) hi lo

/-- R155: whether a descriptor's words are legal, apart from R127 and R454, which need the operand cache. DESIGN CHOICE
(assumption 93): which fields an operation uses is not tabulated; RQ without DST_REM, an RQ from 1 to 511 and GSRC beside
SRC_REM are refused. -/
def descLegal (g : Nat) (l : List Nat) : Bool :=
  let f := dField l
  let op := f 0 63 60
  let copy := op == 1
  let zero := op == 2
  let qset := op == 3
  let hint := op == 4
  let shape := copy || zero || hint
  let gsrc := f 0 24 24 == 1
  let srcUsed := (copy || hint) && !gsrc
  let dstUsed := copy || zero
  let own := fun a : Nat => place a == .ls g || place a == .oc g
  let unused := fun (used : Bool) (v : Nat) => used || v == 0
  (copy || zero || qset || hint)
    && f 1 63 48 == 0 && f 2 63 48 == 0 && f 3 29 0 == 0 && f 5 11 0 == 0 && f 6 21 0 == 0 && f 7 35 22 == 0
    && f 7 5 0 == 0
    && decide (f 0 59 57 ≤ 5) && unused shape (f 0 59 57) && unused shape (f 0 39 28)
    && unused copy (f 0 56 56) && unused dstUsed (f 0 55 55)
    && !(f 0 56 56 == 1 && f 0 55 55 == 1)
    && unused (f 0 56 56 == 1 || f 0 55 55 == 1) (f 0 23 0)
    && decide (f 0 54 52 ≤ 4) && unused dstUsed (f 0 54 52) && unused (f 0 54 52 != 0) (f 0 51 40)
    && decide (f 0 27 26 ≤ 1) && unused dstUsed (f 0 27 26)
    && unused dstUsed (f 0 25 25) && unused copy (f 0 24 24) && unused (f 0 56 56 == 0) (f 0 24 24)
    && (gsrc || unused srcUsed (f 1 47 0)) && (!srcUsed || f 1 5 0 == 0)
    && unused dstUsed (f 2 47 0) && f 2 5 0 == 0
    && (gsrc || unused shape (f 3 63 46)) && (gsrc || unused shape (f 3 45 30))
    && unused (copy || hint) (f 4 63 32) && (qset || f 4 37 32 == 0)
    && unused (dstUsed || qset) (f 4 31 0) && (qset || f 4 5 0 == 0)
    && unused dstUsed (f 5 21 12) && unused dstUsed (f 6 63 48)
    && unused (f 0 55 55 == 1) (f 7 61 52) && unused (f 7 61 52 != 0) (f 7 63 62) && unused (f 7 61 52 != 0) (f 7 51 36)
    && (f 7 61 52 == 0 || decide (512 ≤ f 7 61 52))
    && unused (f 5 63 54 != 0) (f 5 53 22) && unused (f 5 21 12 != 0) (f 6 63 48) && unused (f 5 21 12 != 0) (f 0 25 25)
    && unused (f 6 47 38 != 0 && !qset) (f 6 37 22)
    && (f 0 27 26 == 0 || (f 0 55 55 == 0 && own (f 2 47 0)))
    && (f 0 54 52 == 0 || (f 0 55 55 == 0 && place (f 2 47 0) == .oc g))

/-- The quoins that a descriptor names on its own core (R152). -/
def descQuoins (l : List Nat) : List Nat := [dField l 5 63 54, dField l 5 21 12, dField l 6 47 38]

/-- R155: an illegal descriptor freezes the XFE, raises event 0x0308 and faults the context. -/
def State.xfeIllegal (s : State) (g : Nat) : State :=
  ((s.fset (F.XFE_STAT_FROZEN g) 1).raise 0x0308 (s.occupant g) g []).coreFault g 0x0308

/-- R158, R217: a window violation of the XFE. -/
def State.xfeViolation (s : State) (g : Nat) : State := (s.fset (F.XFE_STAT_FROZEN g) 1).violation g

/-- ISSUE UNIT 2: the descriptor at the register's LS offset is copied into the XFE queue (R155, R157). -/
def execIssueXfe (g : CoreId) (s : State) : Host.Outcome State Fault Refusal :=
  .next (ctcRow 14 (some 2) (fun s t _ p =>
    if 32 ≤ p then none
    else some <|
      let o := s.sreg g t p
      if 2 ^ 22 ≤ o ∨ o % 64 ≠ 0 ∨ 0x400000 < o + 64 then s.xfeIllegal g
      else if s.lsOk g o 64 = false then s.xfeViolation g
      else
        let r := s.checkRead (lsBase g + o) 64 (s.occupant g)
        let l := s.descWords g o
        if r.2 = false then r.1.fset (F.XFE_STAT_FROZEN g) 1
        else if descLegal g l = false then r.1.xfeIllegal g
        else if (descQuoins l).any (fun q => !s.quoinOwned g q) then r.1.xfeViolation g
        else r.1.modCore g fun c =>
          let ok := decide (dField l 5 53 22 ≤ r.1.quoin g (dField l 5 63 54))
          { c with xq := c.xq ++ [⟨c.nextDesc, c.nextDesc, t, o, l, ok⟩], nextDesc := c.nextDesc + 1 }) g s)

/-- ENDI: the thread enters END. -/
def execEndi (g : CoreId) (s : State) : Host.Outcome State Fault Refusal :=
  .next (ctcRow 15 none (fun s t _ _ => some <| s.setThr g t .ended) g s)

/-- FENCE: the thread waits in WAIT_FENCE until every engine instruction it issued earlier has completed. -/
def execFence (g : CoreId) (s : State) : Host.Outcome State Fault Refusal :=
  .next (ctcRow 16 none (fun s t _ _ => some <| s.setThr g t .waitFence) g s)

end Sys2Proof.Machine
end

