-- ==== Sys2Proof/Machine/Functions.lean ====
section
/-!
DEFINITION. The function units of Table 4-8 and the tile adder of R70: the exact values to far more bits than FP32 has, the
codes that an error bound allows around one, the choice of one of them by a free value, and a sum in an adder of a free
width.
-/

namespace Sys2Proof.Machine

/-! ### Fixed-point values with `fixBits` fraction bits -/

def fixBits : Nat := 192
def fixOne : Nat := 2 ^ fixBits

/-- An exact value in fixed point, rounded down; 0 for what is not finite. -/
def Num.fix : Num → Int
  | .fin s m e =>
    let v : Nat := if 0 ≤ e + fixBits then m * 2 ^ (e + fixBits).toNat else m / 2 ^ (-(e + fixBits)).toNat
    if s then -(v : Int) else v
  | _ => 0

def fixMul (a b : Nat) : Nat := a * b / fixOne
def fixDiv (a b : Nat) : Nat := a * fixOne / b

/-- The square root of a fixed-point value below 4. -/
def fixSqrt (a : Nat) : Nat := isqrt (fixBits + 2) (a * fixOne)

/-- Σ x^(2k+1) / (2k+1), alternating where `alt`: the inverse tangent, or the inverse hyperbolic one, of x below 1/2. -/
def fixAtan (alt : Bool) (x : Nat) : Nat :=
  ((List.range 100).foldl (fun (a : Nat × Int) k =>
    let t : Int := (a.1 / (2 * k + 1) : Nat)
    (fixMul a.1 (fixMul x x), if alt && k % 2 == 1 then a.2 - t else a.2 + t)) (x, 0)).2.toNat

/-- The natural logarithm of a value from 1 to 2. -/
def fixLn (y : Nat) : Nat := 2 * fixAtan false (fixDiv (y - fixOne) (y + fixOne))

def fixLn2 : Nat := fixLn (2 * fixOne)

/-- π, by Machin's formula. -/
def fixPi : Nat := 16 * fixAtan true (fixOne / 5) - 4 * fixAtan true (fixOne / 239)

/-- e^t for t from 0 to 1. -/
def fixExp (t : Nat) : Nat :=
  ((List.range 60).foldl (fun (a : Nat × Nat) k => (fixMul a.1 t / (k + 1), a.2 + a.1)) (fixOne, 0)).2

/-- 2^y for a fixed-point y. -/
def pow2Fix (y : Int) : Num :=
  .fin false (fixExp (fixMul (y % fixOne).toNat fixLn2)) (y / fixOne - fixBits)

/-- e^y for a fixed-point y. -/
def expFix (y : Int) : Num := pow2Fix (y * fixOne / fixLn2)

/-- A quotient of finite values to `fixBits` bits. -/
def Num.div (a b : Num) : Num :=
  match a, b with
  | .fin s m e, .fin t n f => .fin (s != t) (m * 2 ^ (fixBits + Nat.log2 n) / n) (e - f - fixBits - Nat.log2 n)
  | _, _ => .nan

/-- erf of a value below 6 in magnitude, by its power series. -/
def fixErf (x : Nat) : Nat :=
  let s := ((List.range 200).foldl (fun (a : Nat × Int) k =>
    let t : Int := (a.1 / (2 * k + 1) : Nat)
    (fixMul a.1 (fixMul x x) / (k + 1), if k % 2 = 1 then a.2 - t else a.2 + t)) (x, 0)).2.toNat
  fixMul s (2 * fixDiv fixOne (fixSqrt fixPi))

/-! ### The functions on finite values -/

/-- A value limited to ±n: beyond it the FP32 result no longer changes. -/
def Num.limit (n : Nat) (x : Num) : Num :=
  if (Num.fin false n 0).lt x.abs then .fin (x.lt (.fin false 0 0)) n 0 else x

/-- Whether a value is below 2^-30 in magnitude. -/
def Num.small (x : Num) : Bool := x.abs.lt (.fin false 1 (-30))

def exp2Value (x : Num) : Num := pow2Fix (x.limit 1000).fix

/-- log2 of a positive value. -/
def log2Value (x : Num) : Num :=
  match x with
  | .fin _ m e =>
    let k := Nat.log2 m
    let v : Int := (fixDiv (fixLn (m * fixOne / 2 ^ k)) fixLn2 : Nat) + (e + k) * fixOne
    .fin (decide (v < 0)) v.natAbs (-(fixBits : Int))
  | y => y

def rcpValue (x : Num) : Num := (Num.fin false 1 0).div x

/-- 1/√x of a positive value: √(1/x) with an even exponent. -/
def rsqrtValue (x : Num) : Num :=
  match rcpValue x with
  | .fin _ m e =>
    let odd := (e % 2).toNat
    .fin false (isqrt (fixBits + 2) (m * 2 ^ (odd + fixBits))) ((e - odd - fixBits) / 2)
  | y => y

/-- x − x³/3: the inverse tangent's, the hyperbolic tangent's and the scaled error function's value below 2^-30. -/
def smallOdd (x : Num) : Num := x.add ((x.mul (x.mul x)).div (.fin true 3 0))

/-- A value nearer to 1 than every FP32 code is, and below it: what the bounded functions approach and do not reach. -/
def belowOne (neg : Bool) : Num := .fin neg (fixOne - 1) (-(fixBits : Int))

def tanhValue (x : Num) : Num :=
  if x.small then smallOdd x
  else
    let y := (x.abs.limit 40).fix
    let q := (expFix (-2 * y)).fix.toNat
    .fin (x.lt (.fin false 0 0)) (fixDiv (fixOne - q) (fixOne + q)) (-(fixBits : Int))

/-- The logistic function: w / (1 + w) with w = e^x below 0, 1 / (1 + e^-x) above, where it stays below 1. -/
def sigmValue (x : Num) : Num :=
  let y := (x.limit (if x.lt (.fin false 0 0) then 1000 else 120)).fix
  let w := expFix (if y < 0 then y else -y)
  let d := (Num.fin false fixOne (-(fixBits : Int))).add (.fin false w.fix.toNat (-(fixBits : Int)))
  if y < 0 then w.div d else (Num.fin false 1 0).div d

def erfValue (x : Num) : Num :=
  if x.small then (smallOdd x).mul (.fin false (2 * fixDiv fixOne (fixSqrt fixPi)) (-(fixBits : Int)))
  else
    let neg := x.lt (.fin false 0 0)
    if (Num.fin false 6 0).lt x.abs then belowOne neg
    else .fin neg (fixErf x.abs.fix.toNat) (-(fixBits : Int))

/-! ### Codes within a bound -/

/-- An FP32 code's place in the order of the values: both zeros at 0. -/
def fpOrd (c : Nat) : Int := if bit c 31 then -(c % 2 ^ 31 : Nat) else (c : Nat)

/-- The code at a place; a zero has the sign `neg`. -/
def ordFp (neg : Bool) (k : Int) : Nat := if k = 0 then fpFP32.sign neg else fpFP32.sign (decide (k < 0)) + k.natAbs

/-- One of the FP32 codes from place `lo` to place `hi`, by a free word. -/
def pickCode (neg : Bool) (lo hi : Int) (free : Nat) : Nat := ordFp neg (lo + (free % ((hi - lo).toNat + 1) : Nat))

/-- One unit in the last place of a value (R36: subnormals have the unit of the least normal number). -/
def ulpOf : Num → Num
  | .fin _ m e => .fin false 1 ((let t := e + (Nat.log2 m : Nat); if t < -126 then -126 else t) - 23)
  | x => x

/-- The codes within `err` of `v`: the places of the least and the greatest. A bound that reaches 2^128 takes in the
infinity (R60). -/
def codesAround (v err : Num) : Int × Int :=
  let top := v.add err
  let bottom := v.add err.neg
  let big : Num := .fin false 1 128
  (if !(big.neg.lt bottom) then fpOrd 0xFF800000 else fpOrd (peakCode true bottom),
    if !(top.lt big) then fpOrd 0x7F800000 else fpOrd (peakCode false top))

/-- A result within `err` of the exact value `v`; with SAT an infinity becomes the largest finite value (R60). -/
def boundedCode (sat : Bool) (v err : Num) (free : Nat) : Nat :=
  let r := codesAround v err
  let zeroNeg := match v with
    | .fin s m _ => if m = 0 then bit free 31 else s
    | _ => false
  let c := pickCode zeroNeg r.1 r.2 free
  if sat && c % 2 ^ 31 == fpFP32.infCode then c - 1 else c

/-- The exact value of function unit `op` on a finite input (Table 4-8). -/
def unitValue (op : Nat) (x : Num) : Num :=
  match op with
  | 0x40 => exp2Value x
  | 0x41 => log2Value x
  | 0x42 => rcpValue x
  | 0x43 => rsqrtValue x
  | 0x45 => tanhValue x
  | 0x46 => sigmValue x
  | _ => erfValue x

/-- The maximum error of Table 4-8: 1 ulp for RCP, 2 ulp for the rest, and for LOG2 from 0.5 to 2 the absolute 2^-22. -/
def unitError (op : Nat) (x v : Num) : Num :=
  let ulp := ulpOf v
  if op = 0x42 then ulp
  else if op = 0x41 ∧ x.lt (.fin false 1 (-1)) = false ∧ (Num.fin false 2 0).lt x = false then .fin false 1 (-22)
  else ulp.add ulp

/-- R119: a function unit's result on an ordinary input: within its error bound, one function of the input, a free value. -/
def unitResult (op : Nat) (sat : Bool) (a : Nat) : Nat :=
  let x := fpFP32.decode a
  let v := unitValue op x
  boundedCode sat v (unitError op x v) (Config.functionUnit (BitVec.ofNat 8 op) (BitVec.ofNat 32 a)).toNat

/-! ### Column sums (R70) -/

/-- An exact sum as an adder of `p` significant bits holds it: itself where it fits, else one of its two neighbours. -/
def Num.held (p : Nat) (up : Bool) : Num → Num
  | .fin s m e =>
    let d := Nat.log2 m + 1 - p
    if m % 2 ^ d = 0 then .fin s m e else .fin s (m / 2 ^ d + b2n up) (e + d)
  | x => x

/-- R70: the products of a column summed along K in the tile adder, which carries at least 48 significant bits, and the sum
rounded once by RNE; a sum of exactly zero is +0. How many bits more the adder carries, and to which side it keeps a sum that
needs more bits than it has, are free (assumption 16). -/
def adderColumn (products : List Num) : Nat :=
  let p := 48 + Config.adderExtra.toNat
  let sum := products.foldl (fun (a x : Num) =>
    match a.add x with
    | .fin s m e => (Num.fin s m e).held p (Config.adderUp s m e)
    | y => y) (.fin false 0 0)
  match sum with
  | .fin s m e => if m = 0 then 0 else (fpFP32.round .rne false 0 (.fin s m e)).code
  | y => (fpFP32.round .rne false 0 y).code

end Sys2Proof.Machine
end

