-- ==== Sys2Proof/Machine/Mxe.lean ====
section
/-!
DEFINITION. The matrix engine (spec/03_matrix_engine.md): its seven instructions (R75 to R81), tiles and their checks
(R86 to R92), drains, and the range monitor (R95 to R101).
-/

namespace Sys2Proof.Machine

/-! ### Instruction fields (Table 3-3) -/
def mOp (w : Nat) : Nat := bits w 127 124
def mAg (w : Nat) : Nat := bits w 123 120
def mFmtA (w : Nat) : Nat := bits w 119 116
def mFmtB (w : Nat) : Nat := bits w 115 112
def mWb (w : Nat) : Nat := bits w 111 111
def mOpd (w : Nat) : Nat := bits w 110 99
def mSum (w : Nat) : Nat := bits w 98 87
def mGq (w : Nat) : Nat := bits w 86 77
def mGen (w : Nat) : Nat := bits w 76 61
def mRows (w : Nat) : Nat := bits w 60 54
def mKused (w : Nat) : Nat := bits w 53 45
def mZrec (w : Nat) : Nat := bits w 44 26
def mTag (w : Nat) : Nat := bits w 25 18

/-- R76: a listed OP with every field that it does not use 0. -/
def mLegal (w : Nat) : Bool :=
  bits w 17 0 == 0 &&
  match mOp w with
  | 1 => mAg w == 0 && mFmtA w == 0 && bits w 60 18 == 0
  | 2 => bits w 111 45 == 0 && mTag w == 0
  | 3 => bits w 44 18 == 0
  | 4 => bits w 119 18 == 0
  | 5 => bits w 119 18 == 0
  | 6 => bits w 119 26 == 0
  | 7 => bits w 119 18 == 0
  | _ => false

/-- R69: whether a pair is one of Table 3-1, with its tile K. -/
def pairTileK (a b : Fmt) : Option Nat :=
  match a, b with
  | .int4, .int4 => some 256
  | .int8, .int8 => some 128 | .int8, .int4 => some 128 | .int4, .int8 => some 128 | .uint8, .int8 => some 128
  | .e4m3, .e4m3 => some 128 | .e4m3, .e5m2 => some 128 | .e5m2, .e4m3 => some 128 | .e5m2, .e5m2 => some 128
  | .bf16, .bf16 => some 128 | .fp16, .fp16 => some 128
  | _, _ => none

/-- The largest exact K of a pair (Table 3-8). -/
def pairMaxK (a b : Fmt) : Nat :=
  match a, b with
  | .int4, .int4 => 33554431
  | .int8, .int8 => 131071
  | .uint8, .int8 => 65535
  | .int8, .int4 => 2097151 | .int4, .int8 => 2097151
  | _, _ => 65536

/-- The pair of two format codes (R69, R76). -/
def pairOf (w : Nat) : Option (Fmt × Fmt × Nat) :=
  match Fmt.ofCode (mFmtA w), Fmt.ofCode (mFmtB w) with
  | some a, some b => (pairTileK a b).map fun k => (a, b, k)
  | _, _ => none

/-! ### Stops -/

/-- The MXE freezes, raises `code` and faults the context (R69, R74, R76, R78). -/
def State.mxeStop (s : State) (g code : Nat) : State :=
  ((s.modCore g fun c => { c with mxeFrozen := true }).raise code (s.occupant g) g []).coreFault g code

/-- R134: an operand outside the layout also freezes the core's threads. -/
def State.mxeOutside (s : State) (g : Nat) : State :=
  (s.modCore g fun c => { c with mxeFrozen := true }).illegal g 0x0107

/-! ### Tile arithmetic (R70, R86, R87) -/

/-- The bytes of `n` positions from `p`, from a list of cells in rising order. -/
def expandCells : Nat → Nat → List Host.Cell → List Byte
  | 0, _, _ => []
  | n + 1, p, [] => 0 :: expandCells n (p + 1) []
  | n + 1, p, (k, v) :: r => if k = p then v :: expandCells n (p + 1) r else 0 :: expandCells n (p + 1) ((k, v) :: r)

/-- R70: a column's products summed once: an exact zero is +0; a sum whose products fit 48 significant bits together is
exact in every tile adder and rounded once; a wider one is what the tile adder gives. A product of an infinity and a zero is
NaN also in a row at or beyond KUSED (DESIGN CHOICE, assumption 101). -/
def fpColumn (l : List (Num × Num)) : Nat :=
  let ps := l.map fun p => p.1.mul p.2
  if ps.any Num.isNonFinite then (fpFP32.round .rne false 0 (ps.foldl Num.add (.fin false 0 0))).code
  else
    let nz := ps.filterMap fun p => match p with
      | .fin s m e => if m = 0 then none else some (s, m, e)
      | _ => none
    match nz with
    | [] => 0
    | (_, _, e0) :: _ =>
      let e := nz.foldl (fun (a : Int) x => if x.2.2 < a then x.2.2 else a) e0
      let total := nz.foldl (fun a x => a + x.2.1 * 2 ^ (x.2.2 - e).toNat) 0
      if total < 2 ^ 48 then
        match ps.foldl Num.add (.fin false 0 0) with
        | .fin s m x => if m = 0 then 0 else (fpFP32.round .rne false 0 (.fin s m x)).code
        | y => (fpFP32.round .rne false 0 y).code
      else adderColumn ps

/-- The operand rows of an A block and the K-rows of a B block, as exact raw values. -/
def State.aRows (s : State) (g : Nat) (f : Fmt) (line rows k : Nat) : List (List Num) :=
  chunks k rows ((f.unpack (rows * k) (s.bytes (ocBase g + 64 * line) (f.bytes (rows * k)))).map (rawValue f))

def Bank.tileK (b : Bank) : Nat := if b.k256 then 256 else 128

def Bank.rows (b : Bank) : List (List Num) :=
  chunks 128 b.tileK ((b.fmt.unpack (b.tileK * 128) (expandCells b.len 0 b.cells)).map (rawValue b.fmt))

/-- One element of the product. -/
def dot (fp : Bool) (a b : List Num) : Nat :=
  if fp then fpColumn (a.zip b)
  else wrap 32 ((a.zip b).foldl (fun (x : Int) p => x + p.1.toInt .rne 0 * p.2.toInt .rne 0) 0)

/-- Column j of rows of values. -/
def column (m : List (List Num)) (j : Nat) : List Num := m.map fun r => r.getD j (.fin false 0 0)

/-- The 128 × 128 increments of a tile, rows past ROWS zero. -/
def increments (fp : Bool) (a : List (List Num)) (b : List (List Num)) : List Nat :=
  let cols := (List.range 128).map (column b)
  let r := (a.map fun row => cols.map fun c => dot fp row c).flatten
  r ++ List.replicate (16384 - r.length) 0

/-- The sums of an A sum block: s_k and, for floating formats, t_k (Table 3-2). -/
def State.aSums (s : State) (g line k : Nat) (f : Fmt) : List Num × List Num :=
  let base := ocBase g + 64 * line
  let rd := fun (o i : Nat) => s.le (base + o + 4 * i) 4
  if f.isFp then ((List.range k).map fun i => fpFP32.decode (rd 64 i), (List.range k).map fun i => fpFP32.decode (rd 576 i))
  else ((List.range k).map fun i => Num.ofInt (sext 32 (rd 64 i)), [])

/-- Σ x_k y_k, exact. -/
def exactDot (x y : List Num) : Num := ((x.zip y).map fun p => p.1.mul p.2).foldl Num.add (.fin false 0 0)

/-- The expected column sums E_j and, for floating pairs, M_j (R86, R87). An integer E_j is taken modulo 2^32. -/
def expected (fp : Bool) (sums mags : List Num) (b : List (List Num)) : List Num × List Num :=
  let cols := (List.range 128).map (column b)
  if fp then (cols.map (exactDot sums), cols.map fun c => exactDot mags (c.map Num.abs))
  else (cols.map fun c => Num.ofInt (wrap 32 ((exactDot sums c).toInt .rne 0)), [])

/-- R86, R87: how many columns fail their check, and how many are not compared. `vals` are the 128 × 128 codes. A column whose
Δ and E are finite and whose M is not passes (DESIGN CHOICE, assumption 101). -/
def checkColumns (fp : Bool) (tol : Nat) (vals : List Nat) (e mags : List Num) : Nat × Nat :=
  let rows := chunks 128 128 vals
  let delta := fun j => rows.map fun r => r.getD j 0
  let one := fun j : Nat =>
    let ej := e.getD j (.fin false 0 0)
    if fp then
      let d := ((delta j).map fpFP32.decode).foldl Num.add (.fin false 0 0)
      if d.isNonFinite || ej.isNonFinite then (0, 1)
      else
        let lim := (mags.getD j (.fin false 0 0)).mul (.fin false 1 (-(tol : Int)))
        (b2n (lim.lt (d.add ej.neg).abs), 0)
    else (b2n (decide ((delta j).foldl (· + ·) 0 % 2 ^ 32 ≠ wrap 32 (ej.toInt .rne 0))), 0)
  (List.range 128).foldl (fun a j => let x := one j; (a.1 + x.1, a.2 + x.2)) (0, 0)

/-- A tile's work slot and check path formed from the A block and its sums in the OC and the loaded bank (R78, R86). -/
def State.formTile (s : State) (g : Nat) (t : Tile) : Tile :=
  let k := t.bank.tileK
  let fp := t.fmtA.isFp
  let b := t.bank.rows
  let sm := s.aSums g t.sumLine k t.fmtA
  let e := expected fp sm.1 sm.2 b
  { t with inc := increments fp (s.aRows g t.fmtA t.aLine t.rows k) b, expect := e.1, mags := e.2 }

/-- R88, R91: a tile formed again from its operand blocks in the OC of core `g`, the B block with them. -/
def State.reformTile (s : State) (g : Nat) (t : Tile) : Tile :=
  s.formTile g { t with bank := { t.bank with cells := memCells s.mem (ocBase g + 64 * t.bank.line) t.bank.len } }

/-- The reads of a tile's operand blocks and of A's sums in the OC of core `g` (R166, R167); the Bool says whether every word
could be read. -/
def State.readTile (s : State) (g : Nat) (t : Tile) : State × Bool :=
  [(t.aLine, t.aLen), (t.sumLine, 1088), (t.bank.line, t.bank.len)].foldl (fun p x =>
    let r := p.1.checkRead (ocBase g + 64 * x.1) x.2 (s.occupant g)
    (r.1, p.2 && r.2)) (s, true)

/-- The CRC-64 of a tile's 16,384 increments in row-major order (R91). -/
def Tile.crc (t : Tile) : Nat := crc64 ((t.inc.map (leBytes 4)).flatten)

/-! ### Quarantine counting (R94) -/

/-- One tile, shadow or drain mismatch of core `g`. -/
def State.mismatch (s : State) (g : Nat) : State :=
  let now := s.fget (F.MXE_TILE_CNT_TILES g)
  let old := (s.core g).mxeMiss
  let s := s.modCore g fun c => { c with mxeMiss := (now :: c.mxeMiss).take 2 }
  match old with
  | _ :: m2 :: _ => if (now + 2 ^ 32 - m2) % 2 ^ 32 ≤ 1000000 then s.quarantine g 0x0102 (F.MXE_CHK_STAT_QUAR g) else s
  | _ => s

/-! ### The instructions -/

/-- Whether an active descriptor has moved every byte: no request is left to issue and none is in flight. -/
def Core.moved (c : Core) (a : Active) : Bool :=
  decide (a.rows ≤ a.row) && c.slots.all (fun x => x.req.desc != a.d.id) && c.waits.all fun x => x.req.desc != a.d.id

/-- Whether a chain that a galley entry is behind still has a transfer into the operand cache to land (R75). -/
def State.chainLive (s : State) (g ch : Nat) : Bool :=
  let c := s.core g
  let next := fun l : List Nat => bits (l.getD 7 0) 21 6
  let later := fun l : List Nat => next l != 0 && s.chainToOc g 65536 (s.descWords g (64 * next l))
  c.xq.any (fun d => d.chain == ch && s.chainToOc g 65536 d.words)
    || c.chainWait.any (fun d => d.chain == ch
      && s.chainToOc g 65536 (if d.words.isEmpty then s.descWords g d.addr else d.words))
    || c.act.any (fun a => d_chain a == ch && ((!c.moved a && toOc a) || (decide (a.row < a.rows) && later a.d.words)))
    || c.lost.any fun d => d.chain == ch && s.chainToOc g 65536 d.words
where
  d_chain (a : Active) : Nat := a.d.chain
  toOc (a : Active) : Bool := place (bits (a.d.words.getD 2 0) 47 0) == .oc g

/-- The entry the MXE executes next (R75): one it has taken already, or the head of the XFE→MXE galley when none of its
transfers is outstanding. -/
def State.mxeHead (s : State) (g : Nat) : Option MEntry :=
  match (s.core g).mx, (s.core g).xm with
  | some e, _ => some e
  | none, [] => none
  | none, e :: _ => if e.behind.any (s.chainLive g) then none else some e

/-- The galley once the MXE has taken the entry it executes next (R75). -/
def Core.mxeRest (c : Core) : List MEntry := if c.mx.isSome then c.xm else c.xm.tail

/-- The entry leaves the galley and is executed (R75). -/
def State.mxeTake (s : State) (g : Nat) : State :=
  (s.modCore g fun c => { c with xm := c.mxeRest, mx := none }).settle g

/-- The MXE takes the entry, which frees its place in the galley, and the entry waits for its group's tiles (R75, R78). -/
def State.mxeWait (s : State) (g : Nat) (e : MEntry) : State :=
  (s.modCore g fun c => { c with xm := c.mxeRest, mx := some e }).settle g

/-- The MXE takes the head of its galley when it is `op`; an unlisted OP or an unused field set stops the engine
whatever was asked (R76). -/
def mxeRow (op : Nat) (eff : State → Nat → MEntry → State) (g : Nat) (s : State) : State :=
  if s.live g = false ∨ (s.core g).mxeFrozen = true then s
  else match s.mxeHead g with
    | none => s
    | some e =>
      if mLegal e.word = false then s.mxeStop g 0x0107
      else if mOp e.word ≠ op then s
      else eff s g e

/-- The operand checks that LDW and MMA share: the block and its sum block in the layout, the quoin owned, the
generation. The Bool says whether to go on. -/
def State.mxeOperand (s : State) (g : Nat) (w len : Nat) : State × Bool :=
  if s.ocOk g (64 * mOpd w) len = false ∨ s.ocOk g (64 * mSum w) 1088 = false then (s.mxeOutside g, false)
  else if s.quoinOwned g (mGq w) = false then
    ((s.modCore g fun c => { c with mxeFrozen := true }).violation g, false)
  else match s.genCheck g (mGq w) (mGen w) 1 (mOpd w) true with
    | (s', .wait) => (s', false)
    | (s', .stale) => ((s'.modCore g fun c => { c with mxeFrozen := true }).staleFault g, false)
    | (s', .pass) =>
      let r1 := s'.checkRead (ocBase g + 64 * mOpd w) len (s.occupant g)
      let r2 := r1.1.checkRead (ocBase g + 64 * mSum w) 1088 (s.occupant g)
      (if r1.2 && r2.2 then r2.1 else r2.1.modCore g fun c => { c with mxeFrozen := true }, r1.2 && r2.2)

/-- The head bytes of a sum block: KIND, FMT, rows − 1, VALID, K256. -/
def State.sumHead (s : State) (g line : Nat) : Nat × Nat × Nat × Bool × Bool :=
  let b := s.bytes (ocBase g + 64 * line) 5
  ((b.getD 0 0).toNat, (b.getD 1 0).toNat % 16, (b.getD 2 0).toNat, bit (b.getD 3 0).toNat 0, bit (b.getD 4 0).toNat 0)

/-- LDW (R74, R457): bank WB takes the B block at OPD. -/
def execLdw (g : CoreId) (s : State) : Host.Outcome State Fault Refusal :=
  .next (mxeRow 1 (fun s g e =>
    let w := e.word
    match Fmt.ofCode (mFmtB w) with
    | none => s.mxeStop g 0x0106
    | some f =>
      if sumkFmtOk 2 f = false ∨ f = .uint8 then s.mxeStop g 0x0106
      else
        let h := s.sumHead g (mSum w)
        let k256 := h.2.2.2.2
        let len := f.bytes ((if k256 then 256 else 128) * 128)
        match s.mxeOperand g w len with
        | (s', false) => s'
        | (s', true) =>
          if h.1 ≠ 2 ∨ h.2.1 ≠ f.code ∨ h.2.2.2.1 = false ∨ (k256 = true ∧ f ≠ .int4) then s'.mxeStop g 0x0107
          else
            let bank : Bank := ⟨mOpd w, f, k256, memCells s'.mem (ocBase g + 64 * mOpd w) len,
              (List.range 128).map fun j => s'.le (ocBase g + 64 * mSum w + 64 + 4 * j) 4⟩
            (s'.modCore g fun c => if mWb w = 0 then { c with bank0 := some bank } else { c with bank1 := some bank }).mxeTake g)
    g s)

/-- R453: slot `slot` of the ACF of core `g` written whole: fresh codewords. -/
def State.acfFresh (s : State) (g slot : Nat) : State :=
  { s with ecc := s.ecc.dropIf fun a => decide (acfBase g slot ≤ a) && decide (a < acfBase g (slot + 1)) }

/-- The lowest free group slot (R78). -/
def Core.freeSlot (c : Core) : Option Nat := (List.range 6).find? fun i => c.groups.all fun x => x.slot != i

/-- OPEN (R77, R78). DESIGN CHOICE (assumption 85): the scale record is read when the MXE takes the OPEN. -/
def execOpenGroup (g : CoreId) (s : State) : Host.Outcome State Fault Refusal :=
  .next (mxeRow 2 (fun s g e =>
    let w := e.word
    match pairOf w with
    | none => s.mxeStop g 0x0106
    | some (a, b, _) =>
      let c := s.core g
      match c.freeSlot, c.groups.any fun x => x.id == mAg w with
      | some i, false =>
        let off := 8 * mZrec w
        if a = .uint8 ∧ s.lsOk g off 8 = false then s.mxeOutside g
        else
          let r := if a = .uint8 then s.checkRead (lsBase g + off) 8 (s.occupant g) else (s, true)
          match (if a = .uint8 then (ScaleRec.read (s.le (lsBase g + off) 8)).map (·.zp) else some 0) with
          | none => s.mxeStop g 0x0107
          | some z =>
            if r.2 = false then r.1.modCore g fun c => { c with mxeFrozen := true }
            else
              let x : Group := ⟨mAg w, .opened, i, a, b, z, 0, List.replicate 128 0,
                List.replicate 128 0, List.replicate 128 0, false, List.replicate 16384 0⟩
              ((r.1.acfFresh g i).modCore g fun c => { c with groups := c.groups ++ [x] }).mxeTake g
      | _, _ => s.mxeStop g 0x0105) g s)

/-- R90: whether the tile of number `n` is sampled for a shadow check, and the partner core. -/
def State.shadowPartner (s : State) (g n : Nat) : Option Nat :=
  let k := s.fget (F.MXE_CHK_CTRL_SHD_LOG2 g)
  if k = 0 ∨ n % 2 ^ k ≠ g % 2 ^ k then none
  else match s.coreForme g with
    | none => none
    | some f =>
      let l := f.cores.getD (g / 32) []
      if l.length ≤ 1 then none
      else some (32 * (g / 32) + l.getD ((l.idxOf (g % 32) + 1) % l.length) 0)

/-- A free work slot: 6 or 7 of the ACF (R78). -/
def Core.freeWork (c : Core) : Nat := if c.tiles.any (fun t => t.slot == 6) then 7 else 6

/-- MMA (R74, R78): a tile enters a free work slot; a shadow tile that waits goes ahead of it (R91). While no work slot is free,
or its re-fetch is under way, it stays in the galley and keeps its place (DESIGN CHOICE, assumption 101). -/
def execMma (g : CoreId) (s : State) : Host.Outcome State Fault Refusal :=
  .next (mxeRow 3 (fun s g e =>
    let w := e.word
    match pairOf w with
    | none => s.mxeStop g 0x0106
    | some (a, b, k) =>
      let c := s.core g
      match c.groups.find? fun x => x.id == mAg w with
      | none => s.mxeStop g 0x0105
      | some x =>
        if x.st ≠ .opened ∨ x.fmtA ≠ a ∨ x.fmtB ≠ b then s.mxeStop g 0x0105
        else if k ≤ mKused w then s.mxeStop g 0x0107
        else match (if mWb w = 0 then c.bank0 else c.bank1) with
          | none => s.mxeStop g 0x0107
          | some bank =>
            let rows := mRows w + 1
            let h := s.sumHead g (mSum w)
            if bank.fmt ≠ b ∨ bank.tileK ≠ k then s.mxeStop g 0x0107
            else if 2 ≤ c.tiles.length ∨ c.shadowIn ≠ [] then s
            else match s.mxeOperand g w (a.bytes (rows * k)) with
              | (s', false) => s'
              | (s', true) =>
                if h.1 ≠ 1 ∨ h.2.1 ≠ a.code ∨ h.2.2.1 ≠ mRows w ∨ h.2.2.2.1 = false ∨ h.2.2.2.2 ≠ decide (k = 256) then
                  s'.mxeStop g 0x0107
                else
                  let num := (s'.fget (F.MXE_TILE_CNT_TILES g) + c.tiles.length) % 2 ^ 32
                  let t := s'.formTile g ⟨mAg w, num, e.thread, mOpd w, mSum w, rows, mKused w + 1, a, bank, [], [], [],
                    (s'.shadowPartner g num).isSome, c.freeWork⟩
                  ((s'.acfFresh g c.freeWork).modCore g fun c => { c with tiles := c.tiles ++ [t] }).mxeTake g) g s)

/-- Whether a tile of group `a` is in flight. -/
def Core.inFlight (c : Core) (a : Nat) : Bool := c.tiles.any fun t => t.grp == a

/-- A group's state change by PARK, RESUME, DRAIN or ABORT: the group must be in a listed state; but for RESUME the
entry is taken and waits until the group's tiles have retired (R75, R78). -/
def groupRow (s : State) (g : Nat) (e : MEntry) (from_ : List AgSt) (hold : Bool)
    (eff : State → Group → State × Bool) : State :=
  let c := s.core g
  match c.groups.find? fun x => x.id == mAg e.word with
  | none => s.mxeStop g 0x0105
  | some x =>
    if from_.contains x.st = false then s.mxeStop g 0x0105
    else if hold && c.inFlight x.id then s.mxeWait g e
    else match eff s x with
      | (s', true) => s'.mxeTake g
      | (s', false) => s'

/-- A held group replaced. -/
def State.setGroup (s : State) (g : Nat) (x : Group) : State :=
  s.modCore g fun c => { c with groups := c.groups.map fun y => if y.id = x.id then x else y }

/-- PARK: OPEN to PARKED once every tile has retired. -/
def execPark (g : CoreId) (s : State) : Host.Outcome State Fault Refusal :=
  .next (mxeRow 4 (fun s g e => groupRow s g e [.opened] true fun s x => (s.setGroup g { x with st := .parked }, true)) g s)

/-- RESUME: PARKED to OPEN. -/
def execResume (g : CoreId) (s : State) : Host.Outcome State Fault Refusal :=
  .next (mxeRow 5 (fun s g e => groupRow s g e [.parked] false fun s x => (s.setGroup g { x with st := .opened }, true)) g s)

/-- R166, R167: the MXE reads slot `slot` of its ACF; an uncorrectable word freezes it. -/
def State.acfRead (s : State) (g slot : Nat) : State × Bool :=
  let r := s.checkRead (acfBase g slot) 0x10000 (s.occupant g)
  if r.2 then r else (r.1.modCore g fun c => { c with mxeFrozen := true }, false)

/-- The code of a running column sum in a group (Table 3-5): INT32, or FP32 rounded by RNE. -/
def runCode (fp : Bool) (v : Num) : Nat := if fp then (fpFP32.round .rne false 0 v).code else wrap 32 (v.toInt .rne 0)

/-- The value of a running column sum. -/
def runValue (fp : Bool) (c : Nat) : Num := if fp then fpFP32.decode c else Num.ofInt c

/-- R89: how many columns fail a group's drain check, and how many are not compared. -/
def Group.drainCheck (x : Group) (tol : Nat) : Nat × Nat :=
  let fp := x.fmtA.isFp
  checkColumns fp tol x.acc (x.e.map (runValue fp)) (x.mags.map (runValue fp))

/-- DRAIN: the drain check (R89), then the slot passes to the VXE (R81). -/
def execDrain (g : CoreId) (s : State) : Host.Outcome State Fault Refusal :=
  .next (mxeRow 6 (fun s g e => groupRow s g e [.opened, .parked] true fun s x =>
    let q := if x.ovf then (s, true) else s.acfRead g x.slot
    if q.2 = false then q else
    let s := q.1
    let r := x.drainCheck (s.fget (F.MXE_CHK_CTRL_TOL_EXP g))
    let bad := !x.ovf && decide (r.1 ≠ 0)
    let s := if x.ovf ∨ r.2 = 0 then s else s.fadd (F.MXE_CHK_SKIP_SKIP_COLS g) r.2
    let s := if bad then
        (((s.fadd (F.MXE_CHK_CNT_DRAIN_CNT g) 1).fset (F.MXE_CHK_STAT_DRAIN_MISS g) 1).raise 0x0109 (s.occupant g) g []
          |>.markSuspect g).mismatch g
      else s
    ((s.setGroup g { x with st := .draining }).modCore g fun c =>
      { c with drains := c.drains ++ [⟨x.id, mTag e.word, e.thread, 0, bad⟩] }, true)) g s)

/-- ABORT: the slot is freed without output. -/
def execAbort (g : CoreId) (s : State) : Host.Outcome State Fault Refusal :=
  .next (mxeRow 7 (fun s g e => groupRow s g e [.opened, .parked] true fun s x =>
    (s.modCore g fun c => { c with groups := c.groups.filter fun y => y.id != x.id }, true)) g s)

/-- One accumulator plus one increment (R70, R83). -/
def accAdd (fp ovf : Bool) (a b : Nat) : Nat :=
  if fp then fadd32 a b
  else if ovf then (Fmt.int32.saturate 0 (sext 32 a + sext 32 b)).1
  else (a + b) % 2 ^ 32

/-- R83: a passed tile retires into its group. DEDUCED (assumption 86): each running sum of a floating group is rounded
once by RNE when a tile is added. -/
def State.retireTile (s : State) (g : Nat) (t : Tile) (x : Group) : State :=
  let fp := t.fmtA.isFp
  let k := x.kacc + t.kused
  let past := decide (pairMaxK x.fmtA x.fmtB < k)
  let ovf := x.ovf || past
  let sum := fun l m : List Nat => (l.zip m).map fun p => (p.1 + p.2) % 2 ^ 32
  let nsum := fun (l : List Nat) (m : List Num) => (l.zip m).map fun p => runCode fp ((runValue fp p.1).add p.2)
  let x' := { x with
    kacc := k % 2 ^ 32
    ovf := ovf
    acc := (x.acc.zip t.inc).map fun p => accAdd fp ovf p.1 p.2
    w := sum x.w t.bank.sums
    e := nsum x.e t.expect
    mags := if fp then nsum x.mags t.mags else x.mags }
  let s := (s.setGroup g x').fwrap (F.MXE_TILE_CNT_TILES g) 1
  if past && !x.ovf then (s.fset (F.MXE_CHK_STAT_OVF_SEEN g) 1).raise 0x0104 (s.occupant g) g [] else s

/-- TILE_VERDICT (R86 to R88): the oldest tile in a work slot passes and retires, or is discarded and replayed after the
tiles that follow it. -/
def tileVerdict (g : Nat) (s : State) : State :=
  let c := s.core g
  match c.tiles with
  | [] => s
  | t :: rest =>
    match c.groups.find? fun x => x.id == t.grp with
    | none => s
    | some x =>
      let r := checkColumns t.fmtA.isFp (s.fget (F.MXE_CHK_CTRL_TOL_EXP g)) t.inc t.expect t.mags
      let s := if r.2 = 0 then s else s.fadd (F.MXE_CHK_SKIP_SKIP_COLS g) r.2
      if r.1 = 0 then
        let q1 := s.acfRead g t.slot
        let q2 := q1.1.acfRead g x.slot
        if !(q1.2 && q2.2) then q2.1 else
        let s := ((q2.1.acfFresh g x.slot).modCore g fun c => { c with tiles := rest, mxeAt := s.timeUs }).retireTile g t x
        let s := match (if t.shadow then s.shadowPartner g t.num else none) with
          | none => s
          | some p =>
            let sh : Shadow := ⟨g, p, t, t.crc⟩
            (s.modCore g fun c => { c with shadowWait := c.shadowWait ++ [sh] }).modCore p fun c =>
              { c with shadowIn := c.shadowIn ++ [sh] }
        s.settle g
      else
        let s := ((s.fadd (F.MXE_CHK_CNT_TILE_CNT g) 1).fset (F.MXE_CHK_STAT_TILE_MISS g) 1).raise 0x0101 (s.occupant g) g []
        let q := (s.acfFresh g t.slot).readTile g t
        let new := q.1.reformTile g t
        (q.1.modCore g fun c =>
          if q.2 then { c with tiles := rest ++ [new], replays := c.replays + 1 } else { c with mxeFrozen := true }).mismatch g

/-- Whether the matrix engine of core `g` works: a frozen one, or one of a context that has stopped, is clock-gated with
its state held (R217). -/
def State.mxeRuns (s : State) (g : Nat) : Bool := s.live g && !(s.core g).mxeFrozen

def execTileVerdict (g : CoreId) (s : State) : Host.Outcome State Fault Refusal :=
  .next (if s.mxeRuns g then tileVerdict g s else s)

/-- DRAIN_ENTRY (R81): the oldest drain pushes its next 16 rows while the MXE→VXE galley has room. -/
def drainEntry (g : Nat) (s : State) : State :=
  let c := s.core g
  match c.drains with
  | [] => s
  | d :: rest =>
    match c.groups.find? fun x => x.id == d.grp with
    | none => s
    | some x =>
      if (s.galley g).mv ≤ c.mv.length then s
      else
        let w := d.grp * 2 ^ 60 + d.tag * 2 ^ 52 + d.blk * 2 ^ 49 + b2n x.fmtA.isFp * 2 ^ 48 + b2n x.ovf * 2 ^ 47
          + b2n d.suspect * 2 ^ 46 + b2n (decide (d.blk = 7)) * 2 ^ 45 + x.slot * 2 ^ 32 + x.kacc
        let ds := if d.blk = 7 then rest else { d with blk := d.blk + 1 } :: rest
        (s.modCore g fun c => { c with mv := c.mv ++ [w], drains := ds }).settle g

def execDrainEntry (g : CoreId) (s : State) : Host.Outcome State Fault Refusal :=
  .next (if s.mxeRuns g then drainEntry g s else s)

/-- SHADOW_TILE (R91): core `g`, the partner, reads the operand blocks of the owner's oldest sampled tile in the owner's OC
and recomputes the tile in a free work slot. -/
def shadowTile (g : Nat) (s : State) : State :=
  match (s.core g).shadowIn with
  | [] => s
  | sh :: rest =>
    if 2 ≤ (s.core g).tiles.length then s
    else
      let q := (s.acfFresh g (s.core g).freeWork).readTile sh.owner sh.tile
      let t := q.1.reformTile sh.owner sh.tile
      let s := q.1.modCore g fun c => { c with shadowIn := rest }
      if q.2 = false then s
      else s.modCore sh.owner fun c => { c with shadowBack := c.shadowBack ++ [{ sh with crc := t.crc }] }

def execShadowTile (g : CoreId) (s : State) : Host.Outcome State Fault Refusal :=
  .next (if s.mxeRuns g then shadowTile g s else s)

/-- SHADOW_CRC_RETURN (R92): the owner compares the partner's CRC with its own. -/
def shadowReturn (g : Nat) (s : State) : State :=
  let c := s.core g
  match c.shadowBack with
  | [] => s
  | b :: rest =>
    match c.shadowWait.find? fun x => x.tile.num == b.tile.num with
    | none => s.modCore g fun c => { c with shadowBack := rest }
    | some x =>
      let s := s.modCore g fun c =>
        { c with shadowBack := rest, shadowWait := c.shadowWait.filter fun y => y.tile.num != b.tile.num }
      if x.crc = b.crc then s
      else
        let cnt := fun (s : State) (h : Nat) =>
          (s.fadd (F.MXE_CHK_CNT_SHD_CNT h) 1).fset (F.MXE_CHK_STAT_SHD_MISS h) 1
        let s := ((cnt (cnt s g) b.partner).raise 0x0103 (s.occupant g) g []).markSuspect g
        (s.mismatch g).mismatch b.partner

def execShadowCrcReturn (g : CoreId) (s : State) : Host.Outcome State Fault Refusal :=
  .next (if s.mxeRuns g then shadowReturn g s else s)

/-! ### The range monitor -/

/-- An optional peak of an entry with a flush's peak. -/
def peakMerge (big : Bool) (a b : Option Nat) : Option Nat :=
  match b with
  | none => a
  | some v => peakMax big a v

/-- R95, R124: flush `f` bound for die `d` is added to its entry, or discarded when the entry's verdict for the step has been
decided. -/
def State.takeFlush (s : State) (d : Nat) (f : Flush) : State :=
    let s := s.modDie d fun x => { x with flushes := x.flushes.erase f }
    let m := (s.die d).mon.get MonEntry.zero f.entry
    let s :=
      if m.decided then (s.fadd (F.VXE_STAT_LATE_FLUSH f.core) 1).raise 0x0207 (s.occupant f.core) f.core []
      else
        let add := fun a b => satAdd (2 ^ 48 - 1) a b
        let m' : MonEntry :=
          ⟨add m.elem f.set.elem, add m.nz f.set.nz, add m.sat f.set.sat, add m.zl f.set.zl,
            peakMerge true m.peakP f.set.peakP, peakMerge false m.peakQ f.set.peakQ, none, none, m.flushes + 1, false⟩
        s.modDie d fun x => { x with mon := x.mon.set f.entry m' }
    s.settle f.core

/-- MONITOR_FLUSH_ARRIVAL (R124): the oldest flush bound for die `d` arrives. -/
def flushArrival (d : Nat) (s : State) : State :=
  match (s.die d).flushes with
  | [] => s
  | f :: _ => s.takeFlush d f

def execMonitorFlushArrival (d : DieId) (s : State) : Host.Outcome State Fault Refusal :=
  .next (if s.clockStopped (some d.val) then s else flushArrival d s)

/-- The positive and negative code limits of R97. -/
def rangeLimits (r : ScaleRec) : Option (Nat × Nat) :=
  match r.fmt with
  | .int4 => some (7, 7) | .int8 => some (127, 127) | .int16 => some (32767, 32767)
  | .int32 => some (2147483647, 2147483647) | .e4m3 => some (448, 448) | .e5m2 => some (57344, 57344)
  | .uint8 => some (255 - r.zp, r.zp)
  | _ => none

/-- p ≤ l × 2^j. -/
def leScaled (p : Num) (l : Nat) (j : Int) : Bool := !((Num.fin false l j).lt p) && p != .nan

/-- R97: the power of two of a corrected scale, or none. -/
def rangeShift (r : ScaleRec) (satFail zlFail : Bool) (p q : Num) : Option Int :=
  match rangeLimits r with
  | none => none
  | some (lp, lm) =>
    let fits := fun j : Int => leScaled p lp j && leScaled q.neg lm j
    let j : Option Int :=
      if satFail && zlFail then none
      else if satFail then ((List.range 400).map fun (i : Nat) => ((i : Int) + 1)).find? fits
      else ((List.range 400).map fun (i : Nat) => ((i : Int) - 400)).find? fits
    match j with
    | none => none
    | some j =>
      let e := (r.scale / 2 ^ 23 : Nat) + j
      if 1 ≤ e ∧ e ≤ 254 then some j else none

/-- The verdict of an entry: 1 PASS, 2 RETRY with the new scale, 3 FLAGGED (R96, R97, R100). A failed tensor whose record does
not read as a scale record (R46) is flagged (DESIGN CHOICE, assumption 101). -/
def rangeDecide (m : MonEntry) (r : Option ScaleRec) (tsat tuf reserve : Nat) : Nat × Nat :=
  let satFail := decide (m.elem < m.sat * 2 ^ tsat)
  let zlFail := decide (tuf * m.nz < m.zl * 256)
  let num := fun o : Option Nat => fpFP32.decode (o.getD 0)
  if !satFail && !zlFail then (1, 0)
  else match r with
    | none => (3, 0)
    | some r =>
      match rangeShift r satFail zlFail (num m.peakP) (num m.peakQ) with
      | none => (3, 0)
      | some j => if reserve = 0 then (3, 0) else (2, wrap 32 ((r.scale : Int) + j * 2 ^ 23))

/-- The cores a mask names. -/
def maskCores (mask : Nat) : List Nat := (List.range 128).filter fun g => bit mask g

/-- R96 to R100: entry `e` of die `d` is decided once every producer's flush has arrived. -/
def rangeVerdict (d e : Nat) (s : State) : State :=
  match s.formes.findSome? fun p => (p.2.mons.find? fun m => m.die == d && m.entry == e).map fun m => (p.1, m) with
  | none => s
  | some (c, mr) =>
    let m := (s.die d).mon.get MonEntry.zero e
    if m.decided ∨ m.flushes < mr.prod then s
    else
      let cores := maskCores mr.cmask
      let decide_ := fun r => rangeDecide m r (s.fget (F.CD_RM_THRESH_TSAT_EXP d)) (s.fget (F.CD_RM_THRESH_TUF_NUM d))
        (s.ctx c).retryLeft
      let q := match cores with
        | [] => (s, true)
        | g :: _ => if (decide_ none).1 = 1 then (s, true) else s.checkRead (lsBase g + 8 * mr.srec) 8 (some c)
      let v := decide_ (match cores with
        | [] => none
        | g :: _ => ScaleRec.read (q.1.le (lsBase g + 8 * mr.srec) 8))
      let s := q.1
      if q.2 = false then s
      else if v.1 = 2 then
        let s := cores.foldl (fun s g => s.putLe (lsBase g + 8 * mr.srec) 4 v.2) s
        let m' := { m with elem := 0, nz := 0, sat := 0, zl := 0, peakP := none, peakQ := none, flushes := 0 }
        let s := s.modDie d fun x => { x with mon := x.mon.set e m' }
        let s := (s.quoinSet (32 * d) mr.vq 2).raise 0x010A (some c) d []
        s.modCtx c fun x => { x with retryWant := true }
      else
        let s := s.modDie d fun x => { x with mon := x.mon.set e { m with decided := true } }
        let s := s.quoinSet (32 * d) mr.vq v.1
        if v.1 = 3 then (s.raise 0x0108 (some c) d []).modCtx c fun x => { x with rangeFlag := true } else s

end Sys2Proof.Machine
end

