-- ==== Sys2Proof/Machine/XfeOps.lean ====
section
/-!
DEFINITION. Operations of the transfer engine: the die cache (R145 to R151), request slots and banks (R157, R158, R161),
the start and the completion of a descriptor (R156), its galley entries (R159), fill records (R163), chains (R157) and
re-fetches (R164).
-/

namespace Sys2Proof.Machine

/-! ### The die cache (R145 to R151) -/

/-- The 128-byte lines that [a, a+n) touches. -/
def linesOf (a n : Nat) : List Nat := (List.range ((a + n + 127) / 128 - a / 128)).map fun i => a / 128 + i

/-- A line's number. -/
def DcLine.line (l : DcLine) : Nat := l.tag * 32768 + l.set

/-- R148: the distance of a line. -/
def State.dcDistance (s : State) (l : DcLine) : Nat :=
  if l.next = 0xFFF then 4095 else (l.next + 4095 - s.fget (F.CTX_IMP_IMP_COUNT l.owner)) % 4095

/-- R149: the ways of die `d` that context `c` allocates into: its locked ways, or, where it has none, the shared ones. -/
def State.dcWays (s : State) (c d : Nat) : List Nat :=
  let ways := fun v => (List.range 24).filter fun w => s.fget (F.DC_WAYLOCK_WAY_OWNER d (w / 8) (w % 8)) == v
  if (ways c).isEmpty then ways 15 else ways c

/-- R148: the victim for a line of set `x`. -/
def State.dcVictim (s : State) (c d x : Nat) : Option Nat :=
  let ways := s.dcWays c d
  let at_ := fun w => (s.die d).lines.find? fun l => l.way == w && l.set == x
  match ways.find? fun w => (at_ w).isNone with
  | some w => some w
  | none => (ways.foldl (fun (b : Option (Nat × Nat)) w =>
      match at_ w with
      | none => b
      | some l =>
        let k := s.dcDistance l
        match b with
        | none => some (w, k)
        | some (_, m) => if m < k then some (w, k) else b) none).map (·.1)

/-- R166, R167: a lookup of line `x` in the cache of die `d` reads the tags of its set and the data of a line that matches:
errors are corrected, or the line is invalidated. -/
def State.dcCheck (s : State) (d x : Nat) : State :=
  let set := x % 32768
  let s := (List.range 24).foldl (fun s w => (s.checkRead (dcTagBase d w set) 8 none).1) s
  match (s.die d).lines.find? fun l => l.line == x with
  | none => s
  | some l => (s.checkRead (dcDataBase d l.way set) 128 none).1

/-- R147: a read of class `cls` by core `g` looks its lines up: a hit takes the read's hints, a miss starts a fill; a
stream read does neither. The second value lists the lines that the cache serves. -/
def State.dcRead (s : State) (g c cls next a n : Nat) : State × List Nat :=
  if isMem a = false then (s, [])
  else (linesOf a n).foldl (fun (p : State × List Nat) x =>
    let d := g / 32
    let s := if p.1.ecc.entries.isEmpty then p.1 else p.1.dcCheck d x
    if (s.die d).lines.any (fun l => l.line == x) then
      (if cls = 5 then s else s.modDie d fun y =>
        { y with lines := y.lines.map fun l => if l.line = x then { l with cls := cls, next := next } else l }, p.2 ++ [x])
    else (if cls = 5 then s else s.modDie d fun y => { y with fills := y.fills ++ [⟨x, c, cls, next, g, false⟩] }, p.2)) (s, [])

/-- A read that could not be served leaves no fill. -/
def State.dcDrop (s : State) (g a n : Nat) : State :=
  s.modDie (g / 32) fun d =>
    let gone := fun (l : List DcFill) (x : Nat) => match l.find? fun f => f.line == x && f.core == g with
      | some f => l.erase f
      | none => l
    { d with fills := (linesOf a n).foldl gone d.fills }

/-- A checked read of a request's source: what the die cache did not serve comes from memory (R166, R167). -/
def State.checkSource (s : State) (hit : List Nat) (a n : Nat) (ctx : Option Nat) : State × Bool :=
  s.checkWords (fun b => !(isMem b && hit.contains (b / 128))) a n ctx

/-- The read's fills end: a live one allocates its line (R145, R148), one that met a write is discarded (R151). -/
def State.dcFill (s : State) (g a n : Nat) : State :=
  if isMem a = false then s
  else (linesOf a n).foldl (fun s x =>
    let d := g / 32
    match (s.die d).fills.find? fun f => f.line == x && f.core == g with
    | none => s
    | some f =>
      let s := s.modDie d fun y => { y with fills := y.fills.erase f }
      if f.dead ∨ (s.die d).lines.any (fun l => l.line == x) then s
      else match s.dcVictim f.ctx d (x % 32768) with
        | none => s
        | some w => (s.dcFresh d w (x % 32768)).modDie d fun y => { y with
            lines := y.lines.filter (fun l => !(l.way == w && l.set == x % 32768)) ++ [⟨w, x % 32768, x / 32768, f.cls, f.ctx, f.next⟩] })
    s

/-! ### Shapes and requests (R158, R161) -/

def Active.op (a : Active) : Nat := dField a.d.words 0 63 60
def Active.srcRem (a : Active) : Bool := dField a.d.words 0 56 56 == 1
def Active.dstRem (a : Active) : Bool := dField a.d.words 0 55 55 == 1
def Active.fab (a : Active) : Nat := dField a.d.words 0 23 0
def Active.gsrc (a : Active) : Bool := dField a.d.words 0 24 24 == 1
def Active.seqBit (a : Active) : Bool := dField a.d.words 0 25 25 == 1
def Active.gq (a : Active) : Nat := dField a.d.words 5 21 12
def Active.dst (a : Active) : Nat := dField a.d.words 2 47 0
def Active.issued (a : Active) : Bool := decide (a.rows ≤ a.row)

/-- R216: whether a descriptor of context `c` on core `g` reaches [a, a+n). -/
def State.xfeReach (s : State) (c : Nat) (write : Bool) (a n : Nat) : Bool :=
  match (s.ctx c).forme with
  | none => false
  | some f =>
    let own := fun g off len => decide (off + n ≤ len) && s.occupant g == some c
    match place a with
    | .hbm _ => f.inWindow write a n && s.inService a n
    | .lpx _ => f.inWindow write a n && s.inService a n
    | .ls g => own g (a - lsBase g) (f.chaseOf (g / 32)).lsLen
    | .oc g => own g (a - ocBase g) (f.chaseOf (g / 32)).ocLen
    | .reserved => false

/-- Bytes from `a` to the end of its memory's or its core's range (Table 5-1). -/
def placeRoom (a : Nat) : Nat :=
  match place a with
  | .hbm d => (d + 1) * hbmDie - a
  | .lpx e => lpxBase + (e + 1) * lpxEdge - a
  | .ls g => lsBase (g + 1) - a
  | .oc g => ocBase (g + 1) - a
  | .reserved => 0

/-- R158, R216: whether a row reaches every one of its addresses, range by range of Table 5-1; `fuel` bounds the ranges. -/
def State.rowReach (s : State) (c : Nat) (write : Bool) : Nat → Nat → Nat → Bool
  | 0, _, n => n == 0
  | fuel + 1, a, n =>
    let m := Nat.min n (placeRoom a)
    s.xfeReach c write a m && (m == n || s.rowReach c write fuel (a + m) (n - m))

/-- R161: the next request of an active descriptor, with the position after it. -/
def State.nextReq (s : State) (a : Active) : Option (Req × Nat × Nat) :=
  if a.issued then none
  else
    let so := a.src + a.row * dField a.d.words 4 63 32 + a.pos
    let de := a.dst + a.row * dField a.d.words 4 31 0 + a.pos
    let rd : Bool := a.op == 1 && !a.srcRem
    let wr : Bool := !a.dstRem
    let n := Nat.min (Nat.min 2048 (a.rowLen - a.pos))
      (Nat.min (if rd then s.bankRoom so else 2048) (if wr then s.bankRoom de else 2048))
    let src := if rd ∧ isMem so then s.bankOf so else 0x20000
    let dst := if wr ∧ isMem de then s.bankOf de else 0x20000
    let kind := if a.srcRem then ReqKind.remoteRead else if a.dstRem then .remoteWrite else if a.op = 2 then .zero else .copy
    let p := a.pos + n
    some (⟨a.d.id, kind, so, de, n, if src = 0x20000 then dst else src, if src = 0x20000 then 0x20000 else dst⟩, if a.rowLen ≤ p then (a.row + 1, 0) else (a.row, p))

def Core.modAct (c : Core) (id : Nat) (f : Active → Active) : Core :=
  { c with act := c.act.map fun a => if a.d.id = id then f a else a }

/-! ### Weight streams (R321 to R323) -/

/-- The descriptor number that a weight stream's requests carry. -/
def streamDesc : Nat := 2 ^ 32

/-- What a weight stream's requests are moved as: a COPY of stream-class data. -/
def streamAct (idx : Nat) : Active :=
  ⟨⟨streamDesc + idx, streamDesc + idx, 8, 0, [2 ^ 60 + 5 * 2 ^ 57, 0, 0, 0, 0, 0, 0, 0], true⟩, 0, 0, 0, 0, 0, 0, false, false, false⟩

def Core.actOf (k : Core) (id : Nat) : Option Active :=
  if streamDesc ≤ id then some (streamAct (id - streamDesc)) else k.act.find? fun a => a.d.id == id

def State.streamRec (s : State) (c idx : Nat) : Option StreamRec :=
  match (s.ctx c).forme with
  | none => none
  | some f => f.streams[idx]?

/-- The core that carries out a stream. -/
def State.streamCore (s : State) (c : Nat) (r : StreamRec) : Nat :=
  match (s.ctx c).forme with
  | none => 0
  | some f => 32 * r.die + (f.cores.getD r.die []).getD r.slot 0

def StreamRec.units (r : StreamRec) : Nat := (r.bytes + 2047) / 2048
def StreamRec.unitLen (r : StreamRec) (u : Nat) : Nat := Nat.min 2048 (r.bytes - 2048 * u)
def Stream.has (x : Stream) (r : StreamRec) (u : Nat) : Bool := x.got.get 0 u == r.unitLen u
def Stream.complete (x : Stream) (r : StreamRec) : Bool := (List.range r.units).all (x.has r)

def State.putStream (s : State) (c : Nat) (x : Stream) : State :=
  s.modCtx c fun k => { k with streams := k.streams.map fun y => if y.idx = x.idx then x else y }

/-- R153, R225: an amount added to a quoin of context `c` on core `g`, wherever the core's state lies now. -/
def State.ctxQuoinAdd (s : State) (c g q : Nat) (i : Int) : State :=
  if q < 512 ∧ q ≠ 0 ∧ s.occupant g ≠ some c then
    s.modCtx c fun x => { x with saved := x.saved.map fun y =>
      if y.core = g then
        let v := wrap 32 (((y.small.quoin.get 0 q).toNat : Int) + i)
        { y with small := { y.small with quoin := y.small.quoin.set q (BitVec.ofNat 32 v) } }
      else y }
  else s.quoinAdd g q i

/-- R322: `n` bytes of unit `u` have landed: a whole unit is forwarded once, and the stream completes with the last. -/
def State.streamLanded (s : State) (c idx u n : Nat) (whole : Bool) : State :=
  match (s.ctx c).streams.find? fun x => x.idx == idx, s.streamRec c idx with
  | some x, some r =>
    let y := { x with got := x.got.set u (if whole then r.unitLen u else Nat.min (r.unitLen u) (x.got.get 0 u + n)) }
    let fwd : Bool := y.has r u && !y.forwarded.contains u && r.relayRank != 0xFFFF
    let y := if fwd then { y with forwarded := y.forwarded ++ [u] } else y
    let s := s.putStream c y
    let s := if fwd then
        match (s.ctx c).coll.imp with
        | none => s
        | some i => s.request (mkXfer .write (.stream c idx u) (i.ranks.getD r.relayRank 0) 1 c c (r.dst + 2048 * u)
            (s.bytes (r.dst + 2048 * u) (r.unitLen u)) 0 0) false
      else s
    if y.complete r ∧ x.failed = false then
      (s.modCtx c fun k => { k with streams := k.streams.filter fun z => z.idx != idx }).ctxQuoinAdd c (s.streamCore c r) r.cq 1
    else s
  | _, _ => s

/-- R322: a WRITE request of [a, a+n) has landed: it is a unit of every active stream that the context relays and whose DST
holds it. -/
def State.streamWrite (s : State) (c a n : Nat) : State :=
  (s.ctx c).streams.foldl (fun s x =>
    match s.streamRec c x.idx with
    | none => s
    | some r =>
      let u := (a - r.dst) / 2048
      if r.relay ∧ r.dst + 2048 * u = a ∧ u < r.units ∧ n = r.unitLen u then s.streamLanded c x.idx u n true else s) s

/-- Whether a request reads or writes bank `b`. -/
def Req.uses (r : Req) (b : Nat) : Bool := b != 0x20000 && (r.bank == b || r.bank2 == b)

/-- Slots of one core held by requests to bank `b`. -/
def Core.bankHeld (c : Core) (b : Nat) : Nat := (c.slots.filter fun x => x.req.uses b).length

/-- Table 5-8: whether a request takes a slot: none of its banks holds 12 of the core's. -/
def Core.bankFree (c : Core) (r : Req) : Bool := [r.bank, r.bank2].all fun b => decide (c.bankHeld b < 12)

/-- Whether a request is served by this module's memory. -/
def ReqKind.isLocal : ReqKind → Bool
  | .copy => true
  | .zero => true
  | _ => false

/-- Table 5-8: the requests of all cores in the controller queue of bank `b`. -/
def State.queueLen (s : State) (b : Nat) : Nat :=
  (s.cores.entries.map fun p => (p.2.slots.filter fun x => x.queued.isSome && x.req.uses b).length).sum

/-- Table 5-8: whether the controller queues of a request's banks have room. -/
def State.queueRoom (s : State) (r : Req) : Bool := [r.bank, r.bank2].all fun b => b == 0x20000 || decide (s.queueLen b < 64)

/-- Table 5-8: of the requests held back on the die network, the one that took its slot first enters the queue that has
room for it. -/
def State.admitQueue (s : State) : State :=
  let held := (s.cores.entries.map fun p => (p.2.slots.filter fun x => x.queued.isNone && x.req.kind.isLocal && s.queueRoom x.req).map fun x =>
    (p.1, x)).flatten
  match held with
  | [] => s
  | h :: r =>
    let m := r.foldl (fun a b => if b.2.since < a.2.since then b else a) h
    s.modCore m.1 fun k => { k with slots := k.slots.map fun y => if y = m.2 then { y with queued := some s.timeUs } else y }

/-- A request takes a slot: its source is read, its die-cache lines are looked up, and a remote one leaves (R456). One that
this module's memory serves enters its bank's controller queue, where there is room (Table 5-8). -/
def State.takeSlot (s : State) (g c : Nat) (r : Req) (a : Active) (issued : Nat) : State :=
  let cls := dField a.d.words 0 59 57
  let next := dField a.d.words 0 39 28
  let reads := r.kind = .copy ∨ (r.kind = .remoteWrite ∧ a.op ≠ 2)
  let (s, hit) := if reads then s.dcRead g c cls next r.src r.len else (s, [])
  let data := match r.kind with
    | .copy => s.bytes r.src r.len
    | .remoteWrite => if a.op = 2 then List.replicate r.len 0 else s.bytes r.src r.len
    | .zero => List.replicate r.len 0
    | .remoteRead => []
  let slot : Slot := ⟨r, false, s.timeUs, s.nextXfer, data, issued, hit, if r.kind.isLocal && s.queueRoom r then some s.timeUs else none⟩
  let s := s.modCore g fun k => { k with slots := k.slots ++ [slot] }
  match r.kind with
  | .remoteRead => s.request (mkXfer .read (.desc g a.d.id 0) a.fab 1 c c r.src [] r.dst r.len) false
  | .remoteWrite =>
    let (s, ok) := if reads then s.checkSource hit r.src r.len (some c) else (s, true)
    if ok then (if reads then s.dcFill g r.src r.len else s).request (mkXfer .write (.desc g a.d.id 0) a.fab 1 c c r.dst data 0 0) false
    else ((s.dcDrop g r.src r.len).fset (F.XFE_STAT_FROZEN g) 1).accessFault c r.src g
  | _ => s

/-- R157: after a descriptor's last request, the next of its chain waits for an active place. -/
def State.chainNext (s : State) (g : Nat) (a : Active) : State :=
  let next := dField a.d.words 7 21 6
  if next = 0 ∨ a.refetch then s
  else s.modCore g fun k => { k with
    chainWait := k.chainWait ++ [⟨k.nextDesc, a.d.chain, a.d.thread, 64 * next, [], false⟩], nextDesc := k.nextDesc + 1 }

/-- R159: the VXE→XFE entry leaves its galley when its last byte has been read. -/
def State.dropSource (s : State) (g : Nat) (a : Active) : State :=
  if a.gsrc then s.modCore g fun k => { k with vx := k.vx.tail } else s

/-- Whether core `g`'s transfer engine works. -/
def State.xfeLive (s : State) (g : Nat) : Bool := s.live g && s.fget (F.XFE_STAT_FROZEN g) == 0

/-- R157, R159: a descriptor that has issued its last request is done with its source's galley entry, and the next of its
chain follows. -/
def State.lastIssued (s : State) (g : Nat) (a : Active) : State := if a.issued then (s.dropSource g a).chainNext g a else s

/-- R161: a copy within the LS and the OC holds one slot while it moves. -/
def Core.copyBusy (k : Core) (r : Req) : Bool :=
  r.bank == 0x20000 && (r.kind == .copy || r.kind == .zero) && k.slots.any fun x => x.req.desc == r.desc

/-- R157, R158, R161: active descriptor `id` issues one request, or puts it in its bank's wait queue. The Bool says that
it did. -/
def State.issueOne (s : State) (g id : Nat) : State × Bool :=
  let k := s.core g
  match s.occupant g, k.act.find? fun a => a.d.id == id with
  | some c, some a =>
    if s.xfeLive g = false ∨ a.failed = true ∨ k.waits.any (fun x => x.req.desc == id) = true ∨ 48 ≤ k.slots.length then (s, false)
    else match s.nextReq a with
      | none => (s, false)
      | some (r, p) =>
        let rdOk := r.kind == .zero || a.srcRem || a.op == 2 || s.xfeReach c false r.src r.len
        let wrOk := a.dstRem || s.xfeReach c true r.dst r.len
        if k.copyBusy r then (s, false)
        else if (rdOk && wrOk) = false then (s.xfeViolation g, false)
        else
          let b : Active := { a with row := p.1, pos := p.2 }
          let s := s.modCore g fun k => k.modAct id fun _ => b
          (if k.bankFree r then (s.takeSlot g c r b s.timeUs).lastIssued g b
            else s.modCore g fun k => { k with waits := k.waits ++ [⟨r, false, s.timeUs, 0, [], s.timeUs, [], none⟩] }, true)
  | _, _ => (s, false)

/-- Table 5-8: waiting requests take the freed slots of their banks in the order they began to wait. -/
def State.promote (s : State) (g : Nat) : State :=
  (s.core g).waits.foldl (fun s x =>
    let k := s.core g
    match s.occupant g, k.actOf x.req.desc with
    | some c, some a =>
      if s.xfeLive g = true ∧ k.slots.length < 48 ∧ k.bankFree x.req = true then
        ((s.modCore g fun k => { k with waits := k.waits.erase x }).takeSlot g c x.req a x.issued).lastIssued g a
      else s
    | _, _ => s) s

/-- R322, R161: a head's stream issues the read of its next bytes. The Bool says that it did. -/
def State.issueStream (s : State) (g c : Nat) (x : Stream) : State × Bool :=
  let k := s.core g
  match s.streamRec c x.idx with
  | none => (s, false)
  | some r =>
    let so := r.src + x.cursor
    let de := r.dst + x.cursor
    let n := Nat.min (Nat.min (r.bytes - x.cursor) (2048 - x.cursor % 2048)) (Nat.min (s.bankRoom so) (s.bankRoom de))
    let src := if isMem so then s.bankOf so else 0x20000
    let dst := if isMem de then s.bankOf de else 0x20000
    if r.relay ∨ s.streamCore c r ≠ g ∨ r.bytes ≤ x.cursor ∨ x.failed = true ∨ s.xfeLive g = false ∨ 48 ≤ k.slots.length
        ∨ k.waits.any (fun w => w.req.desc == streamDesc + x.idx) = true then (s, false)
    else if (s.xfeReach c false so n && s.xfeReach c true de n) = false then (s.xfeViolation g, false)
    else
      let q : Req := ⟨streamDesc + x.idx, .copy, so, de, n, if src = 0x20000 then dst else src, if src = 0x20000 then 0x20000 else dst⟩
      let s := s.putStream c { x with cursor := x.cursor + n }
      (if k.bankFree q then s.takeSlot g c q (streamAct x.idx) s.timeUs
        else s.modCore g fun k => { k with waits := k.waits ++ [⟨q, false, s.timeUs, 0, [], s.timeUs, [], none⟩] }, true)

/-- R157: the active descriptors, and the streams that the core carries out, issue in turn, one request each, while
slots last. -/
def State.pumpFrom (s : State) (g : Nat) : Nat → State
  | 0 => s
  | n + 1 =>
    let r := (s.core g).act.foldl (fun (p : State × Bool) a =>
      let q := p.1.issueOne g a.d.id
      (q.1, p.2 || q.2)) (s, false)
    let c := (s.occupant g).getD 0
    let r := if (s.occupant g).isNone then r else (r.1.ctx c).streams.foldl (fun (p : State × Bool) x =>
      let q := p.1.issueStream g c x
      (q.1, p.2 || q.2)) r
    if r.2 then r.1.pumpFrom g n else r.1

def State.pump (s : State) (g : Nat) : State := if s.xfeLive g then (s.promote g).pumpFrom g 64 else s

/-! ### The start of a descriptor (R156 steps 1 to 4) -/

/-- R155, R127, R454: the sum block a descriptor asks for: its format, rows and row length; none where it is illegal. -/
def State.descSum (s : State) (g : Nat) (l : List Nat) (rowLen rows : Nat) : Option (Fmt × Nat × Nat) :=
  let k := dField l 0 54 52
  let line := dField l 0 51 40
  let n := rowLen * rows
  match Fmt.ofCode ((s.byte (ocBase g + 64 * line + 1)).toNat % 16) with
  | none => none
  | some f =>
    let elems := n * 8 / f.width
    match sumkShape k elems with
    | none => none
    | some (r, len) =>
      if sumkFmtOk k f ∧ f.bytes elems = n ∧ (rows = 1 ∨ dField l 4 31 0 = rowLen) then some (f, r, len) else none

/-- HINT: the class and next use of the lines of the source shape that the die holds. -/
def State.hintLines (s : State) (g : Nat) (a : Active) : State :=
  let st := dField a.d.words 4 63 32
  let hit := fun l : DcLine => (List.range a.rows).any fun r =>
    decide (a.src + r * st < 128 * l.line + 128) && decide (128 * l.line < a.src + r * st + a.rowLen)
  s.modDie (g / 32) fun d => { d with
    lines := d.lines.map fun l => if hit l then { l with cls := dField a.d.words 0 59 57, next := dField a.d.words 0 39 28 } else l }

/-- The source range, row length and rows of descriptor words: the head of the VXE→XFE galley under GSRC. -/
def State.descShape (s : State) (g : Nat) (l : List Nat) : Nat × Nat × Nat :=
  if dField l 0 24 24 = 1 then
    let e := (s.core g).vx.headD 0
    ((if bits e 36 36 = 1 then ocBase g else lsBase g) + 64 * bits e 19 4, 64 * (bits e 35 20 + 1), 1)
  else (dField l 1 47 0, 64 * (dField l 3 63 46 + 1), dField l 3 45 30 + 1)

/-- R159: whether an active descriptor has read the last byte of its source: its last request has taken a slot. -/
def Core.sourceRead (k : Core) (a : Active) : Bool := a.issued && k.waits.all fun x => x.req.desc != a.d.id

/-- Whether a descriptor may start: one with GSRC needs an entry in the VXE→XFE galley that no active descriptor reads. -/
def State.canStart (s : State) (g : Nat) (l : List Nat) : Bool :=
  dField l 0 24 24 == 0 || (!(s.core g).vx.isEmpty && (s.core g).act.all fun a => !a.gsrc || (s.core g).sourceRead a)

/-- A descriptor becomes active: its generation step, its checks, and its first requests. QSET and HINT move nothing. -/
def State.startDesc (s : State) (g : Nat) (d : Desc) (refetch : Bool) : State :=
  let l := d.words
  let op := dField l 0 63 60
  let (src, rowLen, rows) := s.descShape g l
  let moves : Bool := op == 1 || op == 2
  let sumLine := 64 * dField l 0 51 40
  let a : Active := ⟨d, src, rowLen, if moves then rows else 0, 0, 0, s.quoin g (dField l 5 21 12), false, refetch, false⟩
  let sum : Bool := moves && dField l 0 54 52 != 0
  let (s, read) := if sum = true ∧ s.ocOk g sumLine 1088 = true then s.checkRead (ocBase g + sumLine + 1) 1 (s.occupant g) else (s, true)
  if sum = true ∧ s.ocOk g sumLine 1088 = false then s.xfeViolation g
  else if read = false then s.fset (F.XFE_STAT_FROZEN g) 1
  else if sum = true ∧ (s.descSum g l rowLen rows).isNone = true then s.xfeIllegal g
  else
    let c := (s.occupant g).getD 0
    let st := dField l 4 63 32
    if op = 4 ∧ (List.range rows).all (fun r => s.rowReach c false (rowLen / 0x40000 + 2) (src + r * st) rowLen) = false then s.xfeViolation g
    else
      let s := if a.seqBit ∧ refetch = false then s.quoinAdd g a.gq 1 else s
      let s := if op = 4 then s.hintLines g { a with rows := rows } else s
      let s := s.modCore g fun k => { k with act := k.act ++ [a] }
      (if moves then s else s.chainNext g a).pump g

/-- R157: places in use, and whether the queue may fill one: a waiting chain goes first. -/
def Core.placeFree (c : Core) : Bool := decide ((c.act.filter fun a => !a.refetch).length + c.chainWait.length < 16)

/-- A descriptor of operation `op` leaves the queue and starts (R157): the first that is ready, past those that wait (DEDUCED,
assumption 26). -/
def State.startQueued (s : State) (g op : Nat) : State :=
  let k := s.core g
  if s.xfeLive g = false ∨ k.placeFree = false then s
  else match k.xq.find? fun d => d.ready && dField d.words 0 63 60 == op && s.canStart g d.words with
    | none => s
    | some d => (s.modCore g fun k => { k with xq := k.xq.erase d }).startDesc g d false

/-- The checks of R155, R152 and R216 on descriptor words read from LS offset `o`. The Bool says that they pass. -/
def State.descRead (s : State) (g o : Nat) : State × Bool :=
  if 0x400000 < o + 64 then (s.xfeIllegal g, false)
  else if s.lsOk g o 64 = false then (s.xfeViolation g, false)
  else
    let (s, ok) := s.checkRead (lsBase g + o) 64 (s.occupant g)
    let l := s.descWords g o
    if ok = false then (s.fset (F.XFE_STAT_FROZEN g) 1, false)
    else if descLegal g l = false then (s.xfeIllegal g, false)
    else if (descQuoins l).any (fun q => !s.quoinOwned g q) then (s.xfeViolation g, false)
    else (s, true)

/-- R157: the next descriptor of a chain is read into an active place, waits there for its WQ, and starts. -/
def State.startChained (s : State) (g : Nat) : State :=
  let k := s.core g
  let reads := (k.chainWait.filter fun d => !d.words.isEmpty).length
  if s.xfeLive g = false then s
  else match k.chainWait.find? fun d => !d.words.isEmpty && d.ready && s.canStart g d.words with
    | some d => (s.modCore g fun k => { k with chainWait := k.chainWait.erase d }).startDesc g d false
    | none =>
      match k.chainWait.find? fun d => d.words.isEmpty with
      | none => s
      | some d =>
        if 16 ≤ (k.act.filter fun a => !a.refetch).length + reads then s
        else match s.descRead g d.addr with
          | (s, false) => s
          | (s, true) =>
            let l := s.descWords g d.addr
            let ok := decide (dField l 5 53 22 ≤ s.quoin g (dField l 5 63 54))
            let e : Desc := { d with words := l, ready := ok }
            if ok = true ∧ s.canStart g l = true then
              (s.modCore g fun k => { k with chainWait := k.chainWait.erase d }).startDesc g e false
            else s.modCore g fun k => { k with chainWait := k.chainWait.map fun x => if x.id = d.id then e else x }

/-! ### Landing (R156 step 4, R161) -/

/-- R156 step 4: the sum block is built when the last line lands. -/
def State.finishMove (s : State) (g id : Nat) : State :=
  let k := s.core g
  match k.act.find? fun a => a.d.id == id with
  | none => s
  | some a =>
    if dField a.d.words 0 54 52 = 0 ∨ k.moved a = false ∨ a.failed = true then s
    else match s.descSum g a.d.words a.rowLen a.rows with
      | none => s
      | some (f, rows, len) =>
        let sk := dField a.d.words 0 54 52
        let n := a.rowLen * a.rows
        let codes := f.unpack (rows * len) (s.bytes a.dst n)
        let line := 64 * dField a.d.words 0 51 40
        s.putSums g (a.dst - ocBase g) n line (sumBlock (sumkIsB sk) (sumkTileK sk == 256) f rows len codes)

/-- R252: a descriptor with a failed request ends without completion once its requests in flight have ended; a re-fetch
that ends so leaves its buffer torn (R164). -/
def State.endFailed (s : State) (g id : Nat) : State :=
  let k := s.core g
  match k.act.find? fun a => a.d.id == id with
  | none => s
  | some a =>
    if a.failed = false ∨ k.slots.any (fun x => x.req.desc == id) = true then s
    else
      let s := s.modCore g fun k => { k with
        act := k.act.filter fun x => x.d.id != id
        waits := k.waits.filter fun x => x.req.desc != id }
      if a.refetch then
        let mark := fun r : Refetch => if r.fill.desc = a.d.addr ∧ r.done = false then { r with done := true } else r
        let tear := fun f : FillRec => if f.desc = a.d.addr then { f with torn := true } else f
        s.modCore g fun k => { k with refetch := k.refetch.map mark, fills := k.fills.map tear }
      else
        let s := if k.sourceRead a then s else s.dropSource g a
        s.modCore g fun k => { k with lost := k.lost ++ [a.d] }

/-- R252: descriptor `desc` has failed: it issues nothing more. -/
def Core.failDesc (k : Core) (desc : Nat) : Core := k.modAct desc fun x => { x with failed := true }

/-- Every failed descriptor without a request in flight ends. -/
def State.endFailedAll (s : State) (g : Nat) : State :=
  (s.core g).act.foldl (fun s a => s.endFailed g a.d.id) s

/-- A slot is freed: waiting requests and active descriptors go on. -/
def State.freeSlot (s : State) (g : Nat) (x : Slot) : State :=
  let s := (s.modCore g fun k => { k with slots := k.slots.filter fun y => !(y == x), xfeAt := s.timeUs }).admitQueue
  (((s.finishMove g x.req.desc).endFailedAll g).pump g).settle g

/-- A local request lands: its source bytes are checked (R166, R167, R143) and its destination is written. -/
def State.landReq (s : State) (g c : Nat) (x : Slot) : State :=
  let r := x.req
  let (s, ok) := if r.kind = .copy then s.checkSource x.hit r.src r.len (some c) else (s, true)
  if ok = false then
    (((s.dcDrop g r.src r.len).fset (F.XFE_STAT_FROZEN g) 1).accessFault c r.src g).modCore g fun k => { k with slots := k.slots.filter fun y => !(y == x) }
  else
    let s := if r.kind = .copy then (s.dcFill g r.src r.len).crossed (some c) (homeDie r.src) (some (g / 32)) else s
    let s := s.crossed (some c) (some (g / 32)) (homeDie r.dst)
    let (s, whole) := s.landBytes r.dst x.data (some c)
    let s := if whole then s else (s.fset (F.XFE_STAT_FROZEN g) 1).accessFault c r.dst g
    let s := if r.desc < streamDesc then s else
      match s.streamRec c (r.desc - streamDesc) with
      | none => s
      | some q => s.streamLanded c (r.desc - streamDesc) ((r.dst - q.dst) / 2048) r.len false
    s.freeSlot g x

/-- R217: whether the transfer engine of core `g` is frozen, or stopped with its context, its state held. -/
def State.xfeHeld (s : State) (g : Nat) : Bool :=
  s.fget (F.XFE_STAT_FROZEN g) == 1 || match s.occupant g with
    | none => true
    | some c => s.ctxState c == ctxFaulted

/-- R252, R218, R232: the fabric transfer `id` of a descriptor of core `g` has ended. A transfer engine whose state is held
learns nothing of it (R217). -/
def State.descEnded (s : State) (g desc id : Nat) (e : XEnd) : State :=
  if s.xfeHeld g then s else
  match (s.core g).slots.find? fun x => x.xfer == id && (x.req.kind == .remoteRead || x.req.kind == .remoteWrite) with
  | none => s
  | some x =>
    let bad := fun (s : State) => (s.modCore g fun k => k.failDesc desc).freeSlot g x
    match e with
    | .ok => s.freeSlot g x
    | .failed => bad s
    | .noContext => bad (s.raise 0x0427 (s.occupant g) g [])
    | .window => (s.modCore g fun k => { k with slots := k.slots.filter fun y => !(y == x) }).xfeViolation g

/-! ### Completion (R156 steps 5 to 9) -/

/-- R163: the key of the fill record of a destination: its space and start line. -/
def fillKey (g a : Nat) : Option (Nat × Nat) :=
  match place a with
  | .ls h => if h = g then some (0, (a - lsBase g) / 64) else none
  | .oc h => if h = g then some (1, (a - ocBase g) / 64) else none
  | _ => none

/-- R156 steps 5 and 6; none while all 64 fill records are in use (R163). A destination outside the LS and OC of core `g` has no
fill record (DEDUCED, assumption 26). -/
def State.genSteps (s : State) (g : Nat) (a : Active) : Option State :=
  if a.gq = 0 then some s
  else if a.seqBit then some (if a.refetch then s else s.quoinAdd g a.gq 1)
  else match fillKey g a.dst with
    | none => some s
    | some (sp, ln) =>
      if dField a.d.words 0 55 55 = 1 then some s
      else
        let s2 := s.quoin g a.gq
        let f : FillRec := ⟨sp, ln, a.gq, a.sample1 % 65536, decide (a.sample1 % 2 = 1) || decide (a.sample1 ≠ s2), a.d.addr⟩
        let k := s.core g
        let others := k.fills.filter fun x => !(x.space == sp && x.line == ln)
        if others.length = 64 then none else some (s.setCore g { k with fills := others ++ [f] })

/-- R159: the XFE→VXE entry of a descriptor. DESIGN CHOICE (assumption 93): LINES of a destination of several rows counts its
span, gaps included, modulo 2^16. -/
def Active.entry (a : Active) (g : Nat) : Nat :=
  let span := (a.rows - 1) * (if a.rows ≤ 1 then 0 else dField a.d.words 4 31 0) + a.rowLen
  let (sp, ln) := (fillKey g a.dst).getD (0, 0)
  dField a.d.words 6 63 48 * 2 ^ 48 + a.gq * 2 ^ 38 + sp * 2 ^ 36 + ((span + 63) / 64 - 1) % 65536 * 2 ^ 20 + ln * 16

/-- R156 steps 5 to 9 for active descriptor number `i`; each waits where the rule makes it wait. A re-fetch does step 6 alone
(DEDUCED, assumption 26). -/
def State.completeDesc (s : State) (g i : Nat) : State :=
  let k := s.core g
  match k.act[i]? with
  | none => s
  | some a =>
    let first : Bool := a.refetch || k.act.all fun b => b.refetch || b.d.chain != a.d.chain || decide (a.d.id ≤ b.d.id)
    if s.xfeLive g = false ∨ a.failed = true ∨ k.moved a = false ∨ first = false then s
    else match (if a.sampled then some s else s.genSteps g a) with
      | none => s
      | some s =>
        let s := s.modCore g fun k => k.modAct a.d.id fun x => { x with sampled := true }
        let l := a.d.words
        let drop := fun (s : State) => s.modCore g fun k => { k with act := k.act.filter fun x => x.d.id != a.d.id }
        if a.refetch then
          (drop s).modCore g fun k => { k with refetch := k.refetch.map fun r =>
            if r.fill.desc = a.d.addr ∧ r.done = false then { r with done := true } else r }
        else if dField l 0 27 26 = 1 ∧ (s.galley g).xv ≤ (s.core g).xv.length then s
        else
          let s := if dField l 0 27 26 = 1 then s.modCore g fun k => { k with xv := k.xv ++ [a.entry g] } else s
          let cq := dField l 6 47 38
          let s := if a.op = 3 then s.quoinSet g cq (dField l 4 31 0) else s.quoinAdd g cq (sext 16 (dField l 6 37 22))
          let s := if dField l 7 61 52 = 0 then s else
            let c := (s.occupant g).getD 0
            s.sendQupd a.fab c c (dField l 7 63 62) (dField l 7 61 52) (dField l 7 51 36)
          ((drop s).pump g).settle g

/-! ### Pulled units (R323) -/

/-- R323: unit `u` of stream `idx` is pulled from fallback number `k` or a later one; the stream fails when none is
left. `fuel` bounds the local fallbacks tried. -/
def State.pullUnit (s : State) (c idx u : Nat) : Nat → Nat → State
  | 0, _ => s
  | fuel + 1, k =>
    match (s.ctx c).streams.find? fun x => x.idx == idx, s.streamRec c idx, (s.ctx c).coll.imp with
    | some x, some r, some i =>
      match r.fallback[k]? with
      | none =>
        if x.failed then s
        else ((s.putStream c { x with failed := true }).raise 0x0704 (some c) 0 [idx]).modCtx c fun y =>
          { y with coll := { y.coll with weights := true } }
      | some (rank, a) =>
        if rank = 0xFFFF then s.pullUnit c idx u fuel (k + 1)
        else
          let src := a + 2048 * u
          let n := r.unitLen u
          let g := s.streamCore c r
          if s.xfeReach c true (r.dst + 2048 * u) n = false ∨ (rank = i.self ∧ s.xfeReach c false src n = false) then s.xfeViolation g
          else if rank = i.self then
            let (s, ok) := s.checkRead src n (some c)
            if ok then (s.landFor c g (r.dst + 2048 * u) (s.bytes src n)).streamLanded c idx u n true
            else s.accessFault c src g
          else s.request (mkXfer .read (.pull c idx u k) (i.ranks.getD rank 0) 1 c c src [] (r.dst + 2048 * u) n) false
    | _, _, _ => s

/-- R323: every unit of a stream that has not landed is pulled; the event is raised once per stream. -/
def State.pullMissing (s : State) (c idx : Nat) : State :=
  match (s.ctx c).streams.find? fun x => x.idx == idx, s.streamRec c idx with
  | some x, some r =>
    if x.late then s
    else
      let s := (s.putStream c { x with late := true }).raise 0x0703 (some c) 0 [idx]
      ((List.range r.units).filter fun u => !x.has r u).foldl (fun s u => s.pullUnit c idx u 4 0) s
  | _, _ => s

/-- R323: a pull has ended. -/
def State.pullEnded (s : State) (c idx u k : Nat) (e : XEnd) : State :=
  match s.streamRec c idx with
  | none => s
  | some r => if e = .ok then s.streamLanded c idx u (r.unitLen u) true else s.pullUnit c idx u 4 (k + 1)

/-- R323: streams fed by the peer at `fab` pull what they miss. The transfer engines of a context that does not run issue nothing
(R220); its streams pull at their deadlines. -/
def State.feedLost (s : State) (c fab : Nat) : State :=
  if s.ctxState c ≠ ctxRunning then s
  else (s.ctx c).streams.foldl (fun s x =>
    match s.streamRec c x.idx, (s.ctx c).coll.imp with
    | some r, some i => if r.relay ∧ i.ranks.getD r.feed 0 = fab then s.pullMissing c x.idx else s
    | _, _ => s) s

/-- R164: the descriptor of a buffer whose check failed is read again and run, once its generation is even. -/
def State.startRefetch (s : State) (g : Nat) : State :=
  let k := s.core g
  if s.xfeLive g = false then s
  else match k.refetch.find? fun r => !r.done && s.quoin g r.fill.gq % 2 == 0
      && k.act.all fun a => !(a.refetch && a.d.addr == r.fill.desc) with
    | none => s
    | some r =>
      match s.descRead g r.fill.desc with
      | (s, false) => s
      | (s, true) =>
        let l := s.descWords g r.fill.desc
        if s.canStart g l = false then s
        else (s.modCore g fun k => { k with nextDesc := k.nextDesc + 1 }).startDesc g
          ⟨(s.core g).nextDesc, (s.core g).nextDesc, 8, r.fill.desc, l, true⟩ true

end Sys2Proof.Machine
end

