-- ==== Sys2Proof/Machine/Flush.lean ====
section
/-!
DEFINITION. Requests that have ended are told to their owners (R218, R225, R232, R252): every command that can end a
request settles with `flush`.
-/

namespace Sys2Proof.Machine

/-- R218: a window refusal of a request that context `c` sent: its transfer engine freezes and the context faults. -/
def State.ctxViolation (s : State) (c : Nat) : State :=
  let g := (s.chaseCoresOf c).headD 0
  let s := if s.occupant g = some c then s.fset (F.XFE_STAT_FROZEN g) 1 else s
  (s.raise 0x0420 (some c) g []).ctxFault c 0x0420 g

def XEnd.code : XEnd → Nat
  | .ok => 0 | .failed => 1 | .window => 2 | .noContext => 3

def XEnd.ofCode : Nat → XEnd
  | 0 => .ok | 1 => .failed | 2 => .window | _ => .noContext

/-- The owner of an ended request learns of its end. -/
def State.settleEnd (s : State) (x : Xfer) (e : XEnd) : State :=
  let c := x.ctx
  let noCtx := fun (s : State) => if e = .noContext then s.raise 0x0427 (some c) 0 [x.fab] else s
  let refused := fun (k : State → State) => if e = .window then s.ctxViolation c else k (noCtx s)
  match x.owner with
  | .quoin => noCtx s
  | .desc core desc _ =>
    if s.buffered c core then
      s.putLanding c ⟨if e = .failed then .ended else .ack, core, desc, leBytes 1 e.code, x.id⟩
    else if s.occupant core = some c then s.descEnded core desc x.id e
    else s
  | .unit ctx bucket _ dir phase first n last missing => s.unitEnded ctx x bucket dir phase first n last missing e
  | .refetch ctx bucket seg dir unit rank => refused fun s => s.refetchEnded ctx bucket seg dir unit rank e
  | .stream _ _ _ => refused fun s => s
  | .pull ctx idx unit rank => refused fun s => s.pullEnded ctx idx unit rank e
  | .task ctx key => if key % 8 = 4 then s.taskEnded ctx key e else refused fun s => s.taskEnded ctx key e
  | .repair ctx => refused fun s => s.repairEnded ctx e x.len
  | .recover ctx part => refused fun s => s.orderEnded ctx part e x.got

/-- The ended requests settled in order, at most `k` of them. -/
def State.flushN (s : State) : Nat → State
  | 0 => s
  | k + 1 =>
    match s.ended with
    | [] => s
    | p :: r => ({ s with ended := r }.settleEnd p.1 p.2).flushN k

/-- Every request that has ended is settled. -/
def State.flush (s : State) : State := s.flushN 4096

end Sys2Proof.Machine
end

