-- ==== Sys2Proof/Machine/Rdma.lean ====
section
/-!
DEFINITION. The host port's queue pairs as a requester (R381, R385, R388) and the records the module writes to the host
(R395 to R399).
-/

namespace Sys2Proof.Machine

abbrev HostQp := Qp Rec Event
abbrev HostReq := QReq Rec Event

/-! ### Queue pairs -/

def State.qp? (s : State) (n : Nat) : Option HostQp := s.hpt.qps.find? fun q => q.num == n
def State.modQp (s : State) (n : Nat) (f : HostQp → HostQp) : State :=
  { s with hpt := { s.hpt with qps := s.hpt.qps.map fun q => if q.num = n then f q else q } }

/-- R379, R382: the priority a queue pair's packets carry. -/
def State.qpPrio (s : State) (q : HostQp) : Nat := if q.kind = 0 then 7 else s.hpt.cfg.dataPrio

/-- Whether the host link carries packets: powered and up. -/
def State.hostUp (s : State) : Bool := s.fget F.HPT_STAT_LINK == 1 && s.phase != .off && s.phase != .held

/-- R379: whether a frame passes the port's filters: it has the VID of the configuration record and no other, no fragment,
option or extension header, and, over UDP, a right checksum. -/
def State.frameIn (s : State) (udp : Bool) (h : FrameHead) : Bool := h.vid == s.hpt.cfg.vlan && h.plain && (!udp || h.sumOk)

/-- The queue pair `n` as a packet that arrives finds it: connected, the link and its plane up, the frame accepted. -/
def State.pair (s : State) (n : Nat) (h : FrameHead) : Option HostQp :=
  (s.qp? n).filter fun q => !q.err && s.hostUp && s.planeUp q.kind && s.frameIn true h

/-- Whether priority `p` is paused (R379). -/
def State.pausedAt (s : State) (p : Nat) : Bool := decide (s.timeUs < s.hpt.paused.getD p 0)

/-- R379: packets go out on priority `p`, or wait while it is paused, in order. -/
def State.sendHost (s : State) (p : Nat) (l : List Out) : State :=
  if s.pausedAt p = true ∨ s.hpt.held.any (fun x => x.1 == p) = true then
    { s with hpt := { s.hpt with held := s.hpt.held ++ l.map fun o => (p, o) } }
  else { s with out := s.out ++ l }

/-- What waited for a pause that is over goes out. -/
def State.unpause (s : State) : State :=
  { s with
    out := s.out ++ (s.hpt.held.filter fun x => !s.pausedAt x.1).map (·.2)
    hpt := { s.hpt with held := s.hpt.held.filter fun x => s.pausedAt x.1 } }

/-- Whether a queue pair can send: connected, not in the error state, not paused, its plane up (R379, R382, R397). -/
def State.qpReady (s : State) (q : HostQp) : Bool := !q.err && s.hostUp && !s.pausedAt (s.qpPrio q) && s.planeUp q.kind

/-- 800 Gb/s, 5 Gb/s and 1 Gb/s in the unit of `Qp.rate` (R381). -/
def rateMax : Nat := 800000000000 * 2 ^ 64
def rateStep : Nat := 5000000000 * 2 ^ 64
def rateMin : Nat := 1000000000 * 2 ^ 64

/-! ### Management datagrams (R379, R384, R385, R416) -/

/-- The Internet checksum of a message. -/
def inetSum (l : List Byte) : Nat :=
  let t := (List.range ((l.length + 1) / 2)).foldl (fun a i => a + beNat (slice l (2 * i) 2)) 0
  let f := fun x : Nat => x / 65536 + x % 65536
  65535 - f (f t)

/-- What the model writes of a UDP datagram from MGMT_PORT to port `port` of address `dst` (IPv6 or IPv4): the address, then the UDP
header with its checksum, then the payload. -/
def State.datagram (s : State) (dst : List Byte) (port : Nat) (m : List Byte) : List Byte :=
  let n := 8 + m.length
  let own := if dst.length = 4 then s.hpt.cfg.ip4 else s.hpt.cfg.ip6
  let pseudo := own ++ dst ++ (if dst.length = 4 then [0#8, 17#8] ++ beBytes 2 n else beBytes 4 n ++ beBytes 4 17)
  let head := beBytes 2 s.hpt.cfg.mgmtPort ++ beBytes 2 port ++ beBytes 2 n
  let sum := inetSum (pseudo ++ head ++ [0, 0] ++ m)
  dst ++ head ++ beBytes 2 (if sum = 0 then 0xFFFF else sum) ++ m

/-- A frame of the host port on priority `p`. -/
def State.sendFrame (s : State) (p : Nat) (l : List Byte) : State := s.sendHost p [⟨.ether, p, l⟩]

/-! ### RoCEv2 packets

R6: the fields of a packet, from its base transport header on, in the standard's layout and byte order (PRESUMED from the
standard, assumption 54, as the spec names it and gives none of it). The headers beneath and the invariant CRC, which covers
them, are not written. -/

/-- What a packet of the module is. -/
inductive PktKind where
  | write | read | readResp | ack | nakSeq | nakAccess | nakOp | cnp
  deriving DecidableEq, Repr

/-- The base transport header: opcode, MigReq and pad count, P_Key, destination queue pair, AckReq and PSN. -/
def bth (op pad dqp psn : Nat) (ackReq : Bool) : List Byte :=
  beBytes 1 op ++ beBytes 1 (64 + 16 * pad) ++ beBytes 2 0xFFFF ++ beBytes 1 0 ++ beBytes 3 dqp ++ beBytes 1 (128 * b2n ackReq)
    ++ beBytes 3 psn

/-- The RDMA extended transport header. -/
def reth (vaddr rkey len : Nat) : List Byte := beBytes 8 vaddr ++ beBytes 4 rkey ++ beBytes 4 len

/-- The ACK extended transport header: syndrome and MSN. -/
def aeth (syndrome msn : Nat) : List Byte := beBytes 1 syndrome ++ beBytes 3 msn

/-- The syndromes of an ACK without credits and of the NAKs. -/
def PktKind.syndrome : PktKind → Nat
  | .nakSeq => 0x60 | .nakAccess => 0x62 | .nakOp => 0x63 | _ => 0x1F

/-- Segment `i` of `n` of a message that spans packets: the opcode from that of its FIRST packet, whose MIDDLE and LAST
follow it. ONLY stands `only` behind FIRST. -/
def segOpcode (first only i n : Nat) : Nat := if n = 1 then first + only else if i = 0 then first else if i + 1 = n then first + 2 else first + 1

/-- The packets of one message to queue pair `dqp` with first PSN `psn`, cut by the path MTU. -/
def rocePkts (k : PktKind) (dqp psn vaddr rkey len mtu msn : Nat) (data : List Byte) : List (List Byte) :=
  let n := Nat.max 1 ((data.length + mtu - 1) / mtu)
  let seg := fun i => (data.drop (mtu * i)).take mtu
  let pad := fun i => (4 - (seg i).length % 4) % 4
  let body := fun i => seg i ++ List.replicate (pad i) 0
  let at_ := fun i => (psn + i) % 2 ^ 24
  match k with
  | .write => (List.range n).map fun i => bth (segOpcode 6 4 i n) (pad i) dqp (at_ i) (i + 1 == n)
      ++ (if i = 0 then reth vaddr rkey len else []) ++ body i
  | .read => [bth 12 0 dqp psn true ++ reth vaddr rkey len]
  | .readResp => (List.range n).map fun i => bth (segOpcode 13 3 i n) (pad i) dqp (at_ i) false
      ++ (if i = 0 ∨ i + 1 = n then aeth 0x1F msn else []) ++ body i
  | .cnp => [beBytes 1 0x81 ++ beBytes 1 64 ++ beBytes 2 0xFFFF ++ beBytes 1 64 ++ beBytes 3 dqp ++ beBytes 4 0 ++ List.replicate 16 0]
  | k => [bth 17 0 dqp psn false ++ aeth k.syndrome msn]

/-- What `q` sends as one message. -/
def qpPkts (q : HostQp) (k : PktKind) (psn vaddr rkey len : Nat) (data : List Byte) : List Out :=
  (rocePkts k q.hostQpn psn vaddr rkey len q.mtu q.msn data).map fun l => ⟨.roce, q.num, l⟩

def State.sendPkt (s : State) (q : HostQp) (k : PktKind) (psn vaddr rkey len : Nat) (data : List Byte) : State :=
  s.sendHost (s.qpPrio q) (qpPkts q k psn vaddr rkey len data)

/-- One request sent, or sent again. -/
def State.sendReq (s : State) (q : HostQp) (r : HostReq) : State :=
  s.sendPkt q (if r.read then .read else .write) r.psn r.vaddr r.rkey r.len r.data

/-- A new request over queue pair `q`: its PSNs cover its packets, or the packets of its response. -/
def State.postReq (s : State) (q : HostQp) (read : Bool) (vaddr rkey len : Nat) (data : List Byte) (own : QOwn Rec Event) :
    State :=
  let n := Nat.max 1 ((len + q.mtu - 1) / q.mtu)
  let r : HostReq := ⟨q.psn, n, read, vaddr, rkey, len, data, own⟩
  let since := if q.sent.isEmpty then s.timeUs else q.since
  (s.modQp q.num fun q => { q with psn := (q.psn + n) % 2 ^ 24, sent := q.sent ++ [r], since := since }).sendReq q r

/-- R388, R397, R393: a request that will not be acknowledged: a record or an event is due again, a QUERY or a LOAD_FORME
completes with FETCH_FAILED. -/
def State.reqFailed (s : State) (r : HostReq) : State :=
  match r.own with
  | .record c k => (s.modCtx c fun x => { x with backlog := k :: x.backlog, crK := x.crK - 1 }).noteBacklog c
  | .event e => { s with evq := e :: s.evq, hpt := { s.hpt with erK := s.hpt.erK - 1 } }
  | .query c ring _ => s.complete c ring stFetchFailed 0 0
  | .image c ring => (s.modCtx c fun x => { x with loading := none }).complete c ring stFetchFailed 0 0
  | .gone _ => s

/-- A queue pair enters the error state; its requests fail, the newest first so that records keep their order. -/
def State.qpFail (s : State) (n : Nat) : State :=
  match s.qp? n with
  | none => s
  | some q => q.sent.reverse.foldl State.reqFailed (s.modQp n fun q => { q with err := true, sent := [], tries := 0 })

/-- An acknowledged write: a QUERY completes with its result's size (R394). -/
def State.reqDone (s : State) (r : HostReq) : State :=
  match r.own with
  | .query c ring size => s.complete c ring stOk 0 size
  | _ => s

/-- `a` is at or before `b` in 24-bit PSN order. -/
def psnLe (a b : Nat) : Bool := decide ((b + 2 ^ 24 - a) % 2 ^ 24 < 2 ^ 23)

/-- Whether an acknowledgement can end a request: a write, or a read of which nothing is wanted. -/
def QReq.ackable (r : HostReq) : Bool := !r.read || (match r.own with | .gone _ => true | _ => false)

/-- The requests at the front of `l` that an acknowledgement up to `psn` ends, and the rest. -/
def ackSplit (psn : Nat) : List HostReq → List HostReq × List HostReq
  | [] => ([], [])
  | r :: t =>
    if r.ackable && psnLe (r.psn + r.n - 1) psn then
      let (a, b) := ackSplit psn t
      (r :: a, b)
    else ([], r :: t)

/-- Requests up to `psn` are acknowledged. -/
def State.ackTo (s : State) (q : HostQp) (psn : Nat) : State :=
  let (done, rest) := ackSplit psn q.sent
  if done.isEmpty then s
  else done.foldl State.reqDone (s.modQp q.num fun q => { q with sent := rest, tries := 0, since := s.timeUs })

/-- The unacknowledged requests are sent again. -/
def State.resendReqs (s : State) (n : Nat) : State :=
  match s.qp? n with
  | none => s
  | some q => q.sent.foldl (fun s r => s.sendReq q r) s

/-- R381: a packet marked CE is answered with a CNP, at most one per 50 µs. -/
def State.ceAnswer (s : State) (n : Nat) (ce : Bool) : State :=
  match s.qp? n with
  | none => s
  | some q =>
    if ce ∧ (match q.cnpAt with | none => true | some t => decide (t + 50 ≤ s.timeUs)) = true then
      (s.modQp n fun q => { q with cnpAt := some s.timeUs }).sendPkt q .cnp 0 0 0 0 []
    else s

/-! ### Completion records (R395 to R397) -/

/-- Table 13-7. -/
def Rec.bytes (r : Rec) (c : Nat) (phase : Bool) : List Byte :=
  leBytes 1 r.kind ++ leBytes 1 r.opc ++ leBytes 1 (c + 16 * r.ring + 128 * b2n phase) ++ leBytes 1 r.status
    ++ leBytes 4 r.tag ++ leBytes 4 r.step ++ leBytes 1 r.detail ++ leBytes 1 r.sflags ++ leBytes 2 0
    ++ leBytes 6 r.tick ++ leBytes 2 0 ++ leBytes 8 r.value

/-- PHASE of record `k` of a ring of 2^n. -/
def phaseOf (k n : Nat) : Bool := decide (k / 2 ^ n % 2 = 0)

def State.completionWrite (s : State) (c : Nat) : State :=
  let x := s.ctx c
  let n := bits x.crCfg 3 0
  match x.backlog, x.crQp.bind s.qp? with
  | r :: rest, some q =>
    if bit x.crCfg 31 ∧ (x.crK + 2 ^ 32 - x.crCi % 2 ^ 32) % 2 ^ 32 < 2 ^ n ∧ s.qpReady q = true then
      let s := s.modCtx c fun x => { x with
        backlog := rest, crK := x.crK + 1, backlogFull := x.backlogFull && decide (64 ≤ rest.length) }
      s.postReq q false (x.crAddr + 32 * (x.crK % 2 ^ n)) x.crRkey 32 (r.bytes c (phaseOf x.crK n)) (.record c r)
    else s
  | _, _ => s

/-- R396, R397: the context's oldest record is written to its completion ring, where there is room. -/
def execCompletionWrite (c : CtxId) (s : State) : Host.Outcome State Fault Refusal := .next (s.completionWrite c)

/-! ### Event records (R398, R399) -/

/-- Table 13-9. Event 0x0706 gives 16-bit fields. -/
def Event.bytes (e : Event) (phase : Bool) : List Byte :=
  let d := (e.data.map (leBytes 4)).flatten
  leBytes 2 e.code ++ leBytes 1 (match e.ctx with | some c => 128 + c | none => 0) ++ leBytes 1 (128 * b2n phase)
    ++ leBytes 4 e.seq ++ leBytes 6 e.tick ++ leBytes 2 e.unit ++ slice d 0 16

def State.eventWrite (s : State) : State :=
  let n := s.fget F.HPT_ER_HI_LOG2
  let k := s.hpt.erK
  match s.evq, s.qp? (s.fget F.HPT_ER_HI_QP) with
  | e :: rest, some q =>
    if s.fget F.HPT_ER_HI_EN = 1 ∧ q.kind = 0 ∧ (k + 2 ^ 32 - s.fget F.HPT_ER_CI_CI) % 2 ^ 32 < 2 ^ n ∧ s.qpReady q = true then
      { s with evq := rest, hpt := { s.hpt with erK := k + 1 } }.postReq q false
        (s.rget R.HPT_ER_LO + 2 ^ 32 * s.fget F.HPT_ER_HI_ADDR_HI + 32 * (k % 2 ^ n)) (s.rget R.HPT_ER_RKEY) 32
        (e.bytes (phaseOf k n)) (.event e)
    else s
  | _, _ => s

/-- R398: the oldest event record is written to the event ring, where there is room. -/
def execEventRecordWrite (s : State) : Host.Outcome State Fault Refusal := .next s.eventWrite

end Sys2Proof.Machine
end

