-- ==== Sys2Proof/Machine/Colophon.lean ====
section
/-!
DEFINITION. Colophon records as bytes (R374, Tables 12-5 and 12-6) and the lookup of records (R373, R375, R394).
-/

/-- The layout of the sections of a colophon record that Table 12-5 leaves internal: byte by what the capture read, capture,
whether a full record, and offset. -/
opaque Sys2Proof.Config.colophonByte : Option Sys2Proof.Machine.Snap → Nat → Bool → Nat → BitVec 8

namespace Sys2Proof.Machine

abbrev ColRecord := ColRec Event Snap

/-- Bytes of a record by kind (R374). -/
def ColRec.size (r : ColRecord) : Nat := if r.full then 0x100000 else 0x10000

/-- Table 12-6 with the CRC field taken as `crc`. -/
def ColRec.header (r : ColRecord) (crc : Nat) : List Byte :=
  let h := leBytes 4 0x4C4F434B ++ leBytes 2 1 ++ leBytes 1 (if r.full then 1 else 2) ++ leBytes 1 r.flags
    ++ leBytes 4 r.seq ++ leBytes 2 r.detectors ++ leBytes 1 r.domain ++ leBytes 1 0 ++ leBytes 2 r.target
    ++ leBytes 2 r.restarts ++ leBytes 4 r.captureUs ++ leBytes 8 r.wall ++ leBytes 6 r.tick ++ leBytes 2 0
    ++ leBytes 4 r.epoch ++ leBytes 4 r.unreach.length ++ slice r.fwHash 0 48 ++ leBytes 4 r.sectMask
  slice h 0 4088 ++ leBytes 8 crc

/-- The unreachable map: one bit per scan unit, numbered as the model numbers units (assumption 51). -/
def ColRec.map (r : ColRecord) : List Byte :=
  (List.range 4096).map fun i => BitVec.ofNat 8 ((List.range 8).foldl (fun a b => a + 2 ^ b * b2n (r.unreach.contains (8 * i + b))) 0)

/-- The event section, newest last. -/
def ColRec.eventBytes (r : ColRecord) : List Byte :=
  let n := if r.full then 2048 else 256
  slice ((r.events.drop (r.events.length - n)).map fun e => Event.bytes e false).flatten 0 (32 * n)

/-- What follows the header: the sections whose layout is internal are free values of what the capture has read. -/
def ColRec.body (r : ColRecord) : List Byte :=
  let a := r.map ++ r.eventBytes
  a ++ (List.range (r.size - 4096 - a.length)).map fun i => Config.colophonByte r.snap r.stamp r.full i

/-- The record's bytes; its CRC is taken over the whole record with the CRC as zero. -/
def ColRec.bytes (r : ColRecord) : List Byte :=
  let b := r.body
  r.header (crc64 (r.header 0 ++ b)) ++ b

/-- The records held: colophon RAM, then flash, where a slot without a header, or whose CRC fails, holds none (R375). -/
def State.colRecords (s : State) : List ColRecord :=
  s.rst.ram.filterMap id ++ (s.rst.flash.filterMap id).filterMap fun x => if x.header && x.crcOk then some x.record else none

/-- R394: the record with sequence number `seq`, or the newest; a full record before a summary of the same number. -/
def State.colFind (s : State) (seq : Nat) : Option ColRecord :=
  let l := s.colRecords
  let want := if seq = 0xFFFFFFFF then l.foldl (fun a r => Nat.max a r.seq) 0 else seq
  match l.find? fun r => r.seq == want && r.full with
  | some r => some r
  | none => l.find? fun r => r.seq == want

end Sys2Proof.Machine
end

