-- ==== Sys2Proof/Machine/Curve.lean ====
section
/-!
DEFINITION. ECDSA over P-384 with SHA-384 as FIPS 186-5 defines it, which R408 names: the curve's arithmetic, public keys
(R414), verification (R409, R418, R419) and signatures (R416). Coordinates and signature values are little-endian (R408).
-/

namespace Sys2Proof.Machine

/-- The prime of P-384. -/
def p384 : Nat :=
  0xFFFFFFFFFFFFFFFFFFFFFFFFFFFFFFFFFFFFFFFFFFFFFFFFFFFFFFFFFFFFFFFEFFFFFFFF0000000000000000FFFFFFFF

/-- The order of its base point. -/
def p384Order : Nat :=
  0xFFFFFFFFFFFFFFFFFFFFFFFFFFFFFFFFFFFFFFFFFFFFFFFFC7634D81F4372DDF581A0DB248B0A77AECEC196ACCC52973

/-- The coefficient b of y² = x³ - 3x + b. -/
def p384B : Nat :=
  0xB3312FA7E23EE7E4988E056BE3F82D19181D9C6EFE8141120314088F5013875AC656398D8A2ED19D2A85C8EDD3EC2AEF

/-- `b` to the power `e` below 2^384, modulo `m`. -/
def powMod (m b e : Nat) : Nat :=
  (List.range 384).foldl (fun a i => if e.testBit (383 - i) then a * a % m * b % m else a * a % m) 1

/-- The inverse modulo a prime `m`. -/
def invMod (m a : Nat) : Nat := powMod m (a % m) (m - 2)

def mulP (a b : Nat) : Nat := a * b % p384
def subP (a b : Nat) : Nat := (a + p384 - b % p384) % p384

/-- A point in Jacobian coordinates; z = 0 is the point at infinity. -/
structure JPoint where
  x : Nat
  y : Nat
  z : Nat
  deriving DecidableEq, Repr

def p384Base : JPoint where
  x := 0xAA87CA22BE8B05378EB1C71EF320AD746E1D3B628BA79B9859F741E082542A385502F25DBF55296C3A545E3872760AB7
  y := 0x3617DE4A96262C6F5D9E98BF9292DC29F8F41DBD289A147CE9DA3113B5F0B8C00A60B1CE1D7E819D7A431D7C90EA0E5F
  z := 1

def jDouble (a : JPoint) : JPoint :=
  let d := mulP a.z a.z
  let g := mulP a.y a.y
  let b := mulP a.x g
  let t := mulP (3 * subP a.x d) (a.x + d)
  let x := subP (t * t) (8 * b)
  ⟨x, subP (t * subP (4 * b) x) (8 * mulP g g), mulP (2 * a.y) a.z⟩

def jAdd (a b : JPoint) : JPoint :=
  if a.z = 0 then b
  else if b.z = 0 then a
  else
    let za := mulP a.z a.z
    let zb := mulP b.z b.z
    let u := mulP a.x zb
    let v := mulP a.y (mulP b.z zb)
    let h := subP (mulP b.x za) u
    let r := subP (mulP b.y (mulP a.z za)) v
    if h = 0 then (if r = 0 then jDouble a else ⟨1, 1, 0⟩)
    else
      let h2 := mulP h h
      let h3 := mulP h h2
      let x := subP (r * r) (h3 + 2 * mulP u h2)
      ⟨x, subP (r * subP (mulP u h2) x) (v * h3), mulP h (mulP a.z b.z)⟩

/-- `k` times `a`, for k below 2^384. -/
def jMul (k : Nat) (a : JPoint) : JPoint :=
  (List.range 384).foldl (fun q i => if k.testBit (383 - i) then jAdd (jDouble q) a else jDouble q) ⟨1, 1, 0⟩

/-- The affine coordinates of a point that is not at infinity. -/
def jAffine (a : JPoint) : Nat × Nat :=
  let w := invMod p384 a.z
  let w2 := mulP w w
  (mulP a.x w2, mulP a.y (mulP w w2))

/-- Whether (x, y) are the coordinates of a point of the curve. -/
def onCurve (x y : Nat) : Bool :=
  decide (x < p384) && decide (y < p384) && (mulP y y == (mulP (mulP x x) x + subP p384B (3 * x)) % p384)

/-- Whether the signature (r, s) verifies for a digest under a public key of 96 bytes. -/
def ecdsaVerify (key digest r s : List Byte) : Bool :=
  let x := leAt key 0 48
  let y := leAt key 48 48
  let r := leNat r
  let s := leNat s
  if r = 0 ∨ p384Order ≤ r ∨ s = 0 ∨ p384Order ≤ s ∨ onCurve x y = false then false
  else
    let w := invMod p384Order s
    let q := jAdd (jMul (beNat digest * w % p384Order) p384Base) (jMul (r * w % p384Order) ⟨x, y, 1⟩)
    q.z != 0 && (jAffine q).1 % p384Order == r

/-- The public key of a private scalar: x, then y. -/
def publicKey (d : Nat) : List Byte :=
  let q := jAffine (jMul d p384Base)
  leBytes 48 q.1 ++ leBytes 48 q.2

/-- A signature under the private scalar `d` over a message, its nonce free: r and s. -/
def ecdsaSign (d : Nat) (msg : List Byte) : Nat × Nat :=
  let k := (Config.signNonce d msg).toNat % (p384Order - 1) + 1
  let r := (jAffine (jMul k p384Base)).1 % p384Order
  (r, invMod p384Order k * (beNat (sha384 msg) + r * d) % p384Order)

end Sys2Proof.Machine
end

