-- ==== Sys2Proof/Machine/Forme.lean ====
section
/-!
DEFINITION. The forme image (R170 to R177, R204 to R207, R269, R319, R321) and the proof pass: the twenty-six checks of
Table 6-6 in their order, and the placement of R179.
-/

namespace Sys2Proof.Machine

/-! ### The image -/

/-- R418: the forme key table as pairs of KEY_ID and key. -/
def State.formeKeys (s : State) : List (List Byte × List Byte) :=
  s.sec.keys.filterMap fun k => k.map fun b => ((sha384 b).take 16, b)

/-- Whether `n` bytes at `o` are all zero. -/
def zeros (img : List Byte) (o n : Nat) : Bool := (slice img o n).all (· == 0)

/-- Directory entry `i`: OFFSET, LENGTH, TYPE (R172). -/
def dirEntry (img : List Byte) (i : Nat) : Nat × Nat × Nat :=
  (leAt img (0x100 + 16 * i) 8, leAt img (0x108 + 16 * i) 4, leAt img (0x10C + 16 * i) 1)

def nSect (img : List Byte) : Nat := leAt img 0x18 2

/-- The section of type `t`: its bytes, or none. -/
def sectAt? (img : List Byte) (t : Nat) : Option (Nat × Nat) :=
  ((List.range (Nat.min (nSect img) 16)).map (dirEntry img)).findSome? fun e => if e.2.2 = t then some (e.1, e.2.1) else none

/-- Offset of a section; an absent one reads as empty. -/
def secOff (img : List Byte) (t : Nat) : Nat := ((sectAt? img t).map (·.1)).getD 0
def secLen (img : List Byte) (t : Nat) : Nat := ((sectAt? img t).map (·.2)).getD 0
def hasSec (img : List Byte) (t : Nat) : Bool := (sectAt? img t).isSome

/-- The first word of a section's count header, 0 for an absent section. -/
def secCount (img : List Byte) (t : Nat) : Nat := if hasSec img t then leAt img (secOff img t) 4 else 0

/-- A chase record (Table 6-3). -/
def parseChase (img : List Byte) (d : Nat) : ChaseRec :=
  let o := secOff img 1 + 64 * d
  ⟨leAt img o 1, leAt img (o + 1) 1, leAt img (o + 2) 1, leAt img (o + 4) 4, leAt img (o + 8) 2, leAt img (o + 12) 4,
    leAt img (o + 16) 4, leAt img (o + 20) 4, leAt img (o + 24) 4, leAt img (o + 28) 2, leAt img (o + 30) 2, leAt img (o + 32) 2⟩

/-- A memory declaration: KIND, FLAGS, AUX, BASE, LENGTH (R175). -/
structure Decl where
  kind : Nat
  flags : Nat
  aux : Nat
  base : Nat
  len : Nat
  deriving DecidableEq, Repr

def parseDecls (img : List Byte) : List Decl :=
  (List.range (secCount img 5)).map fun i =>
    let o := secOff img 5 + 16 + 32 * i
    ⟨leAt img o 1, leAt img (o + 1) 1, leAt img (o + 2) 2, leAt img (o + 8) 8, leAt img (o + 16) 8⟩

def declWindows (l : List Decl) : List Window :=
  (l.filter fun d => d.kind == 1).map fun d => ⟨d.base, d.len, bit d.flags 0⟩
def declRegions (l : List Decl) : List Region :=
  (l.filter fun d => d.kind == 2).map fun d => ⟨d.base, d.len, d.aux % 8, bit d.flags 0⟩
def declQuoins (l : List Decl) : List QuoinDecl :=
  (l.filter fun d => d.kind == 3).map fun d => ⟨d.base % 4, d.aux % 1024, bit d.flags 0⟩

/-- Cores asked for over all chases. -/
def chaseTotal (img : List Byte) : Nat := (List.range 4).foldl (fun a d => a + (parseChase img d).ncores) 0

/-- An impression record at `o` of the image, its thread-start table in SCHED (R176, R177). -/
def parseImp (img : List Byte) (o : Nat) : ImpRec :=
  let t := secOff img 6 + leAt img (o + 4) 4
  ⟨leAt img o 4, leAt img (o + 8) 4, leAt img (o + 12) 2, bit (leAt img (o + 14) 1) 0, bit (leAt img (o + 14) 1) 1,
    leAt img (o + 16) 4, (List.range (8 * chaseTotal img)).map fun i => leAt img (t + 4 * i) 4⟩

def nImp (img : List Byte) : Nat := leAt img 0x1A 2
def impOffs (img : List Byte) : List Nat := (List.range (nImp img)).map fun i => secOff img 6 + 16 + 32 * i
def retryOffs (img : List Byte) : List Nat := (List.range (secLen img 8 / 32)).map fun i => secOff img 8 + 32 * i

def parseProgs (img : List Byte) : List ProgRec :=
  (List.range (secCount img 3)).map fun i =>
    let o := secOff img 3 + 16 + 16 * i
    ⟨leAt img o 1, leAt img (o + 1) 1, leAt img (o + 4) 4, leAt img (o + 8) 4, leAt img (o + 12) 4⟩

def parseGals (img : List Byte) : List GalRec :=
  (List.range (secCount img 4)).map fun i =>
    let o := secOff img 4 + 16 + 8 * i
    ⟨leAt img o 1, leAt img (o + 1) 1, leAt img (o + 2) 1, leAt img (o + 3) 1, leAt img (o + 4) 1, leAt img (o + 5) 1⟩

def parseMons (img : List Byte) : List MonRec :=
  (List.range (secCount img 0xB)).map fun i =>
    let o := secOff img 0xB + 16 + 32 * i
    ⟨leAt img o 1, leAt img (o + 1) 1, leAt img (o + 2) 2, leAt img (o + 4) 2, leAt img (o + 8) 4, leAt img (o + 16) 16⟩

/-- Mesh routes with N_HOPS kept beside the hops in use. -/
def parseMesh (img : List Byte) : List (MeshRoute × Nat) :=
  (List.range (secCount img 2)).map fun i =>
    let o := secOff img 2 + 16 + 16 * i
    let n := leAt img (o + 3) 1
    (⟨leAt img o 1, leAt img (o + 1) 1, leAt img (o + 2) 1, (List.range n).map fun j => leAt img (o + 4) 6 / 4 ^ j % 4⟩, n)

def nBridge (img : List Byte) : Nat := if hasSec img 2 then leAt img (secOff img 2 + 4) 4 else 0

def parseBridges (img : List Byte) : List BridgeRoute :=
  (List.range (nBridge img)).map fun i =>
    let o := secOff img 2 + 16 + 16 * secCount img 2 + 8 * i
    ⟨leAt img o 1, leAt img (o + 1) 1, leAt img (o + 2) 1, leAt img (o + 3) 1⟩

def nBkt (img : List Byte) : Nat := if hasSec img 7 then leAt img (secOff img 7) 2 else 0
def nSlot (img : List Byte) : Nat := if hasSec img 7 then leAt img (secOff img 7 + 4) 4 else 0
def nSegt (img : List Byte) : Nat := if hasSec img 7 then leAt img (secOff img 7 + 20) 2 else 0
def bktOff (img : List Byte) (i : Nat) : Nat := secOff img 7 + 64 + 64 * i
def slotOff (img : List Byte) (i : Nat) : Nat := secOff img 7 + 64 + 64 * nBkt img + 32 * i

def parseBucket (img : List Byte) (i : Nat) : BucketDesc :=
  let o := bktOff img i
  ⟨leAt img o 1, leAt img (o + 1) 1, leAt img (o + 2) 1, bit (leAt img (o + 3) 1) 0, bit (leAt img (o + 3) 1) 1, leAt img (o + 4) 2,
    leAt img (o + 6) 2, leAt img (o + 8) 4, leAt img (o + 12) 2, leAt img (o + 16) 4, leAt img (o + 24) 8, leAt img (o + 32) 8,
    leAt img (o + 40) 8, leAt img (o + 48) 8, leAt img (o + 56) 2, leAt img (o + 58) 2, leAt img (o + 60) 4⟩

def parseSlot (img : List Byte) (i : Nat) : SlotRec :=
  let o := slotOff img i
  ⟨leAt img o 4, leAt img (o + 4) 4, leAt img (o + 8) 2, leAt img (o + 10) 1, leAt img (o + 11) 1, leAt img (o + 12) 2,
    leAt img (o + 14) 2, leAt img (o + 16) 1⟩

def parseSlots (img : List Byte) : SlotsSec :=
  if hasSec img 7 then
    let o := secOff img 7
    let so := slotOff img (nSlot img)
    ⟨leAt img (o + 8) 8, leAt img (o + 16) 4, leAt img (o + 24) 8, leAt img (o + 32) 8, leAt img (o + 40) 8,
      (List.range (nBkt img)).map (parseBucket img), (List.range (nSlot img)).map (parseSlot img),
      (List.range (nSegt img)).map fun i => (leAt img (so + 8 * i) 4, leAt img (so + 8 * i + 4) 4)⟩
  else SlotsSec.empty

def parseKeep (img : List Byte) : List KeepRec :=
  (List.range (secCount img 9)).map fun i =>
    let o := secOff img 9 + 8 + 16 * i
    ⟨leAt img o 2, leAt img (o + 2) 1, leAt img (o + 4) 2, leAt img (o + 6) 2, leAt img (o + 8) 2⟩

def parseStreams (img : List Byte) : List StreamRec :=
  (List.range (secCount img 0xA)).map fun i =>
    let o := secOff img 0xA + 8 + 96 * i
    ⟨leAt img o 2, leAt img (o + 2) 1, leAt img (o + 3) 1, leAt img (o + 4) 1 == 1, leAt img (o + 6) 2, leAt img (o + 8) 2,
      leAt img (o + 10) 2, leAt img (o + 12) 4, leAt img (o + 16) 8, leAt img (o + 24) 4, leAt img (o + 28) 4, leAt img (o + 32) 8,
      leAt img (o + 40) 8, (List.range 3).map fun k => (leAt img (o + 48 + 8 * k) 2, leAt img (o + 50 + 8 * k) 6)⟩

/-! ### Checks 1 to 6 -/

/-- Check 1: BAD_HEADER. -/
def badHeader (img : List Byte) : Bool :=
  decide (img.length < 512) || leAt img 0 4 != 0x4D46574B || leAt img 6 2 != 512 || leAt img 0x10 4 != 0x4B081536
  || leAt img 5 1 != 1 || decide (2 ^ 30 < leAt img 8 8) || leAt img 8 8 % 64 != 0 || leAt img 8 8 != img.length
  || !zeros img 0x1D 3 || !zeros img 0x22 2 || !zeros img 0x2C 20 || !zeros img 0xE0 32
  || decide (4 ≤ leAt img 0x14 4) || nImp img == 0

/-- The image with HASH, KEY_ID and the signature taken as zero (Table 6-1). -/
def hashedImage (img : List Byte) : List Byte := img.take 0x40 ++ List.replicate 0xA0 0 ++ img.drop 0xE0

/-- Check 2: HASH_MISMATCH. -/
def badHash (img : List Byte) : Bool := sha384 (hashedImage img) != slice img 0x40 48

def isSigned (img : List Byte) : Bool := bit (leAt img 0x14 4) 0

/-- Check 4: SIGNATURE_INVALID, against the enrolled keys. -/
def badSignature (keys : List (List Byte × List Byte)) (img : List Byte) : Bool :=
  isSigned img &&
  match keys.find? fun k => k.1 == slice img 0x70 16 with
  | none => true
  | some k => !ecdsaVerify k.2 (slice img 0x40 48) (slice img 0x80 48) (slice img 0xB0 48)

/-- Ranges that pairwise do not overlap. -/
def disjoint : List (Nat × Nat) → Bool
  | [] => true
  | (a, n) :: r => r.all (fun x => decide (a + n ≤ x.1) || decide (x.1 + x.2 ≤ a) || n == 0 || x.2 == 0) && disjoint r

/-- Bytes a section needs for what its count header and records name (R173). -/
def secNeed (img : List Byte) (t : Nat) : Nat :=
  let o := secOff img t
  let offs := impOffs img ++ (if hasSec img 8 then retryOffs img else [])
  match t with
  | 1 => 256
  | 2 => 16 + 16 * leAt img o 4 + 8 * leAt img (o + 4) 4
  | 3 => (parseProgs img).foldl (fun a p => Nat.max a (p.off + 4 * p.nWords)) (16 + 16 * leAt img o 4)
  | 4 => 16 + 8 * leAt img o 4
  | 5 => 16 + 32 * leAt img o 4
  | 6 => offs.foldl (fun a r => Nat.max a (leAt img (r + 4) 4 + 32 * chaseTotal img)) (16 + 32 * nImp img)
  | 7 => 64 + 64 * nBkt img + 32 * nSlot img + 8 * nSegt img
  | 9 => 8 + 16 * leAt img o 4
  | 0xA => 8 + 96 * leAt img o 4
  | 0xB => 16 + 32 * leAt img o 4
  | _ => 0

/-- Bytes of a section's count header. -/
def secHead (t : Nat) : Nat :=
  match t with
  | 1 => 256 | 7 => 64 | 8 => 0 | 9 => 8 | 0xA => 8 | _ => 16

/-- Check 5: BAD_DIRECTORY. -/
def badDirectory (img : List Byte) : Bool :=
  let n := nSect img
  let es := (List.range n).map (dirEntry img)
  decide (n < 4) || decide (16 < n)
  || es.any (fun e => e.1 % 64 != 0 || decide (e.1 < 512) || decide (img.length < e.1 + e.2.1) || e.2.2 == 0 || decide (0xB < e.2.2))
  || (List.range n).any (fun i => !zeros img (0x10D + 16 * i) 3)
  || !zeros img (0x100 + 16 * n) (16 * (16 - n))
  || !decide (es.map (·.2.2)).Nodup || !disjoint (es.map fun e => (e.1, e.2.1))
  || !([1, 3, 5, 6].all (hasSec img))
  || es.any (fun e => decide (e.2.1 < secHead e.2.2)) || es.any (fun e => decide (e.2.1 < secNeed img e.2.2))
  || secLen img 8 % 32 != 0
  || leAt img (secOff img 6) 4 != nImp img

/-- Check 6: RESERVED_ENCODING, the fields of an empty chase that are not 0 among them; its CORE_MASK is left to check 7
(DEDUCED, assumption 32). -/
def badReserved (img : List Byte) : Bool :=
  let z := zeros img
  let recs := fun (t h n : Nat) (f : Nat → Bool) =>
    hasSec img t && (List.range (secCount img t)).any fun i => f (secOff img t + h + n * i)
  (List.range 4).any (fun d =>
    let o := secOff img 1 + 64 * d
    if leAt img o 1 = 0 then !z o 4 || !z (o + 8) 56 else !z (o + 3) 1 || !z (o + 10) 2 || !z (o + 34) 30 || decide (1 < leAt img (o + 1) 1))
  || !z (secOff img 3 + 4) 12 || !z (secOff img 5 + 4) 12 || !z (secOff img 6 + 4) 12
  || (hasSec img 4 && !z (secOff img 4 + 4) 12) || (hasSec img 0xB && !z (secOff img 0xB + 4) 12)
  || (hasSec img 2 && !z (secOff img 2 + 8) 8) || (hasSec img 9 && !z (secOff img 9 + 4) 4)
  || (hasSec img 0xA && !z (secOff img 0xA + 4) 4)
  || recs 5 16 32 (fun o =>
      let k := leAt img o 1
      let fl := leAt img (o + 1) 1
      let aux := leAt img (o + 2) 2
      !z (o + 4) 4 || !z (o + 24) 8 || k == 0 || decide (4 < k) || decide ((if k = 4 then 0 else 1) < fl)
      || (if k = 2 then decide (5 < aux) else if k = 3 then decide (1023 < aux) else aux != 0)
      || (k == 3 && (decide (3 < leAt img (o + 8) 8) || leAt img (o + 16) 8 != 0)) || (k == 4 && leAt img (o + 8) 8 != 0))
  || (impOffs img ++ retryOffs img).any (fun o =>
      !z (o + 15) 1 || !z (o + 20) 12 || decide (3 < leAt img (o + 14) 1)
      || (!bit (leAt img (o + 14) 1) 1 && leAt img (o + 16) 4 != 0))
  || recs 3 16 16 (fun o => !z (o + 2) 2 || decide (3 < leAt img o 1))
  || recs 4 16 8 (fun o => !z (o + 6) 2 || decide (3 < leAt img o 1))
  || recs 2 16 16 (fun o => !z (o + 10) 6 || decide (3 < leAt img o 1)
      || (decide (leAt img (o + 3) 1 ≤ 24) && leAt img (o + 4) 6 / 4 ^ leAt img (o + 3) 1 != 0))
  || (List.range (nBridge img)).any (fun i =>
      let o := secOff img 2 + 16 + 16 * secCount img 2 + 8 * i
      !z (o + 4) 4 || !(leAt img o 1 == 1 || leAt img o 1 == 2))
  || recs 0xB 16 32 (fun o => !z (o + 6) 2 || !z (o + 12) 4 || decide (3 < leAt img o 1) || decide (1023 < leAt img (o + 4) 2)
      || decide (2 ^ 19 ≤ leAt img (o + 8) 4))
  || recs 9 8 16 (fun o => !z (o + 3) 1 || !z (o + 10) 6 || decide (1 < leAt img (o + 2) 1)
      || (leAt img (o + 2) 1 == 0 && leAt img (o + 8) 2 != 0))
  || recs 0xA 8 96 (fun o => !z (o + 5) 1 || !z (o + 72) 24 || decide (3 < leAt img (o + 2) 1) || decide (1 < leAt img (o + 4) 1)
      || decide (1023 < leAt img (o + 10) 2))
  || (hasSec img 7 &&
      (!z (secOff img 7 + 2) 2 || !z (secOff img 7 + 22) 2 || !z (secOff img 7 + 48) 16
       || (List.range (nBkt img)).any (fun i =>
          let o := bktOff img i
          !z (o + 14) 2 || !z (o + 20) 4 || leAt img o 1 == 0 || decide (3 < leAt img o 1) || decide (2 < leAt img (o + 1) 1)
          || decide (3 < leAt img (o + 3) 1) || decide (1023 < leAt img (o + 56) 2) || decide (1023 < leAt img (o + 58) 2))
       || (List.range (nSlot img)).any (fun i =>
          let o := slotOff img i
          !z (o + 17) 15 || decide (1 < leAt img (o + 10) 1) || decide (1 < leAt img (o + 11) 1))))

/-! ### Checks 7 to 26 -/

/-- The cores of die `d` present and in service (R449), lowest first. -/
def State.coresOf (s : State) (d : Nat) : List Nat :=
  if bit (s.fget F.MGT_CAP_SUM_CD_PRESENT) d then
    (List.range 32).filter fun c => bit (s.fget (F.MGT_CAP_CORE_CORES d)) c
  else []

/-- The cores a chase record takes, or none where check 7 fails (R174). -/
def State.chaseCores (s : State) (d : Nat) (r : ChaseRec) : Option (List Nat) :=
  let pres := s.coresOf d
  if 32 < r.ncores then none
  else if r.place = 1 then
    let l := (List.range 32).filter fun c => bit r.mask c
    if l.length = r.ncores ∧ l.all pres.contains = true then some l else none
  else if r.mask ≠ 0 ∨ pres.length < r.ncores then none
  else some (pres.take r.ncores)

/-- The way owners of die `d` (DC_WAYLOCK): context, or 15 for shared. -/
def State.wayOwner (s : State) (d k : Nat) : Nat := s.fget (F.DC_WAYLOCK_WAY_OWNER d (k / 8) (k % 8))
def State.lockedTo (s : State) (d : Nat) (p : Nat → Bool) : Nat :=
  ((List.range 24).filter fun k => s.wayOwner d k != 15 && p (s.wayOwner d k)).length

/-- Check 9: CHASE_LAYOUT. -/
def badLayout (img : List Byte) : Bool :=
  let ch := parseChase img
  let progs := parseProgs img
  (List.range 4).any (fun d =>
    let r := ch d
    r.ncores != 0 && (r.lsProg % 64 != 0 || r.lsDesc % 64 != 0 || r.lsBuf % 64 != 0 || r.lsSave % 64 != 0
      || decide (0x400000 < r.lsLen) || decide (0x40000 < r.ocLen)))
  || progs.any (fun p => decide ((ch p.die).ncores ≤ p.slot) || p.nWords == 0 || p.lsOff % 4 != 0 || p.off % 4 != 0
      || decide ((ch p.die).lsProg < p.lsOff + 4 * p.nWords) || decide (secLen img 3 < p.off + 4 * p.nWords))
  || !decide (progs.map fun p => (p.die, p.slot)).Nodup
  || progs.length != chaseTotal img
  || (impOffs img ++ retryOffs img).any (fun o =>
      let st := (parseImp img o).starts
      let lims := ((List.range 4).map fun d => List.replicate (8 * (ch d).ncores) (ch d).lsProg).flatten
      (st.zip lims).any fun p => p.1 != 0xFFFFFFFF && decide (p.2 ≤ p.1))

/-- The core reached by hops over a 4 × 8 mesh, or none where it leaves it (R206). -/
def walk : List Nat → Nat → Option Nat
  | [], c => some c
  | h :: r, c =>
    let row := c / 8
    let col := c % 8
    if h = 0 then (if row = 0 then none else walk r (c - 8))
    else if h = 1 then (if col = 7 then none else walk r (c + 1))
    else if h = 2 then (if row = 3 then none else walk r (c + 8))
    else (if col = 0 then none else walk r (c - 1))

/-- Check 10: ROUTE_INVALID. -/
def State.badRoutes (s : State) (img : List Byte) (cores : List (List Nat)) : Bool :=
  let mesh := parseMesh img
  let br := parseBridges img
  mesh.any (fun p =>
    let r := p.1
    let mine := cores.getD r.die []
    (parseChase img r.die).place != 1 || !mine.contains r.src || !mine.contains r.dst || r.src == r.dst
    || p.2 == 0 || decide (24 < p.2) || walk r.hops r.src != some r.dst)
  || !decide (mesh.map fun p => (p.1.die, p.1.src, p.1.dst)).Nodup
  || br.any (fun r =>
    !bit (s.fget F.MGT_CAP_SUM_CD_PRESENT) r.via || decide (3 < r.via)
    || (if r.kind = 1 then
          !(decide (r.src ≤ 3) && decide (r.dst ≤ 3) && r.dst == (r.src + 2) % 4 && r.via % 2 != r.src % 2
            && s.bridgeUp r.src r.via && s.bridgeUp r.via r.dst)
        else
          !(((r.src == 4 && r.dst == 5) || (r.src == 5 && r.dst == 4)) && s.bridgeUp r.via 4 && s.bridgeUp r.via 5)))
  || !decide (br.map fun r => (r.kind, r.src, r.dst)).Nodup

/-- Check 11: GALLEY_INVALID. -/
def badGalleys (img : List Byte) : Bool :=
  let g := parseGals img
  let bad := fun d : Nat => d == 0 || decide (64 < d)
  g.any (fun r => decide ((parseChase img r.die).ncores ≤ r.slot) || bad r.xm || bad r.xv || bad r.mv || bad r.vx)
  || !decide (g.map fun r => (r.die, r.slot)).Nodup

/-- The areas a forme holds (R179). -/
def Forme.areas (f : Forme) : List Area := f.save ++ [f.header, f.land, f.area]

def overlaps (a n b m : Nat) : Bool := decide (a < b + m) && decide (b < a + n)

/-- The formes of other contexts. -/
def State.otherFormes (s : State) (c : Nat) : List Forme := (s.formes.filter fun p => p.1 != c).map (·.2)

/-- Check 12: WINDOW_INVALID. -/
def badWindows (w : List Window) : Bool :=
  decide (16 < w.length) || w.any fun x =>
    x.base % 65536 != 0 || x.len % 65536 != 0 || x.len == 0
    || !(decide (x.base + x.len ≤ 0x18000000000) || (decide (lpxBase ≤ x.base) && decide (x.base + x.len ≤ 0x20E000000000)))

/-- Check 13: WINDOW_CONFLICT. -/
def windowConflict (w : List Window) (others : List Forme) : Bool :=
  w.any fun x => others.any fun f =>
    f.windows.any (fun y => overlaps x.base x.len y.base y.len && (x.write || y.write))
    || f.areas.any fun a => overlaps x.base x.len a.base a.len

/-- Check 14: REGION_INVALID. -/
def badRegions (l : List Decl) : Bool :=
  let rs := declRegions l
  let ws := declWindows l
  let lands := l.filter fun d => d.kind == 4
  rs.any (fun r => !ws.any fun w => decide (w.base ≤ r.base) && decide (r.base + r.len ≤ w.base + w.len))
  || !disjoint (rs.map fun r => (r.base, r.len))
  || decide (1 < lands.length) || lands.any (fun d => d.len % 65536 != 0)

/-- The lowest 64 KiB-aligned start at or above `pos` of a range of `n` bytes below `hi` that meets none of `occ`
(R179); each occupied range is passed at most once. -/
def placeFrom (hi n : Nat) (occ : List (Nat × Nat)) : Nat → Nat → Option Nat
  | 0, _ => none
  | k + 1, pos =>
    if hi < pos + n then none
    else match occ.find? fun x => overlaps pos n x.1 x.2 with
      | none => some pos
      | some x => placeFrom hi n occ k (alignUp (x.1 + x.2) 65536)

/-- An area of `n` bytes in the in-service HBM of die `d`. -/
def State.placeArea (s : State) (occ : List (Nat × Nat)) (d n : Nat) : Option Area :=
  if bit (s.fget F.MGT_CAP_SUM_CD_PRESENT) d then
    (placeFrom (d * hbmDie + (s.stacks d).length * 0x2000000000) n occ (occ.length + 1) (d * hbmDie)).map fun b => ⟨b, n⟩
  else none

/-- R179: the save parts, the context header, the landing buffer and the forme area, in this order. -/
def State.placeAll (s : State) (img : List Byte) (land : Nat) (occ : List (Nat × Nat)) :
    Option (List Area × Area × Area × Area) :=
  let dies := (List.range 4).filter fun d => (parseChase img d).ncores != 0
  let save := dies.foldl (fun (a : Option (List Area × List (Nat × Nat))) d =>
    match a with
    | none => none
    | some (l, occ) =>
      (s.placeArea occ d ((parseChase img d).ncores * 0x500000)).map fun x => (l ++ [x], (x.base, x.len) :: occ))
    (some ([], occ))
  let hd := dies.headD 0
  match save with
  | none => none
  | some (sv, occ) =>
    match s.placeArea occ hd 65536 with
    | none => none
    | some h =>
      let occ := (h.base, h.len) :: occ
      match (if land = 0 then some ⟨0, 0⟩ else s.placeArea occ hd land) with
      | none => none
      | some l =>
        let occ := (l.base, l.len) :: occ
        match (List.range 4).findSome? fun d => s.placeArea occ d (alignUp img.length 65536) with
        | none => none
        | some a => some (sv, h, l, a)

/-- Check 15's occupied ranges: the windows and areas of others, and the forme's own windows. -/
def takenRanges (w : List Window) (others : List Forme) : List (Nat × Nat) :=
  (w.map fun x => (x.base, x.len))
    ++ (others.map fun f => (f.windows.map fun x => (x.base, x.len)) ++ f.areas.map fun a => (a.base, a.len)).flatten

/-- Whether a window lies on memory in service throughout: it may run over dies that meet. -/
def State.windowServed (s : State) : Nat → Nat → Nat → Bool
  | 0, _, n => n == 0
  | k + 1, a, n =>
    if n = 0 then true
    else
      let room := match place a with
        | .hbm _ => hbmDie - a % hbmDie
        | .lpx _ => lpxEdge - (a - lpxBase) % lpxEdge
        | _ => 0
      let m := Nat.min n room
      s.inService a m && s.windowServed k (a + m) (n - m)

/-- Check 16: QUOIN_CONFLICT. -/
def badQuoins (q : List QuoinDecl) (others : List Forme) : Bool :=
  q.any (fun x => decide (x.num < 512) || others.any fun f => f.quoins.any fun y => x.die == y.die && x.num == y.num)
  || !decide (q.map fun x => (x.die, x.num)).Nodup

/-- Check 17: MONITOR_CONFLICT. -/
def badMonitors (m : List MonRec) (q : List QuoinDecl) (cores : List Nat) (others : List Forme) : Bool :=
  m.any (fun r =>
    decide (63 < r.entry) || r.prod == 0 || decide (128 < r.prod)
    || others.any (fun f => f.mons.any fun y => y.die == r.die && y.entry == r.entry)
    || !(q.any fun x => x.die == r.die && x.num == r.vq)
    || (maskOf r.cmask).any fun g => !cores.contains g)
  || !decide (m.map fun r => (r.die, r.entry)).Nodup
where
  maskOf (mask : Nat) : List Nat := (List.range 128).filter fun g => bit mask g

/-- T_RAMP (R180). -/
def tRamp : Nat := 14000

/-- R180 for one length, in ns. -/
def wclOk (period cut wcl : Nat) : Bool := decide (wcl + tRamp + 1000 * cut ≤ 1000 * period)

/-- R193: whether a period and a cutoff suit a forme: its period range, and R180 for each impression and retry path. -/
def Forme.fits (f : Forme) (period cut : Nat) : Bool :=
  decide (f.periodMin ≤ period ∧ period ≤ f.periodMax) && (f.imps ++ f.retries).all fun r => wclOk period cut r.wcl

/-- Check 20: SLOT_INVALID (R277, R271, R420). -/
def State.badSlots (s : State) (img : List Byte) (decls : List Decl) (imps : List ImpRec) (training : Bool) : Bool :=
  let sl := parseSlots img
  let ws := declWindows decls
  let wr := (declRegions decls).filter fun r => ws.any fun w => w.write && decide (w.base ≤ r.base) &&
    decide (r.base + r.len ≤ w.base + w.len)
  let inside := fun a n : Nat => wr.any fun r => decide (r.base ≤ a) && decide (a + n ≤ r.base + r.len)
  let lasts := sl.buckets.filter (·.last)
  let named := fun v : Nat => !sl.buckets.isEmpty || v != 0
  let active := fun p : Nat => s.fget (F.FAB_PORT_STAT_STATE (p / 24) (p % 24)) == 2
  let tiles := fun (b : BucketDesc) =>
    (List.range (if b.kind = 3 then 1 else sl.segs.length - b.segBase)).any fun k =>
      let es := (sl.segs.drop b.segBase).take (k + 1)
      es.length == k + 1 && (es.foldl (fun (a : Nat × Bool) e => (a.1 + e.2, a.2 && e.1 == a.1)) (0, true)) == (b.nblk, true)
  (s.fget F.MGT_CAP_SUM_STANDALONE == 1 && !sl.slots.isEmpty)
  || imps.any (fun r => decide (r.slotCnt ≠ 0 ∧ sl.slots.length < r.slotFirst + r.slotCnt)
      || ((sl.slots.drop r.slotFirst).take r.slotCnt).any fun x => decide (r.wcl < x.start + x.len))
  || sl.slots.any (fun x => decide (sl.buckets.length ≤ x.bucket) || decide (47 < x.port) || !active x.port)
  || (training && lasts.length != 1) || lasts.any (fun b => b.kind == 3)
  || decide (4096 < sl.buckets.length) || decide (4096 < sl.segs.length) || sl.segs.any (fun e => decide (65536 < e.2))
  || sl.buckets.any (fun b => b.nblk == 0 || decide (2 ^ 20 < b.nblk) || decide (b.frames < 2) || decide (64 < b.frames)
      || decide (3 < b.rdx) || decide (4095 < b.segBase) || b.gather % 2048 != 0
      || (!sl.segs.isEmpty && !tiles b)
      || !inside b.src (256 * b.nblk) || !inside b.out (256 * b.nblk) || !inside b.expt b.nblk || !inside b.gather 2048)
  || (named sl.stageLen && (sl.stageBase % 2048 != 0 || !inside sl.stageBase (2048 * sl.stageLen)))
  || (named sl.verdict && !inside sl.verdict 64) || (named sl.slack && !inside sl.slack 2)
  || (!sl.buckets.isEmpty && !inside sl.stats (32 * sl.buckets.length))

/-- Check 22: KEEP_INVALID (R319). -/
def badKeep (k : List KeepRec) (n : Nat) (decls : List Decl) : Bool :=
  k.any fun r => decide (n ≤ r.prod) || decide (n ≤ r.use) || ((decls[r.region]?).map (·.kind)) != some 2
    || decide (r.use ≤ r.prod) || (r.mode == 1 && (decide (n ≤ r.recomp) || decide (r.recomp ≤ r.prod) || decide (r.use ≤ r.recomp)))

/-- The fabric data rate of `n` active ports, in 10^6 bytes per second times 280 (R29). -/
def fabricRate280 (n : Nat) : Nat := n * 256000 * 256

/-- Check 23: STREAM_MARGIN (R182, R324). -/
def State.badStreams (s : State) (st : List StreamRec) (imps : List ImpRec) (nimp : Nat) : Bool :=
  let ports := s.fget F.MGT_CAP_SUM_ACTIVE_PORTS
  st.any (fun w =>
    decide (nimp ≤ w.imp) || decide (((imps[w.imp]?).map (·.wcl)).getD 0 < w.deadline)
    || (w.relay && w.feed == 0xFFFF) || (!w.relay && w.src == 0)
    || w.dst % 64 != 0 || w.bytes % 64 != 0 || w.src % 64 != 0
    || decide (w.bw * w.tComp < 1000 * w.bytes))
  || (List.range nimp).any (fun i =>
    let here := st.filter fun w => w.imp == i
    let lpx : Nat := (here.filter fun (w : StreamRec) => !w.relay && decide (lpxBase ≤ w.src) && decide (w.src < 0x20E000000000)).foldl (fun a (w : StreamRec) => a + w.bw) (0 : Nat)
    let fab := (here.filter (·.relay)).foldl (fun a (w : StreamRec) => a + w.bw) (0 : Nat)
    decide (1365000 < lpx) || decide (fabricRate280 ports < 280 * fab))

/-- R181: the sum over all cores of the largest per-core floor power, in watts, over the denominator `den`. -/
def floorSum (fs : List (List ChaseRec × List (List Nat))) (den : Nat) : Nat :=
  (List.range 128).foldl (fun a g =>
    a + (fs.foldl (fun m f =>
      let r := f.1.getD (g / 32) ChaseRec.empty
      if (f.2.getD (g / 32) []).contains (g % 32) then Nat.max m (r.floorW * (den / r.ncores)) else m) 0)) 0

/-- A common multiple of 1 … 32. -/
def coreDen : Nat := 144403552893600

/-- The proof pass over context `c`'s image: the refusal code, or the proven forme (R178). The context's state is the
last check. -/
def State.proofPass (s : State) (c : Nat) (img : List Byte) : Nat × Option Forme :=
  if badHeader img then (0x01, none)
  else if badHash img then (0x02, none)
  else if s.fget F.SEC_FKEY_STAT_REQUIRE_SIGNED = 1 ∧ isSigned img = false then (0x03, none)
  else if badSignature s.formeKeys img then (0x04, none)
  else if badDirectory img then (0x05, none)
  else if badReserved img then (0x06, none)
  else
    let ch := (List.range 4).map (parseChase img)
    let got := (List.range 4).map fun d => s.chaseCores d (ch.getD d ChaseRec.empty)
    if got.any Option.isNone then (0x10, none)
    else
      let cores := got.map fun o => o.getD []
      let decls := parseDecls img
      let ws := declWindows decls
      let others := s.otherFormes c
      let imps := (impOffs img).map (parseImp img)
      let retries := (retryOffs img).map (parseImp img)
      let period := s.fget F.TCK_PERIOD_PERIOD_US
      let cut := s.fget F.TCK_PERIOD_SLIP_CUT
      let training := bit (leAt img 0x14 4) 1
      let land := (((decls.find? fun d => d.kind == 4).map (·.len)).getD 0x400000)
      let coreList := ((List.range 4).map fun d => (cores.getD d []).map fun k => 32 * d + k).flatten
      if (List.range 4).any (fun d => decide (20 < (ch.getD d ChaseRec.empty).ways + s.lockedTo d (· != c))) then (0x11, none)
      else if badLayout img then (0x12, none)
      else if s.badRoutes img cores then (0x13, none)
      else if badGalleys img then (0x14, none)
      else if badWindows ws then (0x20, none)
      else if windowConflict ws others then (0x21, none)
      else if badRegions decls then (0x22, none)
      else if ws.any (fun w => !s.windowServed 8 w.base w.len) then (0x23, none)
      else match s.placeAll img land (takenRanges ws others) with
        | none => (0x23, none)
        | some (save, hdr, lnd, area) =>
          if badQuoins (declQuoins decls) others then (0x24, none)
          else if badMonitors (parseMons img) (declQuoins decls) coreList others then (0x25, none)
          else if period < leAt img 0x24 2 ∨ leAt img 0x26 2 < period then (0x30, none)
          else if (imps ++ retries).any (fun r => !wclOk period cut r.wcl || decide (leAt img 0x28 4 < r.wcl)) then (0x31, none)
          else if s.badSlots img decls (imps ++ retries) training then (0x32, none)
          else if imps.any (fun r => (r.verdict && !r.hasRetry) || (r.hasRetry && decide (retries.length ≤ r.retryIdx)))
              ∨ 65535 < nImp img + leAt img 0x1C 1 then (0x33, none)
          else if badKeep (parseKeep img) (nImp img) decls then (0x34, none)
          else if s.badStreams (parseStreams img) imps (nImp img) then (0x35, none)
          else
            let mhz := leAt img 0x20 2
            if mhz < 1000 ∨ 3000 < mhz ∨ mhz % 25 ≠ 0 ∨ (List.range 4).any (fun d =>
                (ch.getD d ChaseRec.empty).ncores != 0 && decide (s.fget (F.MGT_CAP_DIE_MAX_MHZ d) < mhz)) then (0x40, none)
            else
              let fs := (ch, cores) :: others.map fun f => (f.chase, f.cores)
              if s.capInForce * coreDen < floorSum fs coreDen + 1200 * coreDen then (0x41, none)
              else
                let st := s.ctxState c
                if !(st = ctxFree ∨ st = ctxLoaded ∨ st = ctxIdle ∨ (st = ctxSaved ∧ s.fget (F.CTX_STAT_IMAGE c) = 0)) then
                  (0x50, none)
                else (0, some {
                  imgLen := img.length
                  training := training
                  hash := slice img 0x40 48
                  nImp := nImp img
                  retryRsv := leAt img 0x1C 1
                  floorMhz := mhz
                  periodMin := leAt img 0x24 2
                  periodMax := leAt img 0x26 2
                  maxWcl := leAt img 0x28 4
                  chase := ch
                  cores := cores
                  windows := ws
                  regions := declRegions decls
                  quoins := declQuoins decls
                  landing := land
                  imps := imps
                  retries := retries
                  progs := (parseProgs img).map fun p => { p with off := secOff img 3 + p.off }
                  gals := parseGals img
                  mons := parseMons img
                  mesh := (parseMesh img).map (·.1)
                  bridges := parseBridges img
                  slots := parseSlots img
                  keep := parseKeep img
                  streams := parseStreams img
                  save := save
                  header := hdr
                  land := lnd
                  area := area })

end Sys2Proof.Machine
end

