-- ==== Sys2Proof/Machine/Rdx.lean ====
section
/-!
DEFINITION. The commands of the collectives (R265 to R302), weight streams (R322, R323), impositions at a boundary
(R312 to R314), the gate (R339), fingerprint repair (R333) and recovery orders (R349 to R351).
-/

namespace Sys2Proof.Machine

/-- R265: bucket `b` starts. -/
def execBucketStart (c : CtxId) (b : Fin 4096) (s : State) : Host.Outcome State Fault Refusal :=
  .next (s.bucketStart c b).flush

/-- R276: one reduce-phase operation of bucket `b` in direction `dir`. -/
def execReduceOperation (c : CtxId) (b : Fin 4096) (dir : Fin 2) (s : State) : Host.Outcome State Fault Refusal :=
  .next (s.reduceOperation c b dir).flush

/-- R287: one gather unit. -/
def execGatherHop (c : CtxId) (b : Fin 4096) (dir : Fin 2) (s : State) : Host.Outcome State Fault Refusal :=
  .next (s.gatherHop c b dir).flush

/-- R291: a bucket without progress for the peer timeout. -/
def execBucketStall (c : CtxId) (b : Fin 4096) (s : State) : Host.Outcome State Fault Refusal :=
  .next (s.bucketStall c b).flush

/-- R298: the drain of the old epoch ends. -/
def execEpochDrained (c : CtxId) (s : State) : Host.Outcome State Fault Refusal := .next (s.epochDrained c).flush

/-- Whether the context is at a step boundary outside a tick (R312). -/
def State.atBoundary (s : State) (c : Nat) : Bool :=
  let v := s.ctxState c
  !(s.ctx c).pos.inStep && (v == ctxIdle || (v == ctxSaved && s.fget (F.CTX_STAT_IMAGE c) == 0) || v == ctxRunning)

/-- R312, R314: a pending imposition that is due at the boundary takes effect. -/
def execImpositionTakesEffect (c : CtxId) (s : State) : Host.Outcome State Fault Refusal :=
  .next (if s.atBoundary c then (s.impositionDue c).flush else s)

/-- R323: DEADLINE_NS of a stream has passed with a unit missing. -/
def State.streamDeadline (s : State) (c i : Nat) : State :=
  match (s.ctx c).streams.find? fun x => x.idx == i, s.streamRec c i with
  | some x, some r =>
    if 1000 * x.startedAt + r.deadline ≤ 1000 * s.timeUs ∧ x.late = false ∧ x.complete r = false ∧ s.ctxState c = ctxRunning then
      (s.pullMissing c i).flush
    else s
  | _, _ => s

/-- R323: the deadline of weight stream record `i`. -/
def execStreamDeadline (c : CtxId) (i : Fin 4096) (s : State) : Host.Outcome State Fault Refusal := .next (s.streamDeadline c i)

/-- R339: the held LAST bucket of context `c` starts its first operation once its tasks are complete. -/
def State.gateRelease (s : State) (c : Nat) : State :=
  if s.fget (F.RES_STAT_GATE_WAIT c) = 0 then s
  else match (s.slotsSec c).buckets.findIdx? fun d => d.last with
    | none => s
    | some b =>
      match s.bucket? c b (s.curEpoch c) with
      | none => s
      | some k =>
        if s.gateOpen c k.step = false then s
        else
          let t := s.reduceOperation c b 0
          if (t.coll c).lastStarted then t.flush else (s.reduceOperation c b 1).flush

def execGateRelease (c : CtxId) (s : State) : Host.Outcome State Fault Refusal := .next (s.gateRelease c)

/-- R333: every extent of a repair has been pulled. -/
def State.fpRepaired (s : State) (c : Nat) : State :=
  match (s.coll c).repair with
  | some ⟨_, []⟩ =>
    ((s.modColl c fun k => { k with repair := none }).fadd (F.RES_CNT_FP_REPAIR c) 1).raise 0x0806 (some c) 0 []
  | _ => s

def execFpRepaired (c : CtxId) (s : State) : Host.Outcome State Fault Refusal := .next (s.fpRepaired c)

/-! ### RECOVER (R349 to R351) -/

/-- R349: an order that is turned away at once. -/
def State.orderRefused (s : State) (c addr status : Nat) : State :=
  let keep := (s.coll c).order
  (s.orderDone c addr status 0 0).modColl c fun k => { k with order := keep }

/-- R351: the first source of an order that may serve. -/
def State.orderSource (s : State) (c : Nat) (o : Order) (l : List Byte) (i : Imposition) : State :=
  let own : Bool := o.rank == 0xFFFF || o.rank == i.self
  let fuel := orderFuel l
  if bit o.srcs 0 ∧ own = true ∧ o.wasLive = true ∧ s.fget (F.RES_LIVE_GEN_LIVE_GEN c) = o.gen then
    s.setOrder c { o with source := 1, want := o.gen, result := some 0 }
  else
    let s := s.fset (F.RES_STAT_LIVE_VALID c) 0
    if bit o.srcs 1 ∧ tBuddy l ≠ 0xFFFF then
      let o := { o with source := 2 }
      let a := tMirrorOut l + o.gen % 2 * (64 + tSize l)
      let (s, r) := (s.setOrder c o).pull c partBuddyHead (i.ranks.getD (tBuddy l) 0) a a 64
      match r with
      | none => s
      | some b => s.pushOrder c o partBuddyHead b fuel
    else s.pushOrder c { o with source := 2 } partBuddyHead none fuel

/-- R349, R350: an order at `addr` is checked and begins. -/
def State.recoverGo (s : State) (c addr : Nat) : State :=
  let v := s.ctxState c
  let inW := match (s.ctx c).forme with | some f => f.inRegionW addr 64 | none => false
  let ready : Bool := v == ctxIdle || (v == ctxSaved && s.fget (F.CTX_STAT_IMAGE c) == 0)
  if ready = false ∨ (s.coll c).order ≠ none ∨ inW = false then s.orderRefused c addr 3
  else
    let (s, ok) := s.checkRead addr 64 (some c)
    let b := s.bytes addr 64
    if ok = false ∨ leAt b 0 1 ≠ 1 ∨ 8 ≤ leAt b 1 1 ∨ (slice b 8 24 ++ slice b 40 24).any (· != 0) then s.orderRefused c addr 3
    else
      let s := (s.latch c).readTable c
      let l := (s.coll c).table
      match (s.coll c).imp with
      | none => s.orderRefused c addr 4
      | some i =>
        if l.isEmpty then s.orderRefused c addr 4
        else
          let o : Order := ⟨addr, leAt b 1 1, leAt b 2 2, leAt b 4 4, s.fget (F.RES_STAT_LIVE_VALID c) == 1, 0, false, 0,
            .empty, .empty, [], none⟩
          (s.fset (F.RES_STAT_ORDER c) 1).orderSource c o l i

/-- R349: a write of `w` to RES_ORDER_HI; GO orders a recovery. -/
def execRecover (c : CtxId) (w : Word) (s : State) : Host.Outcome State Fault Refusal :=
  let s := s.fset (F.RES_ORDER_HI_ADDR_HI c) w.toNat
  .next (if bit w.toNat 31 then
    (s.recoverGo c (s.fget (F.RES_ORDER_LO_ADDR_LO c) + 2 ^ 32 * s.fget (F.RES_ORDER_HI_ADDR_HI c))).flush
  else s)

/-- R351: an order whose outcome is known completes: its result fields, its registers and its event. -/
def State.recoverDone (s : State) (c : Nat) : State :=
  match (s.coll c).order with
  | none => s
  | some o =>
    match o.result with
    | none => s
    | some st =>
      let ok : Bool := st == 0 || st == 2
      s.orderDone c o.addr st (if ok then o.source else 0) (if ok then o.want else 0)

def execRecoverDone (c : CtxId) (s : State) : Host.Outcome State Fault Refusal := .next (s.recoverDone c)

/-- R338: the outbox of a parity capture has been written, and its fragments are sent. -/
def State.parityRead (s : State) (c : Nat) : State :=
  match if s.ctxState c = ctxMigrating then none else (s.coll c).tasks.find? fun t => t.kind == .parityRead with
  | none => s
  | some t => (s.parityReadDone c t).flush

def execParityReadDone (c : CtxId) (s : State) : Host.Outcome State Fault Refusal := .next (s.parityRead c)

end Sys2Proof.Machine
end

