-- ==== Sys2Proof/Machine/Context.lean ====
section
/-!
DEFINITION. The commands of a context (R209 to R213, R229 to R231, R311, R393, R394), its proof pass (R178), and the ends
of its saves, restores, migrations and teardowns (R222 to R230).
-/

/-- What a context header holds (R222, R229, R266), whose layout is internal; none where it is no migration's. -/
opaque Sys2Proof.Config.migrantOf : List (BitVec 8) → Option Sys2Proof.Machine.Migrant

namespace Sys2Proof.Machine

/-! ### Before a command acts (R26, R209, R210) -/

/-- The transient states in which a command other than TEARDOWN and QUERY is held (R210). -/
def transientState (v : Nat) : Bool := v == ctxSaving || v == ctxRestoring || v == ctxMigrating || v == ctxTearing

/-- Table 7-2: whether `opc` is accepted in state `v`; `image` says that the save area holds a core image. -/
def acceptedIn (opc v : Nat) (image : Bool) : Bool :=
  match opc with
  | 1 => v == ctxFree || v == ctxLoaded || v == ctxIdle || (v == ctxSaved && !image)
  | 2 => v == ctxLoaded
  | 3 => v == ctxIdle || v == ctxRunning
  | 4 => v == ctxRunning
  | 5 => v == ctxRunning
  | 6 => v == ctxSaved
  | 7 => v == ctxSaved
  | 8 => v != ctxFree
  | 9 => v == ctxIdle || v == ctxRunning || v == ctxSaved
  | _ => true

/-- R26: whether a command changes which contexts hold cores, memory or power. -/
def changesHolders (opc v : Nat) : Bool := opc != 10 && !(opc == 3 && v != ctxIdle)

/-- R26: a command is held while the management plane is down, also one that waited for cores and has taken none. -/
def State.holdCmd (s : State) (c r : Nat) (k : Cmd) : State :=
  let s := if k.stage = .waitCores then s.modCtx c fun x => { x with launch := none } else s
  (s.modRing c r fun g => { g with cur := some { k with stage := .heldMgmt } }).fadd F.MGT_PLANE_STAT_HELD_CMDS 1

/-- R26: the commands that wait for cores are held as the management plane is declared down. -/
def State.holdWaiting (s : State) : State :=
  (List.range 8).foldl (fun s c => (List.range 4).foldl (fun s r => match (s.ring c r).cur with
    | some k => if k.stage = .waitCores ∧ transientState (s.ctxState c) = false then s.holdCmd c r k else s
    | none => s) s) s

/-- A command of ring `r` with OPC `opc` acts by `eff`, is held (R26, R210) or is turned away (R209). A command that the plane
took before it was declared down goes on, but for one that still waits for cores (DEDUCED, assumption 71). -/
def State.cmdRow (s : State) (c r opc : Nat) (eff : State → Cmd → State) : State :=
  match (s.ring c r).cur with
  | none => s
  | some k =>
    let v := s.ctxState c
    if k.opc ≠ opc ∨ (k.stage ≠ .taken ∧ k.stage ≠ .heldTransient ∧ k.stage ≠ .waitCores)
        ∨ (k.stage = .waitCores ∧ transientState v = true) then s
    else if s.fget F.MGT_PLANE_STAT_MGMT_DOWN = 1 ∧ changesHolders opc v = true then s.holdCmd c r k
    else if transientState v ∧ opc ≠ 8 ∧ opc ≠ 10 then
      s.modRing c r fun g => { g with cur := some { k with stage := .heldTransient } }
    else if acceptedIn opc v (s.fget (F.CTX_STAT_IMAGE c) == 1) = false then s.complete c r stBadState 0 0
    else eff s k

/-- The command in hand of ring `r` is under way. -/
def State.begun (s : State) (c r : Nat) : State := s.setStage c r .active

/-- An operand field of a command (Table 13-6): `n` bytes at `o`. -/
def Cmd.arg (k : Cmd) (o n : Nat) : Nat := leAt k.body o n

/-! ### Steps left -/

/-- Steps that RUN_STEPS counts still supply, and the step in progress. -/
def State.stepsLeft (s : State) (c : Nat) : Nat :=
  (((s.ctx c).counts.map (·.left)).sum) + b2n (s.ctx c).pos.inStep

def State.showSteps (s : State) (c : Nat) : State := s.fset (F.CTX_STAT_STEPS_LEFT c) (Nat.min 0xFFFF (s.stepsLeft c))

/-! ### LOAD_FORME and its proof pass -/

def State.nextLoadSeq (s : State) : Nat :=
  (List.range 8).foldl (fun m c => match (s.ctx c).loading with | some l => Nat.max m (l.seq + 1) | none => m) 0

def State.loadForme (s : State) (c r : Nat) : State :=
  s.cmdRow c r 1 fun s k =>
    if (s.ctx c).loading ≠ none then s
    else match (s.ctx c).crQp.bind s.qp? with
      | none => s.complete c r stFetchFailed 0 0
      | some q =>
        if q.err then s.complete c r stFetchFailed 0 0
        else
          let n := k.arg 20 8
          let s := (s.begun c r).modCtx c fun x => { x with loading := some ⟨r, [], n, n == 0, s.nextLoadSeq⟩ }
          if n = 0 then s else s.postReq q true (k.arg 8 8) (k.arg 16 4) n [] (.image c r)

/-- LOAD_FORME (R209, R393): the image is read over the command queue pair. -/
def execLoadForme (c : CtxId) (r : RingId) (s : State) : Host.Outcome State Fault Refusal := .next (s.loadForme c r)

/-- R149: the ways of a forme's chases are locked to its context. -/
def State.lockForme (s : State) (c : Nat) (f : Forme) : State :=
  (List.range 4).foldl (fun s d => s.lockWays c d (f.chaseOf d).ways) s

/-- R179, R309: a proven forme replaces the old one; an admitted context's ways and implicit imposition follow it. -/
def State.installForme (s : State) (c : Nat) (f : Forme) (img : List Byte) : State :=
  let admitted : Bool := s.ctxState c != ctxFree && s.ctxState c != ctxLoaded
  let s := (s.memWrite f.area.base img none).1
  let s := s.modCtx c fun x => { x with forme := some f, unfit := false, migIn := false }
  if admitted then
    let s := (s.unlockWays c).lockForme c f
    match (s.coll c).imp with
    | some i => match i.hash with
      | none => s.modColl c fun k => { k with imp := some (s.implicit f), segs := f.slots.segs }
      | some _ => s
    | none => s
  else if s.ctxState c = ctxFree then s.setCtxState c ctxLoaded else s

def State.proofPassRow (s : State) (c : Nat) : State :=
  match (s.ctx c).loading with
  | none => s
  | some l =>
    let earlier := (List.range 8).any fun d => match (s.ctx d).loading with | some m => decide (m.seq < l.seq) | none => false
    if l.complete = false ∨ earlier = true then s
    else
      let (code, f) := s.proofPass c l.image
      let s := s.modCtx c fun x => { x with loading := none }
      match f with
      | some f =>
        let s := s.installForme c f l.image
        let s := match s.tck.change with
          | some (_, p, cut) =>
            if f.fits p cut then s else (s.modCtx c fun x => { x with unfit := true }).raise 0x040A (some c) 0 []
          | none => s
        s.complete c l.ring stOk 0 0
      | none => (s.raise 0x0401 (some c) 0 [code]).complete c l.ring stRefused code 0

/-- R178: the proof pass of context `c`'s image, in the order in which the LOAD_FORME commands arrived. -/
def execProofPass (c : CtxId) (s : State) : Host.Outcome State Fault Refusal := .next (s.proofPassRow c)

/-! ### ADMIT (R211) -/

def State.admitForme (s : State) (c r : Nat) : State :=
  s.cmdRow c r 2 fun s k =>
    match (s.ctx c).forme with
    | none => s.complete c r stBadState 0 0
    | some f =>
      let to_ := if k.arg 20 4 = 0 then 100 else k.arg 20 4
      let s := s.modCtx c fun x => { x with srSeed := k.arg 8 8, step := 0, pos := ⟨false, 0, false⟩, counts := [], ran := false }
      let s := (((s.fset (F.CTX_CFG_TICK_GROUP c) (k.arg 16 2)).fset (F.CTX_CFG_RANGE_KEEP c) (k.arg 18 1)).fset
        (F.CTX_CFG_HOLD_ON_FAULT c) (k.arg 18 1 / 2)).fset (F.CTX_CFG_PEER_TO_MS c) to_
      let s := (s.fset (F.CTX_IMP_IMP_COUNT c) 0).fset (F.CTX_IMP_IMP_POS c) 0
      let s := s.lockForme c f
      let s := f.quoins.foldl (fun s q => s.quoinSet (32 * q.die) q.num 0) s
      let s := s.modColl c fun _ => { Coll.zero with imp := some (s.implicit f), segs := f.slots.segs }
      let s := (s.fset (F.RDX_EPOCH_CUR_EPOCH c) 0).setCtxState c ctxIdle
      (s.latch c).complete c r stOk 0 0

/-- ADMIT (R211). -/
def execAdmit (c : CtxId) (r : RingId) (s : State) : Host.Outcome State Fault Refusal := .next (s.admitForme c r)

/-! ### RUN_STEPS (R209, R213, R316) -/

def State.runSteps (s : State) (c r : Nat) : State :=
  s.cmdRow c r 3 fun s k =>
    let add := fun (s : State) =>
      let s := (s.modCtx c fun x => { x with counts := x.counts ++ [⟨r, k.tag, k.arg 8 4⟩] }).showSteps c
      s.complete c r stOk 0 (s.stepsLeft c)
    if s.ctxState c = ctxRunning then add s
    else if s.impositionFits c = false then s.complete c r stImposition 0 0
    else if s.coresFree c then
      let s := (s.chaseCoresOf c).foldl (fun s g => s.occupy c g) s
      let s := s.modCtx c fun x => { x with launch := some ⟨false, r, none, s.timeUs⟩ }
      add (s.setCtxState c ctxRunning)
    else if k.stage = .waitCores then s
    else s.setStage c r .waitCores

/-- RUN_STEPS: an IDLE context launches at the next tick once its cores are free; a RUNNING one takes the count. -/
def execRunSteps (c : CtxId) (r : RingId) (s : State) : Host.Outcome State Fault Refusal := .next (s.runSteps c r)

/-! ### PREEMPT and SAVE (R209, R210, R219) -/

/-- A stop becomes pending. A second one of its kind completes at once and changes nothing (R210); a SAVE and a PREEMPT may
both be pending, and the first stop tick acts (R219). -/
def State.addStop (s : State) (c r : Nat) (at_ : Option (Option Nat)) (save : Bool) : State :=
  match (s.ctx c).stop with
  | some p =>
    if (if save then p.save else p.preempt.isSome) then s.complete c r stOk 0 0
    else (s.modCtx c fun x => { x with stop := some ⟨if save then p.preempt else at_, p.save || save⟩ }).begun c r
  | none =>
    ((s.modCtx c fun x => { x with stop := some ⟨at_, save⟩ }).begun c r).fset (F.CTX_STAT_STOP_PENDING c) 1

/-- The tick named by PREEMPT and RESTORE: none for NEXT. -/
def Cmd.atTick (k : Cmd) : Option Nat := if k.arg 8 1 = 1 then some (k.arg 16 6) else none

/-- PREEMPT (R219). -/
def execPreempt (c : CtxId) (r : RingId) (s : State) : Host.Outcome State Fault Refusal :=
  .next (s.cmdRow c r 4 fun s k => s.addStop c r (some k.atTick) false)

/-- SAVE (R209): the stop acts at the tick that ends the current step. -/
def execSaveCmd (c : CtxId) (r : RingId) (s : State) : Host.Outcome State Fault Refusal :=
  .next (s.cmdRow c r 5 fun s _ => s.addStop c r none true)

/-! ### The core image (R221, R222, R233) -/

/-- Table 7-6: where the image of core `g` lies. -/
def Forme.imageAt (f : Forme) (g : Nat) : Nat :=
  let dies := (List.range 4).filter fun d => (f.chaseOf d).ncores != 0
  ((f.save.getD (dies.idxOf (g / 32)) ⟨0, 0⟩).base) + 0x500000 * (f.slotOf g).getD 0

/-- The accumulators of a core as the image holds them: slots 0 to 7. -/
def Core.accBytes (k : Core) : List Byte :=
  ((List.range 8).map fun i => match k.groups.find? fun x => x.slot == i with
    | some x => slice ((x.acc.map (leBytes 4)).flatten) 0 0x10000
    | none => List.replicate 0x10000 0).flatten

/-- R233, R167: the SRAM words read for the image of core `g`, corrected as they are read. An uncorrectable one raises
0x0304; the fault is the save's own. -/
def State.checkImage (s : State) (c g a n : Nat) : State × Bool :=
  let hits := s.eccHits a n
  let s := hits.foldl (fun s e => if correctable e.1 e.2 then s.corrected e.1 else s.raise 0x0304 (some c) g []) s
  (s, hits.all fun e => correctable e.1 e.2)

/-- The cells of a list of bytes. -/
def cellsOf (l : List Byte) : List Host.Cell := ((List.range l.length).zip l).filter fun p => p.2 != 0

/-- An area written whole by the device with internal bytes. -/
def State.layArea (s : State) (a : Nat) (l : List Byte) : State :=
  { s with
    mem := memLay s.mem a l.length (cellsOf l)
    ecc := s.ecc.dropIf fun x => decide (a ≤ x) && decide (x < a + l.length) }.snoop a l.length

/-- The small-state bytes of core `g` in save `n`. -/
def smallState (g n : Nat) : List Byte := (List.range 0x10000).map fun i => Config.smallStateByte g i n

/-- R233: whether the small state in the save area is the one its digest was taken over. -/
def State.digestOk (s : State) (a : Nat) (x : SavedCore Core) : Bool :=
  match x.key with
  | some n => memCells s.mem (a + 0x4C0000) 0x10000 == cellsOf (smallState x.core n)
  | none => Config.digestGood (s.bytes (a + 0x4C0000) 0x10000)

/-- R222, R266: the context header written: the schedule position and the bucket entries, which the model keeps beside it. -/
def State.putHeader (s : State) (c : Nat) : State :=
  match (s.ctx c).forme with
  | none => s
  | some f => { s with free := s.free + 1 }.layArea f.header.base ((List.range f.header.len).map fun i => Config.headerByte i s.free)

/-- R266, R233: the context header read back; false when it cannot be read. -/
def State.readHeader (s : State) (c : Nat) : State × Bool :=
  match (s.ctx c).forme with
  | none => (s, true)
  | some f => s.checkRead f.header.base f.header.len (some c)

/-- R222: the image of core `g` written to the save area; false when a word of it cannot be read (R233). -/
def State.saveCore (s : State) (c : Nat) (f : Forme) (g : Nat) : State × Bool :=
  let a := f.imageAt g
  let (s, ok) := s.checkImage c g (lsBase g) 0x400000
  let (s, ok2) := s.checkImage c g (ocBase g) 0x40000
  let (s, ok3) := s.checkImage c g (acfBase g 0) 0x80000
  let ls := memCells s.mem (lsBase g) 0x400000
  let oc := memCells s.mem (ocBase g) 0x40000
  let n := s.free
  let s := { s with
    mem := memLay (memLay s.mem a 0x400000 ls) (a + 0x400000) 0x40000 oc
    ecc := s.ecc.dropIf fun x => decide (a ≤ x) && decide (x < a + 0x500000)
    free := n + 1 }
  let s := (s.memWrite (a + 0x440000) (s.core g).accBytes none).1
  let s := s.layArea (a + 0x4C0000) (smallState g n)
  let s := s.modCtx c fun x => { x with saved := x.saved ++ [⟨g, s.core g, some n⟩] }
  let s := s.modCore g Core.blank
  (((s.snoop a 0x500000).crossed none (some (g / 32)) (homeDie a)).release g, ok && ok2 && ok3)

/-- R233: an error met while a context is saved or restored. -/
def State.saveError (s : State) (c g : Nat) : State := (s.raise 0x0429 (some c) g []).ctxFault c 0x0429 g

/-- The images of cores `gs`, and the first core one of whose words could not be read. -/
def State.saveCores (s : State) (c : Nat) (f : Forme) (gs : List Nat) : State × Option Nat :=
  gs.foldl (fun (p : State × Option Nat) g =>
    let q := p.1.saveCore c f g
    (q.1, if q.2 then p.2 else some (p.2.getD g))) (s, none)

def State.saveComplete (s : State) (c : Nat) : State :=
  match (s.ctx c).forme with
  | none => s
  | some f =>
    if s.ctxState c ≠ ctxSaving ∨ (s.ctx c).faultStop = true then s
    else
      let (s, bad) := (s.putHeader c).saveCores c f (s.occupied c)
      match bad with
      | some g => s.saveError c g
      | none =>
        let s := (s.fset (F.CTX_STAT_IMAGE c) 1).setCtxState c ctxSaved
        let s := s.fset (F.CTX_TIME_SAVE_US c) (Nat.min 0xFFFF (s.timeUs - (s.ctx c).stopAt))
        ((s.raise 0x0423 (some c) 0 []).completeAll c 4 stOk).completeAll c 5 stOk

/-- R222: every core image of context `c` is written. -/
def execSaveComplete (c : CtxId) (s : State) : Host.Outcome State Fault Refusal := .next (s.saveComplete c).flush

/-! ### RESTORE (R213, R223, R227) -/

/-- R227: one landing-buffer entry replayed. -/
def State.replayEntry (s : State) (c : Nat) (e : LandEntry) : State :=
  match e.kind with
  | .ack => s.descEnded e.core e.addr e.xfer (XEnd.ofCode (leNat e.data))
  | .ended => s.descEnded e.core e.addr e.xfer (XEnd.ofCode (leNat e.data))
  | .readData => (s.landFor c e.core e.addr e.data).descEnded e.core 0 e.xfer .ok
  | .write => s.landFor c e.core e.addr e.data

/-- R226, R227: the landing-buffer entries of core `g` are replayed in arrival order; FILL follows. -/
def State.replayCore (s : State) (c g : Nat) : State :=
  let mine := (s.ctx c).landing.filter fun e => e.core == g
  let s := s.modCtx c fun x => { x with landing := x.landing.filter fun e => e.core != g }
  let s := mine.foldl (fun s e => s.replayEntry c e) s
  s.fset (F.CTX_LAND_FILL c) (s.landFill c)

/-- The restore of a context saved without an image: its cores are taken, its header is read back (R266), and the arrivals of
the stop are replayed (R225, R227). -/
def State.restoreEmpty (s : State) (c r : Nat) : State :=
  let (s, ok) := s.readHeader c
  if ok = false then s.saveError c (s.faultCore c)
  else
  let s := (((s.chaseCoresOf c).foldl (fun s g => s.occupy c g) s).begun c r).setCtxState c ctxRestoring
  let s := ((s.chaseCoresOf c).foldl (fun s g => s.replayCore c g) s).fset (F.CTX_STAT_BP c) 0
  let t := s.timeUs - (((s.ctx c).launch.map (·.since)).getD s.timeUs)
  (s.fset (F.CTX_TIME_RESTORE_US c) (Nat.min 0xFFFF t)).raise 0x0424 (some c) 0 []

/-- Cores of a restore that has begun are saved again (R233). -/
def State.unrestore (s : State) (c : Nat) : State :=
  match (s.ctx c).forme with
  | none => s
  | some f =>
    let gs := s.occupied c
    let kept := fun (g : Nat) => (s.ctx c).saved.any (·.core == g)
    let (s, bad) := ((gs.filter kept).foldl State.release s).saveCores c f (gs.filter fun g => !kept g)
    let s := s.setCtxState c ctxSaved
    match bad with
    | some g => s.saveError c g
    | none => s

def State.restoreCmd (s : State) (c r : Nat) : State :=
  s.cmdRow c r 6 fun s k =>
    if s.impositionFits c = false then
      (if k.stage = .waitCores then (s.modCtx c fun x => { x with launch := none }).unrestore c else s).complete c r stImposition 0 0
    else if k.stage = .waitCores then
      if s.fget (F.CTX_STAT_IMAGE c) = 0 ∧ s.coresFree c = true then s.restoreEmpty c r else s
    else if (s.ctx c).launch ≠ none then s
    else
      let s := s.modCtx c fun x => { x with launch := some ⟨true, r, k.atTick, s.timeUs⟩, migIn := false }
      if s.fget (F.CTX_STAT_IMAGE c) = 0 ∧ s.coresFree c = true then s.restoreEmpty c r else s.setStage c r .waitCores

/-- RESTORE (R223): each core restores as soon as it is free. -/
def execRestore (c : CtxId) (r : RingId) (s : State) : Host.Outcome State Fault Refusal := .next (s.restoreCmd c r)

def State.restoreCoreStart (s : State) (c g : Nat) : State :=
  match (s.ctx c).forme, (s.ctx c).launch with
  | some f, some l =>
    let v := s.ctxState c
    if l.restore = false ∨ f.coreList.contains g = false ∨ s.occupant g ≠ none ∨ (v ≠ ctxSaved ∧ v ≠ ctxRestoring)
        ∨ (v = ctxSaved ∧ s.fget F.MGT_PLANE_STAT_MGMT_DOWN = 1) ∨ (s.ctx c).faultStop = true then s
    else match (s.ctx c).saved.find? fun x => x.core == g with
      | none => s
      | some sv =>
        let a := f.imageAt g
        let (s, ok) := s.checkRead a 0x4D0000 (some c)
        let s := ((s.crossed none (homeDie a) (some (g / 32))).occupy c g).setCtxState c ctxRestoring
        let s := if (s.chaseCoresOf c).all (fun h => s.occupant h == some c) then s.setStage c l.ring .active else s
        if ok = false ∨ s.digestOk a sv = false then s.saveError c g
        else
          let ls := memCells s.mem a 0x400000
          let oc := memCells s.mem (a + 0x400000) 0x40000
          let s := { s with
            mem := memLay (memLay s.mem (lsBase g) 0x400000 ls) (ocBase g) 0x40000 oc
            ecc := s.ecc.dropIf fun x => sramOf x == some (Sram.core g) }
          let s := s.modCore g fun k => { sv.small with
            stopped := true, restored := false, mxeMiss := k.mxeMiss, vxeMiss := k.vxeMiss, vxeUpset := k.vxeUpset }
          match s.copyProgram c g with
          | (s, true) => s
          | (s, false) => s.saveError c g
  | _, _ => s

/-- R213, R223: core `g` is free, and its image is written back. -/
def execRestoreCoreStart (c : CtxId) (g : CoreId) (s : State) : Host.Outcome State Fault Refusal :=
  .next (s.restoreCoreStart c g)

def State.coreRestoreDone (s : State) (c g : Nat) : State :=
  if s.ctxState c ≠ ctxRestoring ∨ s.occupant g ≠ some c ∨ (s.ctx c).saved.all (fun x => x.core != g) ∨ (s.ctx c).faultStop then s
  else
    let s := (s.modCtx c fun x => { x with saved := x.saved.filter fun y => y.core != g }).replayCore c g
    let s := s.modCore g fun k => { k with restored := true }
    if (s.chaseCoresOf c).all (fun h => s.occupant h == some c && (s.core h).restored) then
      let (s, ok) := s.readHeader c
      if ok = false then s.saveError c g
      else
      let s := s.fset (F.CTX_TIME_RESTORE_US c) (Nat.min 0xFFFF (s.timeUs - (((s.ctx c).launch.map (·.since)).getD s.timeUs)))
      ((s.fset (F.CTX_STAT_IMAGE c) 0).fset (F.CTX_STAT_BP c) 0).raise 0x0424 (some c) 0 []
    else s

/-- R223, R227: the landing-buffer entries of core `g` are replayed and its restore ends. BP clears with the last core's
(R226). -/
def execCoreRestoreDone (c : CtxId) (g : CoreId) (s : State) : Host.Outcome State Fault Refusal :=
  .next (s.coreRestoreDone c g).flush

/-! ### The wait for cores (R213) -/

def State.coresBusyTimeout (s : State) (c r : Nat) : State :=
  match (s.ring c r).cur with
  | none => s
  | some k =>
    if k.stage = .waitCores ∧ k.since + 2000 ≤ s.timeUs ∧ s.coresFree c = false then
      let s := if k.opc = 6 then (s.modCtx c fun x => { x with launch := none }).unrestore c else s
      s.complete c r stCoresBusy 0 0
    else s

/-- R213: the wait for cores has lasted 2 ms. -/
def execCoresBusyTimeout (c : CtxId) (r : RingId) (s : State) : Host.Outcome State Fault Refusal :=
  .next (s.coresBusyTimeout c r)

/-! ### TEARDOWN (R231) -/

/-- TEARDOWN (R210, R231). -/
def execTeardownCmd (c : CtxId) (r : RingId) (s : State) : Host.Outcome State Fault Refusal :=
  .next (s.cmdRow c r 8 fun s _ =>
    let s := s.begun c r
    if s.ctxState c = ctxTearing then s else s.startTeardown c)

/-- A step cut short: its record (Table 13-8). -/
def State.cutStep (s : State) (c status : Nat) : State :=
  if (s.ctx c).pos.inStep then
    (if (s.ctx c).posted then s else s.stepRecord c status).modCtx c fun x =>
      { x with pos := { x.pos with inStep := false }, posted := false }
  else s

def State.teardownDone (s : State) (c : Nat) : State :=
  if s.ctxState c ≠ ctxTearing ∨ (s.ctx c).tearing = none ∨ s.fget F.MGT_PLANE_STAT_MGMT_DOWN = 1 ∨ s.captureOn c = true then s
  else ((s.cutStep c stTornDown).tearNow c).completeAll c 8 stOk

/-- R231: the teardown's work is done and the slot is FREE. -/
def execTeardownDone (c : CtxId) (s : State) : Host.Outcome State Fault Refusal := .next (s.teardownDone c)

/-! ### MIGRATE (R229, R230, R317)

The spec gives the migration's cells no layout. The model's own (DESIGN CHOICE, assumption 49): WRITE cells of TC0, the
windows at their addresses, and the save areas, the landing buffer and last the context header at addresses above 2^47
that name them by their place in `Forme.ownAreas`. The header carries everything else. -/

/-- The areas of a forme that a migration copies besides its windows. -/
def Forme.ownAreas (f : Forme) : List Area := f.save ++ [f.land, f.header]

/-- Where area `j` of a migration is addressed. -/
def migrationAt (j : Nat) : Nat := 2 ^ 47 + j * 2 ^ 36

/-- R341: the background tasks of context `c` stop where they are, to start again from their beginning. -/
def State.stopTasks (s : State) (c : Nat) : State :=
  let s := { s with xfers := s.xfers.filter fun x => match x.owner with | .task d _ => d != c | _ => true }
  let ts := ((s.coll c).tasks.filter fun t => t.kind != TaskKind.migrate).map fun t =>
    { t with todo := t.pieces, fails := 0, out := false }
  s.modColl c fun k => { k with tasks := ts }

def State.migrate (s : State) (c r : Nat) : State :=
  s.cmdRow c r 7 fun s k =>
    let fab := k.arg 8 3
    let t := k.arg 11 1
    if s.spans c ∧ t ≠ c then s.complete c r stBadCommand 0 0
    else match (s.ctx c).forme with
      | none => s.complete c r stBadState 0 0
      | some f =>
        let ps := (f.windows.filter (·.write)).map (fun w => Piece.mk fab w.base (.mem w.base w.len))
          ++ ((List.range f.ownAreas.length).zip f.ownAreas).map fun p => ⟨fab, migrationAt p.1, .mem p.2.base p.2.len⟩
        let s := if (s.peer fab).isNone ∧ s.peers.length < 4096 then { s with peers := s.peers ++ [Peer.new fab] } else s
        ((((s.stopTasks c).begun c r).setCtxState c ctxMigrating).putHeader c).startTask c .migrate t ps

/-- MIGRATE (R229): the copy to the target starts. -/
def execMigrate (c : CtxId) (r : RingId) (s : State) : Host.Outcome State Fault Refusal := .next (s.migrate c r).flush

/-- The migration copy of context `c`. -/
def State.copyTask (s : State) (c : Nat) : Option Task := (s.coll c).tasks.find? fun t => t.kind == .migrate

/-- R229, R317: the target slot takes the copied values and is SAVED, its drain and its open buckets shown in the registers, and the
rebalancer's parameters in force in TRN_RBAL. Its forme, ways and areas are its own. -/
def State.admitMigrant (s : State) (c : Nat) (f : Forme) (m : Migrant) : State :=
  let k := m.ctx
  let ts := (k.coll.tasks.filter fun t => t.kind != TaskKind.migrate).map fun t => { t with todo := t.pieces, out := false }
  let coll := { k.coll with pend := none, order := none, repair := none, table := [], inForce := .empty, tasks := ts }
  let bound : BoundWork := if k.coll.bound = .fresh ∧ k.pos.inStep = false then .fresh else .moved
  let coll := { coll with bound := bound }
  let coll := { coll with impAts := k.coll.impAts.map (fun _ => 0), buckets := k.coll.buckets.map fun b => { b with progress := s.timeUs } }
  let s := s.modCtx c fun x => { x with
    srSeed := k.srSeed, step := k.step, counts := k.counts, stepRing := k.stepRing, stepTag := k.stepTag, pos := k.pos
    retryLeft := k.retryLeft, retryWant := k.retryWant, overrun := k.overrun, slipTicks := k.slipTicks, posted := k.posted
    suspect := k.suspect, rangeFlag := k.rangeFlag, outcome := k.outcome, streams := k.streams, landing := k.landing
    retried := k.retried.map fun p => (p.1, 0)
    saved := (k.saved.filter fun y => f.coreList.contains y.core).map fun y => { y with key := none }
    coll := coll }
  let s := (((s.fset (F.CTX_CFG_TICK_GROUP c) (bits m.cfg 15 0)).fset (F.CTX_CFG_PEER_TO_MS c) (bits m.cfg 29 16)).fset
    (F.CTX_CFG_RANGE_KEEP c) (bits m.cfg 30 30)).fset (F.CTX_CFG_HOLD_ON_FAULT c) (bits m.cfg 31 31)
  let s := (s.fset (F.CTX_IMP_IMP_COUNT c) (bits m.imp 27 16)).fset (F.CTX_IMP_IMP_POS c) (bits m.imp 15 0)
  let s := (f.quoins.zip m.quoins).foldl (fun s q => s.quoinSet (32 * q.1.die) q.1.num q.2) (s.lockForme c f)
  let s := ((s.fset (F.RDX_EPOCH_CUR_EPOCH c) ((k.coll.imp.map (·.iepoch)).getD 0)).fset (F.CTX_STAT_IMAGE c)
    (b2n !(s.ctx c).saved.isEmpty)).fset (F.CTX_LAND_FILL c) (s.landFill c)
  let old := k.coll.drain.map (·.imp.iepoch)
  let s := ((s.fset (F.RDX_EPOCH_OLD_EPOCH c) (old.getD 0)).fset (F.RDX_DRAIN_DRAINING c) (b2n old.isSome)).countOpen c
  let s := (s.rset (R.TRN_BNOISE c) m.bnoise).rset (R.TRN_RBAL c) (k.coll.inForce.get (regReset (R.TRN_RBAL c)).toNat (R.TRN_RBAL c))
  (((s.showSteps c).latch c).setCtxState c ctxSaved).raise 0x042A (some c) 0 []

/-- R229: a target whose copy is whole admits the slot and confirms, where the formes' HASHes agree. -/
def State.confirmTarget (s : State) (c : Nat) : State :=
  match (s.ctx c).forme with
  | none => s
  | some f =>
    let (s, ok) := s.readHeader c
    match Config.migrantOf (s.bytes f.header.base f.header.len) with
    | none => s
    | some m => if ok = true ∧ m.hash = f.hash then s.admitMigrant c f m else s

/-- R229: the source of a confirmed migration is torn down. -/
def State.confirmSource (s : State) (c : Nat) : State :=
  match s.copyTask c with
  | none => s
  | some t =>
    if t.out = true ∨ t.todo ≠ [] ∨ t.fails ≠ 0 then s
    else
      let s := (s.completeAll c 7 stOk).raise 0x042A (some c) 0 []
      ((s.abandonCommands c).abandonLoad c).tearNow c

def State.migrateConfirm (s : State) (c : Nat) : State :=
  let v := s.ctxState c
  if v = ctxMigrating then s.confirmSource c
  else if v = ctxLoaded ∧ (s.ctx c).migIn = true then s.confirmTarget c
  else s

/-- R229: the target admits the slot and confirms; at the source, its confirmation comes. -/
def execMigrateConfirm (c : CtxId) (s : State) : Host.Outcome State Fault Refusal := .next (s.migrateConfirm c)

/-- R230: the source is SAVED again, its tasks running (R341). -/
def State.migrateFailed (s : State) (c cause : Nat) : State :=
  let s := ((((s.stopTasks c).setCtxState c ctxSaved).raise 0x0428 (some c) 0 [cause])).resumeTasks c
  (List.range 4).foldl (fun s r => match (s.ring c r).cur with
    | some k => if k.opc = 7 ∧ k.stage = .active then s.complete c r stMigrateFailed cause 0 else s
    | none => s) s

/-- R230: the target slot is LOADED again, with nothing of the copy admitted. -/
def State.unadmit (s : State) (c : Nat) : State :=
  let x := s.ctx c
  let keep : Ctx := { Ctx.reset with
    forme := x.forme, loading := x.loading, unfit := x.unfit, rings := x.rings, lastRing := x.lastRing, crAddr := x.crAddr, crRkey := x.crRkey
    crCfg := x.crCfg, crCi := x.crCi, crK := x.crK, crQp := x.crQp, backlog := x.backlog, backlogFull := x.backlogFull }
  ((((s.unlockWays c).setCtx c keep).resetCtxRegs c).countOpen c).setCtxState c ctxLoaded

def State.migrateFailure (s : State) (c cause : Nat) : State :=
  let v := s.ctxState c
  if (v = ctxLoaded ∨ v = ctxSaved) ∧ (s.ctx c).migIn = true ∧ cause ≠ 0 then s.unadmit c
  else match s.copyTask c with
  | none => s
  | some t => if v ≠ ctxMigrating ∨ cause = 0 ∨ (cause = 1 ∧ t.fails = 0) then s else s.migrateFailed c cause

/-- R230: the copy fails (cause 1), the target is lost (2) or it refuses (3). -/
def execMigrateFailure (c : CtxId) (cause : Fin 4) (s : State) : Host.Outcome State Fault Refusal :=
  .next (s.migrateFailure c cause).flush

/-! ### SET_IMPOSITION (R311, R312) -/

def State.setImposition (s : State) (c r : Nat) : State :=
  s.cmdRow c r 9 fun s k =>
    match (s.ctx c).forme, (s.coll c).pend with
    | _, some _ => s
    | none, _ => s.complete c r stBadState 0 0
    | some f, none =>
      let (s, code, i) := s.checkImposition c f (k.arg 8 8) (k.arg 16 8) (k.arg 24 4)
      match i with
      | some i =>
        if code ≠ 0 then (s.raise 0x0702 (some c) 0 [code]).complete c r stRefused code 0
        else
          let s := (s.begun c r).modColl c fun x => { x with pend := some ⟨i, k.arg 24 4, r, false⟩ }
          let s := (s.fset (F.TRN_IMP_STAT_PENDING c) 1).fset (F.TRN_IMP_STAT_PEND_EPOCH c) i.iepoch
          if s.atBoundary c ∧ s.ctxState c ≠ ctxRunning then s.impositionDue c else s
      | none => (s.raise 0x0702 (some c) 0 [code]).complete c r stRefused code 0

/-- SET_IMPOSITION (R311): checked, and pending until it takes effect. -/
def execSetImposition (c : CtxId) (r : RingId) (s : State) : Host.Outcome State Fault Refusal :=
  .next (s.setImposition c r).flush

/-! ### QUERY (R394) -/

/-- A QUERY's result written to the host, at most LEN bytes; `size` is its full size. -/
def State.queryWrite (s : State) (c r : Nat) (k : Cmd) (b : List Byte) (size : Nat) : State :=
  match (s.ctx c).crQp.bind s.qp? with
  | none => s.complete c r stFetchFailed 0 0
  | some q =>
    if q.err then s.complete c r stFetchFailed 0 0
    else
      let d := b.take (k.arg 28 4)
      (s.begun c r).postReq q false (k.arg 16 8) (k.arg 24 4) d.length d (.query c r size)

/-- A QUERY row acts on a command in hand with its WHAT. -/
def State.queryRow (s : State) (c r what : Nat) (eff : State → Cmd → State) : State :=
  s.cmdRow c r 10 fun s k => if k.arg 8 1 = what then eff s k else s

/-- The words of registers in the order given. -/
def State.regBytes (s : State) (l : List Nat) : List Byte := (l.map fun o => leBytes 4 (s.rget o)).flatten

/-- QUERY WHAT 0: CTX_STATn to CTX_CFGn. -/
def execQueryContext (c : CtxId) (r : RingId) (s : State) : Host.Outcome State Fault Refusal :=
  .next (s.queryRow c r 0 fun s k =>
    s.queryWrite c r k (s.regBytes ((List.range 7).map fun i => R.CTX_STAT c + 4 * i)) 28)

/-- QUERY WHAT 1: a colophon record. -/
def execQueryColophon (c : CtxId) (r : RingId) (s : State) : Host.Outcome State Fault Refusal :=
  .next (s.queryRow c r 1 fun s k =>
    match s.colFind (k.arg 12 4) with
    | none => s.complete c r stNotFound 0 0
    | some x => s.queryWrite c r k x.bytes x.size)

/-- QUERY WHAT 2: the frozen unit state of a core, whose layout and size are internal. -/
def execQueryFrozenState (c : CtxId) (r : RingId) (s : State) : Host.Outcome State Fault Refusal :=
  .next (s.queryRow c r 2 fun s k =>
    let g := k.arg 12 4
    if s.ctxState c = ctxFaulted ∧ s.fget (F.CTX_CFG_HOLD_ON_FAULT c) = 1 ∧ s.occupant g = some c then
      let (s, size) := s.freeVal
      s.queryWrite c r k ((List.range (Nat.min size (k.arg 28 4))).map fun i => Config.frozenByte g i) size
    else s.complete c r stBadState 0 0)

/-- QUERY WHAT 3: the capability registers. -/
def execQueryCapability (c : CtxId) (r : RingId) (s : State) : Host.Outcome State Fault Refusal :=
  .next (s.queryRow c r 3 fun s k =>
    s.queryWrite c r k (s.regBytes ([R.MGT_CAP_SUM, R.MGT_CAP_LPX] ++ ((List.range 4).map fun d => R.MGT_CAP_CORE d)
      ++ ((List.range 4).map fun d => R.MGT_CAP_DIE d))) 40)

end Sys2Proof.Machine
end

