-- ==== Sys2Proof/Machine/Tick.lean ====
section
/-!
DEFINITION. The tick unit (R186 to R193, R257) and what a tick does to each context: launches, impressions, slips,
schedule breaks, step ends and stops (R194 to R202, R212, R217, R219 to R223, R292, R312, R325, R337).
-/

namespace Sys2Proof.Machine

/-! ### Time, parameters and roles -/

/-- The module's time base in ns. -/
def State.nowNs (s : State) : Nat := 1000 * s.timeUs

/-- A stamp of the time base at 1 ns (R257), within the microsecond of the model's clock: a free value (assumption 97). -/
def State.stampNs (s : State) : State × Nat := let p := s.freeVal; (p.1, s.nowNs + p.2 % 1000)

/-- States of Table 6-7 and roles of R186. -/
def tckOff : Nat := 0
def tckAcquiring : Nat := 1
def tckLocked : Nat := 2
def tckHoldover : Nat := 3
def tckLost : Nat := 4
def roleFollower : Nat := 0
def rolePrimary : Nat := 1
def roleStandby : Nat := 2
def roleStandalone : Nat := 3

def State.tckState (s : State) : Nat := s.fget F.TCK_STAT_STATE
def State.setTck (s : State) (v : Nat) : State := s.fset F.TCK_STAT_STATE v
def State.tckRole (s : State) : Nat := s.fget F.TCK_CTRL_ROLE
def State.periodUs (s : State) : Nat := s.fget F.TCK_PERIOD_PERIOD_US
def State.cutUs (s : State) : Nat := s.fget F.TCK_PERIOD_SLIP_CUT
def State.modTck (s : State) (f : TickUnit → TickUnit) : State := { s with tck := f s.tck }

/-- Whether the unit takes its ticks from cells. -/
def State.follows (s : State) : Bool := s.tckRole == roleFollower || s.tckRole == roleStandby

def State.nextTick (s : State) : Nat := (s.tick + 1) % 2 ^ 48

/-- R193: event 0x040A for each context whose forme a pending change does not suit; no step starts under that forme again. -/
def State.tellMismatch (s : State) (period cut : Nat) : State :=
  s.formes.foldl (fun s p => if p.2.fits period cut then s
    else (s.modCtx p.1 fun x => { x with unfit := true }).raise 0x040A (some p.1) 0 []) s

/-- R192: a change is announced for tick `n`. -/
def State.announce (s : State) (n period cut : Nat) : State :=
  (s.modTck fun t => { t with change := some (n, period, cut) }).tellMismatch period cut

/-- R193: whether context `c` may start a step: its forme suits the values in force, and no announced change has ruled it
out. -/
def State.paramsFit (s : State) (c : Nat) : Bool :=
  match (s.ctx c).forme with
  | none => false
  | some f => f.fits s.periodUs s.cutUs && !(s.ctx c).unfit

/-- R192: the announced values take effect at tick `n`. -/
def State.applyChange (s : State) (n : Nat) : State :=
  match s.tck.change with
  | none => s
  | some (k, p, t) =>
    if k ≤ n then
      ((s.fset F.TCK_PERIOD_PERIOD_US p).fset F.TCK_PERIOD_SLIP_CUT t).modTck fun u => { u with change := none }
    else s

/-- Whether the next tick has come, and the unit is not clock-stopped for a capture (R371). -/
def State.tickDue (s : State) : Bool :=
  s.tckState != tckOff && s.tck.nextNs != 0 && decide (s.tck.nextNs ≤ s.nowNs) && !s.clockStopped none

/-- R192: the announced tick has come, and the new period and cutoff are in force for it. -/
def execPeriodChangeApply (s : State) : Host.Outcome State Fault Refusal :=
  .next (if s.tickDue then s.applyChange s.nextTick else s)

/-- R192: a write of TCK_PERIOD; a field with a reserved value keeps its own. -/
def execTckPeriodWrite (w : Word) (s : State) : Host.Outcome State Fault Refusal :=
  let role := s.tckRole
  let p := bits w.toNat 13 0
  let t := bits w.toNat 31 24
  let p := if 50 ≤ p ∧ p ≤ 10000 then p else s.periodUs
  let t := if 4 ≤ t ∧ t ≤ 32 then t else s.cutUs
  .next (if (role = rolePrimary ∨ role = roleStandalone) ∧ s.tck.change = none then
    s.announce ((s.tick + 16) % 2 ^ 48) p t
  else s)

/-- R190, R420: a write of TCK_CTRL. ROLE is taken only while EN is 0; a standalone module takes no other role. -/
def execTickUnitEnable (w : Word) (s : State) : Host.Outcome State Fault Refusal :=
  let was := s.fget F.TCK_CTRL_EN
  let role := bits w.toNat 27 26
  let en := bits w.toNat 31 31
  let s := if was = 0 ∧ (s.fget F.MGT_CAP_SUM_STANDALONE = 0 ∨ role = roleStandalone) then s.fset F.TCK_CTRL_ROLE role else s
  let s := s.fset F.TCK_CTRL_EN en
  let fresh := fun (s : State) => s.modTck fun t => { t with
    lists := [], gather := [], followers := [], good := 0, alone := [], delayAt := none, nextNs := 0 }
  .next (if was = en then s
    else if en = 0 then (fresh s).setTck tckOff
    else
      let s := (fresh s).fset F.TCK_STAT_SRC 0
      if s.follows then s.setTck tckAcquiring
      else (s.setTck tckLocked).modTck fun t => { t with nextNs := s.nowNs + 1000 * s.periodUs })

/-! ### Slip lists (R187, R191, R257) -/

/-- The slip list of tick `n` as this module holds it. -/
def State.slipList (s : State) (n : Nat) : List Nat :=
  if s.tckRole = rolePrimary then (s.tck.gather.filter fun g => g.1 == n).map (·.2.1)
  else if s.follows then
    match s.tck.lists.find? fun l => l.src == s.fget F.TCK_STAT_SRC && l.tick == n && l.whole with
    | some l => l.groups
    | none => []
  else []

/-- R201: whether the slips of context `c` are the module's own: on a standalone module, and for a group of one module
while no master answers (DEDUCED, assumption 24). -/
def State.slipsAlone (s : State) (c : Nat) : Bool :=
  s.tckRole == roleStandalone || (!s.spans c && (s.tckState == tckHoldover || s.tckState == tckLost))

/-- Whether the tick group of context `c` slips at tick `n`: by the list, or on its own. -/
def State.slips (s : State) (c n : Nat) : Bool :=
  let g := s.fget (F.CTX_CFG_TICK_GROUP c)
  s.tck.alone.any (fun x => x.1 == g) || (s.slipList n).contains g

/-- R199: the flags of the requests that the slip of context `c` at tick `n` merges, where this module knows them: its own
slip's, or those that a master has gathered. A follower does not, since tick cells carry none (Table 8-5). -/
def State.slipFlags (s : State) (c n : Nat) : Option Nat :=
  let g := s.fget (F.CTX_CFG_TICK_GROUP c)
  match s.tck.alone.find? fun x => x.1 == g with
  | some x => some x.2
  | none => (s.tck.gather.find? fun x => x.1 == n && x.2.1 == g).map (·.2.2)

/-- The masters that a module sends to: the primary, and the standby where there is one. The primary sends to the standby
alone, so that both list the same groups (R187). -/
def State.masters (s : State) : List Nat :=
  let p := s.fget F.TCK_PRI_FAB_FAB
  let b := s.fget F.TCK_STB_FAB_FAB
  if s.tckRole = rolePrimary then (if b = 0 ∨ b = p then [] else [b])
  else if s.tckRole = roleStandby ∨ b = 0 ∨ b = p then [p] else [p, b]

/-- R199: a request joins a master's gathering; those of one group and tick merge. -/
def TickUnit.gathered (t : TickUnit) (n g flags : Nat) : TickUnit :=
  if t.gather.any fun x => x.1 == n && x.2.1 == g then
    { t with gather := t.gather.map fun x => if x.1 = n ∧ x.2.1 = g then (n, g, x.2.2 ||| flags) else x }
  else { t with gather := t.gather ++ [(n, g, flags)] }

/-- R191, R197, R199, R201: the slip request of context `c` for tick `n`; `flags` are RETRY and OVERRUN. -/
def State.slipRequest (s : State) (c n flags : Nat) : State :=
  let g := s.fget (F.CTX_CFG_TICK_GROUP c)
  let role := s.tckRole
  let s := if s.slipsAlone c then s.modTck fun t => { t with alone := t.alone ++ [(g, flags)] } else s
  if role = roleStandalone then s
  else
    let s := if role = rolePrimary ∨ role = roleStandby then s.modTck fun t => t.gathered n g flags else s
    s.masters.foldl (fun s f => s.sendControl tySlipReq 7 f (leBytes 6 n ++ leBytes 2 g ++ leBytes 1 flags)) s

/-! ### The end of an impression (R106, R333) and the cutoff (R197) -/

/-- Whether every core of context `c` has finished its impression. -/
def State.coresEnded (s : State) (c : Nat) : Bool :=
  (s.chaseCoresOf c).all fun g => (s.core g).impDone || (s.live g && s.coreDone g)

/-- Whether the impression in progress is the last of the schedule. -/
def State.lastImp (s : State) (c : Nat) : Bool :=
  match (s.ctx c).forme with
  | none => true
  | some f => decide (f.imps.length ≤ (s.ctx c).pos.imp + 1)

/-- R327: whether the step waits for its rebalance: its LAST bucket is open under a written imposition. -/
def State.rebalanceWaits (s : State) (c : Nat) : Bool :=
  let x := s.ctx c
  x.coll.imp.any (fun i => i.hash.isSome)
    && x.coll.buckets.any fun b => b.opened && b.step == x.step && (s.desc? c b.idx).any (·.last)

/-- R106; the last impression does not end while a fingerprint repair runs (R333), nor before the rebalance (R327). -/
def State.impEnded (s : State) (c : Nat) : Bool :=
  s.coresEnded c && (!s.lastImp c || ((s.coll c).repair.isNone && !s.rebalanceWaits c))

/-- R196: whether a die of context `c` runs below its forme's floor. -/
def State.belowFloor (s : State) (c : Nat) : Bool :=
  match (s.ctx c).forme with
  | none => false
  | some f => (List.range 4).any fun d =>
    (f.chaseOf d).ncores != 0 && decide (s.fget (F.PWR_DIE_CLK_MHZ d) < f.floorMhz)

/-- CAUSE of an overrun (R197). -/
def State.overrunCause (s : State) (c : Nat) : Nat :=
  if s.belowFloor c then 1
  else if (s.chaseCoresOf c).any fun g => decide (1 < (s.core g).replays) then 2
  else 0

def State.cutoffCtx (s : State) (c n : Nat) : State :=
  let x := s.ctx c
  if s.ctxState c ≠ ctxRunning ∨ x.pos.inStep = false ∨ x.posted = true then s
  else
    let late := !s.impEnded c
    let s := if late = true ∧ x.overrun = false then
        ((s.fadd F.TCK_OVR_CNT_OVERRUNS 1).raise 0x0402 (some c) 0 [x.pos.imp, s.overrunCause c]).modCtx c fun y =>
          { y with overrun := true }
      else s
    if late ∨ x.retryWant then s.slipRequest c n (b2n x.retryWant + 2 * b2n late) else s

/-- Whether the cutoff of the next tick has come and has not been made. -/
def State.cutoffDue (s : State) : Bool :=
  s.tckState != tckOff && s.tck.nextNs != 0 && decide (s.tck.nextNs ≤ s.nowNs + 1000 * s.cutUs) && s.tck.cut != s.nextTick
    && !s.clockStopped none

/-- R197: the cutoff, T_CUT before the next tick. -/
def execSlipCutoff (s : State) : Host.Outcome State Fault Refusal :=
  .next (if s.cutoffDue then
    (List.range 8).foldl (fun s c => s.cutoffCtx c s.nextTick) (s.modTck fun t => { t with cut := s.nextTick })
  else s)

/-! ### Tick cells (R187, R257) -/

/-- The payload of a tick cell of tick `n` (Table 8-5). -/
def State.tickPayload (s : State) (n : Nat) (groups : List Nat) (more : Bool) : List Byte :=
  let ch := s.tck.change
  leBytes 6 n ++ leBytes 1 (b2n (s.tckRole == roleStandby) + 2 * b2n ch.isSome + 4 * b2n more) ++ leBytes 1 0
    ++ leBytes 8 s.tck.nextNs ++ leBytes 2 s.periodUs ++ leBytes 1 s.cutUs ++ leBytes 1 groups.length
    ++ (match ch with
      | some (k, p, t) => leBytes 6 k ++ leBytes 2 p ++ leBytes 1 t ++ leBytes 3 0
      | none => leBytes 12 0)
    ++ slice ((groups.map (leBytes 2)).flatten) 0 224

def State.tickCells (s : State) (n : Nat) : State :=
  let gs := ((s.tck.gather.filter fun g => g.1 == n).map (·.2.1)).dedup
  let parts := if gs.isEmpty then [[]] else chunks 112 ((gs.length + 111) / 112) gs
  let to_ := ((s.tck.followers.filter fun f => decide (s.tick ≤ f.2 + 64)).map (·.1)).take 16384
  to_.foldl (fun s f => ((List.range parts.length).zip parts).foldl (fun s p =>
    s.sendControl tyTick 7 f (s.tickPayload n p.2 (decide (p.1 + 1 < parts.length)))) s) s

/-- Whether a master's list of the next tick is to be closed. -/
def State.closeDue (s : State) : Bool :=
  (s.tckRole == rolePrimary || s.tckRole == roleStandby) && s.tckState != tckOff && s.tck.nextNs != 0
    && decide (s.tck.nextNs ≤ s.nowNs + 500 * s.cutUs) && s.tck.closed != s.nextTick && !s.clockStopped none

/-- R187: T_CUT / 2 before the next tick, a master closes its slip list and sends the tick cells. -/
def execTickCellSend (s : State) : Host.Outcome State Fault Refusal :=
  .next (if s.closeDue then (s.tickCells s.nextTick).modTck fun t => { t with closed := s.nextTick } else s)

/-- R188, R257: a follower sends DELAY_REQ to its masters every 16 ticks, and at once to one whose port has changed. -/
def execDelayMeasurement (s : State) : Host.Outcome State Fault Refusal :=
  let ports := s.masters.map fun f => s.portFor f 7
  let all : Bool := match s.tck.delayAt with
    | none => true
    | some t => decide (t + 16 * s.periodUs ≤ s.timeUs)
  let to_ := ((s.masters.zip ports).zip (s.tck.delayPorts ++ List.replicate 2 none)).filter fun x => all || x.1.2 != x.2
  .next (if s.tckState ≠ tckOff ∧ s.follows = true ∧ to_ ≠ [] then
    to_.foldl (fun s x => let p := s.stampNs; p.1.sendControl tyDelayReq 7 x.1.1 (leBytes 8 p.2))
      (s.modTck fun t => { t with delayAt := if all then some s.timeUs else t.delayAt, delayPorts := ports })
  else s)

/-- A master answers a DELAY_REQ that arrived at `atNs` (R257). -/
def State.delayReq (s : State) (src : Nat) (pl : List Byte) (atNs : Nat) : State :=
  if s.tckState ≠ tckOff ∧ (s.tckRole = rolePrimary ∨ s.tckRole = roleStandby) then
    let s := s.modTck fun t => { t with followers := t.followers.filter (fun f => f.1 != src) ++ [(src, s.tick)] }
    let p := s.stampNs
    p.1.sendControl tyDelayResp 7 src (slice pl 0 8 ++ leBytes 8 atNs ++ leBytes 8 (Nat.max atNs p.2))
  else s

/-- R188, R257: a DELAY_RESP that arrived by port `p` at `atNs`. -/
def State.delayResp (s : State) (p : Nat) (pl : List Byte) (atNs : Nat) : State :=
  if s.tckState ≠ tckOff ∧ s.follows = true then
    let rtt : Int := ((atNs : Int) - leAt pl 0 8) - ((leAt pl 16 8 : Int) - leAt pl 8 8)
    let d := rtt / 2 + sext 16 (s.fget (F.TCK_ASYM_ASYM_NS p))
    let s := s.modTck fun t => { t with delays := t.delays.set p d }
    if 500 * (s.cutUs : Int) - 500 < d then (s.fset F.TCK_STAT_PATH_LONG 1).raise 0x0409 none p [] else s
  else s

/-- R191, R199: a slip request reaches a master; one for a tick whose list is closed is dropped and counted. -/
def State.slipReq (s : State) (pl : List Byte) : State :=
  let n := leAt pl 0 6
  let g := leAt pl 6 2
  if s.tckState = tckOff ∨ (s.tckRole ≠ rolePrimary ∧ s.tckRole ≠ roleStandby) then s
  else if n ≤ s.tick ∨ n = s.tck.closed then s.fadd F.TCK_OVR_CNT_LATE 1
  else s.modTck fun t => t.gathered n g (bits (leAt pl 8 1) 1 0)

/-- The whole list of a tick's cells disciplines the time base (R190): `est` is the estimate of the target in local time. -/
def State.discipline (s : State) (which n : Nat) (est : Int) (period cut : Nat) : State :=
  let st := s.tckState
  let s := s.modTck fun t => if which = 0 then { t with lastAt := s.timeUs } else { t with stbAt := s.timeUs }
  let back : Bool := st == tckHoldover || st == tckLost
  let s := if back then
      let s := if s.fget F.TCK_STAT_SRC = which then s else (s.fset F.TCK_STAT_SRC which).raise 0x0405 none 0 []
      ((s.fset F.TCK_HOLD_ELAPSED_MS 0).raise 0x0408 none 0 []).setTck (if st = tckLost then tckAcquiring else tckLocked)
    else s
  let s := if back then s.modTck fun t => { t with good := 0 } else s
  if which ≠ s.fget F.TCK_STAT_SRC then s
  else
    let off : Int := if s.tck.nextNs = 0 then 0 else (s.tck.nextNs : Int) - est
    let first : Bool := s.tck.nextNs == 0
    let s := s.rset R.TCK_OFFSET (wrap 32 off)
    if s.tckState = tckAcquiring then
      let good := if first = false ∧ off.natAbs ≤ 20 then s.tck.good + 1 else 0
      let s := { s with tick := (n + 2 ^ 48 - 1) % 2 ^ 48 }.modTck fun t => { t with nextNs := est.toNat, good := good }
      let s := (s.fset F.TCK_PERIOD_PERIOD_US period).fset F.TCK_PERIOD_SLIP_CUT cut
      if 8 ≤ good then s.setTck tckLocked else s
    else s

/-- R190, R257: a tick cell from `src` that arrived by port `p` at `atNs`. -/
def State.tickCell (s : State) (p src : Nat) (pl : List Byte) (atNs : Nat) : State :=
  let which : Option Nat :=
    if src = s.fget F.TCK_PRI_FAB_FAB then some 0
    else if src = s.fget F.TCK_STB_FAB_FAB ∧ src ≠ 0 ∧ s.tckRole = roleFollower then some 1
    else none
  match which with
  | none => s
  | some w =>
    if s.tckState = tckOff ∨ s.follows = false then s
    else
      let n := leAt pl 0 6
      let fl := leAt pl 6 1
      let whole := !bit fl 2
      let gs := (List.range (Nat.min 112 (leAt pl 19 1))).map fun i => leAt pl (32 + 2 * i) 2
      let old := s.tck.lists.find? fun l => l.src == w && l.tick == n
      let l : TickList := match old with
        | some l => { l with groups := l.groups ++ gs, whole := l.whole || whole }
        | none => ⟨w, n, leAt pl 8 8, gs, whole⟩
      let s := s.modTck fun t => { t with lists := t.lists.filter (fun l => !(l.src == w && l.tick == n)) ++ [l] }
      let s := if bit fl 1 ∧ s.tck.change = none ∧ s.tick < leAt pl 20 6 then
          s.announce (leAt pl 20 6) (leAt pl 26 2) (leAt pl 28 1)
        else s
      if l.whole = false then s
      else
        let est : Int := (atNs : Int) + 500 * leAt pl 18 1 - s.tck.delays.get 0 p
        s.discipline w n est (leAt pl 16 2) (leAt pl 18 1)

/-- R190: no valid cell from the source in use for more than two periods (one missing cell is none): the follower switches to the other master where its cells
arrive, else holds over. -/
def execTickHoldover (s : State) : Host.Outcome State Fault Refusal :=
  let src := s.fget F.TCK_STAT_SRC
  let fresh := fun t => decide (s.timeUs ≤ t + 2 * s.periodUs)
  let mine := if src = 0 then s.tck.lastAt else s.tck.stbAt
  let other := if src = 0 then s.tck.stbAt else s.tck.lastAt
  .next (if s.tckState ≠ tckLocked ∨ s.follows = false ∨ fresh mine = true then s
    else if s.tckRole = roleFollower ∧ s.fget F.TCK_STB_FAB_FAB ≠ 0 ∧ other ≠ 0 ∧ fresh other = true then
      (s.fset F.TCK_STAT_SRC (1 - src)).raise 0x0405 none 0 []
    else ((s.modTck fun t => { t with hold := s.timeUs }).setTck tckHoldover).raise 0x0406 none 0 [])

/-- R190: HOLDOVER has lasted HOLD_MAX. -/
def execTickLost (s : State) : Host.Outcome State Fault Refusal :=
  let m := s.fget F.TCK_HOLD_HOLD_MAX
  .next (if s.tckState = tckHoldover ∧ s.tck.hold + 1000 * m ≤ s.timeUs then
    ((s.fset F.TCK_HOLD_ELAPSED_MS m).setTck tckLost).raise 0x0407 none 0 []
  else s)

/-! ### Step boundaries -/

/-- Every engine of context `c` stops. -/
def State.haltCores (s : State) (c : Nat) : State :=
  (s.occupied c).foldl (fun s g => s.modCore g fun k => { k with stopped := true }) s

/-- R312, R336, R338: what a step boundary does: a due imposition, the boundary registers, the resilience table and the
background tasks. -/
def State.boundary (s : State) (c : Nat) : State := ((s.impositionDue c).latch c).boundaryWork c

/-- A pending stop is over. -/
def State.stopDone (s : State) (c : Nat) : State :=
  (((s.modCtx c fun x => { x with stop := none }).fset (F.CTX_STAT_STOP_PENDING c) 0).completeAll c 4 stOk).completeAll c 5 stOk

/-- R212, R213: the cores of a context that leaves them between steps: free, with nothing carried over. -/
def State.leaveCores (s : State) (c : Nat) : State :=
  ((s.occupied c).foldl (fun s g => s.blankCore c g) s).idleCores c

/-- R209: no steps are left: the context is IDLE. A pending stop has nothing to stop. -/
def State.goIdle (s : State) (c : Nat) : State :=
  ((s.leaveCores c).modCtx c fun x => { x with launch := none, ran := false, counts := [] }).setCtxState c ctxIdle |>.stopDone c
    |>.showSteps c

/-- R209, R222: a stop on a step boundary writes no image, but the header (R266). -/
def State.saveEmpty (s : State) (c : Nat) : State :=
  let s := (((s.putHeader c).leaveCores c).modCtx c fun x => { x with launch := none, ran := false, busyTold := false }).setCtxState
    c ctxSaved
  ((s.fset (F.CTX_TIME_SAVE_US c) 0).raise 0x0423 (some c) 0 []).stopDone c

/-- Whether a PREEMPT is due at tick `n` (R219). -/
def Ctx.preemptDue (x : Ctx) (n : Nat) : Bool :=
  match x.stop with
  | some p => match p.preempt with
    | some none => true
    | some (some t) => decide (t ≤ n)
    | none => false
  | none => false

def Ctx.stopDue (x : Ctx) (n : Nat) : Bool := x.preemptDue n || (match x.stop with | some p => p.save | none => false)

/-- The context leaves its step: IDLE without steps left, SAVED where a stop acts, else RUNNING. The Bool says that it
goes on. -/
def State.afterStep (s : State) (c n : Nat) : State × Bool :=
  if s.stepsLeft c = 0 then (s.goIdle c, false)
  else if (s.ctx c).stopDue n then (s.saveEmpty c, false)
  else (s, true)

/-- R325, R302, R337, R338: a step ends normally at tick `n`. -/
def State.endNormal (s : State) (c n : Nat) : State × Bool :=
  let s := ((s.cutStep c stOk).showSteps c).readNf c
  let s := if (s.coll c).verdict.isSome then s.stepMonitor c else s
  let s := ((s.noiseStep c).fset (F.RES_STAT_LIVE_VALID c) 1).fset (F.RES_LIVE_GEN_LIVE_GEN c) (s.ctx c).step
  ((s.modColl c fun k => { k with tasksOff := false }).boundary c).afterStep c n

/-- A step that ends early on this module with `status`; the monitor runs where it has written its verdict (R325). -/
def State.endEarly (s : State) (c n status : Nat) : State :=
  let s := (((s.haltCores c).cutStep c status).showSteps c).readNf c
  let s := if (s.coll c).verdict.isSome ∧ status ≠ stMemberLost then s.stepMonitor c else s
  let s := s.modColl c fun k => { k with weights := false }
  ((s.modCtx c fun x => { x with streams := [] }).boundary c |>.afterStep c n).1

/-- R292: every open bucket of context `c` becomes ABANDONED; event 0x0607 once in a step. -/
def State.abandonBuckets (s : State) (c : Nat) : State :=
  let gone := (s.coll c).buckets.filter (·.opened)
  let key := 2 ^ 45
  let s := if (s.coll c).told.contains key then s else s.raise 0x0607 (some c) 0 []
  let s := s.modColl c fun k => { k with
    told := if k.told.contains key then k.told else key :: k.told
    buckets := k.buckets.map (fun b => if b.opened then { b with st := .abandoned } else b)
    frames := k.frames.filter fun u =>
      let tag := u.tag
      !(gone.any fun b => b.iepoch == bits tag 59 44 && b.idx == bits tag 27 12 && b.step % 65536 == bits tag 43 28) }
  let s := { s with xfers := s.xfers.filter fun x => match x.owner with
    | .unit d _ _ _ _ _ _ _ _ => d != c
    | .refetch d _ _ _ _ _ => d != c
    | _ => true }
  (s.countOpen c).fset (F.RES_STAT_GATE_WAIT c) 0

/-- R341, R348: the step of context `c` ends with the member-lost status: its tasks stop, and no steps are left. -/
def State.cutLost (s : State) (c n : Nat) : State :=
  (((s.endTasks c).modColl c fun k => { k with tasksOff := true }).modCtx c fun x => { x with counts := [] }).endEarly c n stMemberLost

/-- R292, R341, R348: the collectives of context `c` have failed with MEMBER_LOST. -/
def State.loseMember (s : State) (c n : Nat) : State :=
  let cut : Bool := (s.ctx c).pos.inStep && !(s.ctx c).posted
  let s := (s.abandonBuckets c).modColl c fun k => { k with lost := false }
  if cut then s.cutLost c n else s

/-- R292, R348 for a stopped context: its open buckets are ABANDONED and its step ends, so that its image serves no more and it
is IDLE. A migration under way fails first (R230), and a RESTORE has nothing to restore (DEDUCED, assumption 48). -/
def State.loseStopped (s : State) (c n : Nat) : State :=
  let s := (s.abandonBuckets c).modColl c fun k => { k with lost := false }
  if (s.ctx c).pos.inStep && !(s.ctx c).posted then
    let s := if s.ctxState c = ctxMigrating then s.migrateFailed c 1 else s
    let s := (((s.modCtx c fun x => { x with saved := [], landing := [], launch := none }).fset (F.CTX_LAND_FILL c) 0).fset
      (F.CTX_STAT_IMAGE c) 0).fset (F.CTX_STAT_BP c) 0
    let mine := fun (x : Xfer) => match x.owner with | .desc _ _ _ => x.ctx == c | _ => false
    let s := { s with xfers := s.xfers.filter (fun x => !mine x), ended := s.ended.filter fun y => !mine y.1 }
    ((s.completeWaiting c stBadState).completeAll c 6 stBadState).cutLost c n
  else s

/-! ### Impressions and steps -/

/-- R322: the weight streams of impression `i` begin; one of no bytes is complete. -/
def State.startStreams (s : State) (c i : Nat) (f : Forme) : State :=
  let l := ((List.range f.streams.length).zip f.streams).filter fun p => p.2.imp == i
  let s := s.modCtx c fun x => { x with
    streams := x.streams.filter (fun y => l.all fun p => p.1 != y.idx) ++ (l.filter fun p => p.2.bytes != 0).map fun p =>
      ⟨p.1, 0, .empty, [], s.timeUs, false, false⟩ }
  (l.filter fun p => p.2.bytes == 0).foldl (fun s p => s.quoinAdd (s.streamCore c p.2) p.2.cq 1) s

/-- R105, R148, R177, R194: impression `i`, or its retry path, starts; at a launch its threads wait for their ramp. Each start
adds 1 to the impression count, so the first impression runs at 1 (DEDUCED, assumption 27). -/
def State.startImpression (s : State) (c i : Nat) (retry ramp : Bool) : State :=
  match (s.ctx c).forme with
  | none => s
  | some f =>
    let s := s.modCtx c fun x => { x with
      pos := ⟨true, i, retry⟩, overrun := false, slipTicks := 0, retryWant := false
      launchAt := if ramp then s.timeUs else x.launchAt }
    let s := s.fset (F.CTX_IMP_IMP_COUNT c) ((s.fget (F.CTX_IMP_IMP_COUNT c) + 1) % 4095)
    let s := s.fset (F.CTX_IMP_IMP_POS c) i
    let s := if retry then s.modCtx c fun x => { x with
        retried := x.retried ++ ((f.imps[i]?).map fun r => (r.retryIdx, s.timeUs)).toList }
      else s.modColl c fun k => { k with impAts := k.impAts.take i ++ [s.timeUs] }
    let s := if retry then s else s.startStreams c i f
    match s.impRec c with
    | none => s
    | some r =>
      f.coreList.foldl (fun s g =>
        if ramp then s.modCore g fun k => { k with stopped := true, restored := false, started := [], impDone := false, replays := 0 }
        else (s.startThreads f r g).pump g) s

/-- R101, R207: the monitor entries of the context are cleared; the peaks of the last step are kept. DESIGN CHOICE
(assumption 92): nothing reads them: the spec gives the scale-history code no register or instruction for it. -/
def State.clearMonitors (s : State) (f : Forme) : State :=
  f.mons.foldl (fun s m =>
    (s.modDie m.die fun d =>
      let e := d.mon.get MonEntry.zero m.entry
      { d with mon := d.mon.set m.entry { MonEntry.zero with
          lastP := if e.peakP.isSome then e.peakP else e.lastP, lastQ := if e.peakQ.isSome then e.peakQ else e.lastQ } }).quoinSet
      (32 * m.die) m.vq 0) s

/-- The work of a bucket at a step's start: every segment in every direction. -/
def Lay.freshWork (l : Lay) : List SegWork :=
  ((List.range l.segCount).map fun k => l.dirs.map fun d => SegWork.mk k d [] 0 Trailer.zero 0 false 0 0 [] false).flatten

/-- R265: the buckets of the step, WAITING; those of a draining epoch go on. -/
def State.freshBuckets (s : State) (c : Nat) : State :=
  let e := s.curEpoch c
  let step := (s.ctx c).step
  let old := (s.coll c).buckets.filter fun b => b.iepoch != e && b.opened
  let new := (List.range (s.slotsSec c).buckets.length).map fun i =>
    Bucket.mk i e step .waiting false false 0 0 (((s.lay c i e).map Lay.freshWork).getD []) .empty .empty [] s.timeUs
  let keep := fun (u : UnitIn) =>
    let tag := u.tag
    if bits tag 59 44 = e then bits tag 43 28 == step % 65536 else old.any fun b => b.iepoch == bits tag 59 44
  (s.modColl c fun k => { k with buckets := old ++ new, frames := k.frames.filter keep }).countOpen c

/-- R55, R93, R101, R212, R293: step `STEP + 1` starts, or a step that runs again keeps its number (R268). -/
def State.startStep (s : State) (c : Nat) (ramp : Bool) : State :=
  match (s.ctx c).forme, (s.ctx c).counts.find? fun k => k.left != 0 with
  | some f, some k =>
    let x := s.ctx c
    let s := if ramp then s.launchClocks else s
    let carry := s.lateFlags c
    let counts := (x.counts.dropWhile fun k => k.left == 0).tail
    let s := s.modCtx c fun y => { y with
      counts := if k.left = 1 then counts else { k with left := k.left - 1 } :: counts
      stepRing := k.ring, stepTag := k.tag
      step := if x.coll.rerun then y.step else (y.step + 1) % 2 ^ 32
      suspect := s.fget (F.RES_STAT_FP_HOLD c) == 1, rangeFlag := false, outcome := 0, posted := false
      retryLeft := f.retryRsv, pos := ⟨true, 0, false⟩, launch := none, retried := [], slipping := false, slipEnd := 0 }
    let s := s.modColl c fun k => { k with
      verdict := none, lastStarted := false, bound := .fresh, gateTold := false, told := [], carry := carry, sent := 0, slack := 0
      gathering := false, rerun := false, nf := List.replicate 6 0, weights := false, impAts := [] }
    let s := (s.clearMonitors f).freshBuckets c
    let s := f.coreList.foldl (fun s g => s.freshCore c g) s
    (s.showSteps c).startImpression c 0 false ramp
  | _, _ => s

/-- Whether a step may start (R27, R190, R193, R397). -/
def State.mayStart (s : State) (c : Nat) (ramp : Bool) : Bool :=
  let st := s.tckState
  (s.ctx c).counts.any (fun k => k.left != 0) && s.planeUp 1 && !s.backlogBlocks c && s.paramsFit c
    && (!s.spans c || (if ramp then st == tckLocked || st == tckHoldover else st != tckLost))

def State.nextStep (s : State) (c : Nat) (ramp : Bool) : State := if s.mayStart c ramp then s.startStep c ramp else s

/-- R198 step 2: the next impression of the schedule, or the end of the step. -/
def State.advance (s : State) (c n : Nat) (ramp : Bool) : State :=
  if s.lastImp c then
    let (s, on) := s.endNormal c n
    if on then s.nextStep c ramp else s
  else s.startImpression c ((s.ctx c).pos.imp + 1) false ramp

/-- R99, R199: whether the retry path of the impression in progress can run. -/
def State.canRetry (s : State) (c : Nat) : Bool :=
  let x := s.ctx c
  x.retryWant && decide (0 < x.retryLeft) && (match x.forme with
    | some f => (match f.imps[x.pos.imp]? with | some r => r.hasRetry | none => false)
    | none => false)

/-- The retry path starts and takes one impression of the reserve. -/
def State.startRetry (s : State) (c : Nat) (ramp : Bool) : State :=
  (s.modCtx c fun x => { x with retryLeft := x.retryLeft - 1 }).startImpression c (s.ctx c).pos.imp true ramp

/-- R199: a slip at tick `n` whose requests ask for a retry takes one impression of the reserve, on a member that overruns too.
Its own request says so; where the module does not know the others' flags, a slip after a VERDICT impression may be one or
not: a free value (DEDUCED, assumption 56). -/
def State.otherRetry (s : State) (c n : Nat) : State :=
  let x := s.ctx c
  let v : Bool := match s.impRec c with | some r => r.verdict | none => false
  let (s, retry) : State × Bool :=
    match s.slipFlags c n with
    | some f => (s, bit f 0)
    | none => if x.retryWant then (s, true) else if v then (s.freeVal.1, bit s.freeVal.2 0) else (s, false)
  if retry = true ∧ 0 < x.retryLeft then s.modCtx c fun y => { y with retryLeft := y.retryLeft - 1 } else s

/-! ### Stops (R217, R219 to R222) -/

/-- R220: core `g` quiesces: tiles in flight finish and retire, OPEN groups are parked, an MFLUSH that has started completes,
local requests in flight complete, and nothing new issues. -/
def State.quiesceCore (s : State) (c g : Nat) : State :=
  let s := s.modCore g fun k => { k with stopped := true }
  let s := iter 64 (fun _ s => if (s.core g).mxeFrozen then s else tileVerdict g s) s
  let s := s.modCore g fun k => { k with
    groups := k.groups.map fun x => if x.st = .opened then { x with st := .stopped } else x }
  let s := (List.range 4).foldl (fun s d => ((s.die d).flushes.filter fun f => f.core == g).foldl (fun s f => s.takeFlush d f) s) s
  ((s.core g).slots.filter fun x => x.req.kind == .copy || x.req.kind == .zero).foldl (fun s x => s.landReq g c x) s

/-- R219, R220: the context stops inside a step. -/
def State.quiesce (s : State) (c : Nat) : State :=
  let gs := s.occupied c
  let s := gs.foldl (fun s g => s.modCore g fun k => { k with impDone := k.impDone || (s.live g && s.coreDone g) }) s
  let s := (gs.foldl (fun s g => s.quiesceCore c g) s).readNf c
  ((s.modCtx c fun x => { x with stop := none, stopAt := s.timeUs, ran := false, busyTold := false }).fset (F.CTX_STAT_STOP_PENDING c) 0).setCtxState
    c ctxSaving

/-- R217: the context's engines stop, and it is FAULTED; its step and its commands under way end so. -/
def State.faultNow (s : State) (c : Nat) : State :=
  let s := ((s.haltCores c).cutStep c stFaulted).showSteps c
  let s := [4, 5, 6, 7].foldl (fun s o => s.completeAll c o stFaulted) s
  let s := (s.completeWaiting c stFaulted).modCtx c fun x => { x with faultStop := false, launch := none, stop := none, ran := false }
  let s := s.modColl c fun k => { k with tasks := k.tasks.filter fun t => t.kind != .migrate }
  (s.fset (F.CTX_STAT_STOP_PENDING c) 0).setCtxState c ctxFaulted

/-! ### One context at a tick -/

/-- R198 for a context inside a step at tick `n`. -/
def State.stepTick (s : State) (c n : Nat) : State :=
  let x := s.ctx c
  let ended := x.posted || s.impEnded c
  let unanswered : Bool := !s.slipsAlone c && (s.tckState == tckHoldover || s.tckState == tckLost)
  let stop := x.preemptDue n
  let breakStep := fun (s : State) =>
    ((s.fset F.TCK_STAT_BREAK_SEEN 1).raise 0x0404 (some c) 0 []).endEarly c n stScheduleBreak
  if s.slips c n then
    let s := s.modCtx c fun y => { y with slipping := true }
    if stop then (if ended = false ∨ x.retryWant = false then s.otherRetry c n else s).quiesce c
    else if ended = false then (s.otherRetry c n).modCtx c fun y => { y with slipTicks := y.slipTicks + 1 }
    else if s.canRetry c then s.startRetry c false
    else if x.retryWant then s.modCtx c fun y => { y with retryWant := false }
    else s.otherRetry c n
  else
    let s := s.modCtx c fun y => { y with
      retryWant := false, slipping := false, slipEnd := if y.slipping then s.timeUs else y.slipEnd }
    if stop then (if ended ∧ s.lastImp c = true then (s.endNormal c n).1 else s.quiesce c)
    else if ended = false ∨ (unanswered = true ∧ x.retryWant = true) then breakStep s
    else s.advance c n false

/-- R198, R209, R212, R219, R292, R323: a RUNNING context at tick `n`. -/
def State.runTick (s : State) (c n : Nat) : State :=
  let x := s.ctx c
  if x.coll.lost then (if x.pos.inStep && x.posted then (s.loseMember c n).stepTick c n else s.loseMember c n)
  else if x.coll.weights ∧ x.pos.inStep ∧ x.posted = false then s.endEarly c n stWeights
  else if x.pos.inStep then s.stepTick c n
  else
    let s := s.boundary c
    if s.stepsLeft c = 0 then s.goIdle c
    else if x.stopDue n then s.saveEmpty c
    else if s.slips c n then s
    else s.nextStep c (!x.ran)

/-- R341: a context that a migration brought in the middle of a step starts its stopped tasks with its first launch, since its
LAST bucket waits for them (R339; DEDUCED, assumption 102); the boundary at the step's end is still to come. -/
def State.firstBoundary (s : State) (c : Nat) : State :=
  if (s.coll c).bound = .moved then ((s.latch c).boundaryWork c).modColl c fun k => { k with bound := .fresh } else s

/-- R223: a RESTORING context launches at the first tick, or the named one, at which every core has been restored. -/
def State.restoreTick (s : State) (c n : Nat) : State :=
  let x := s.ctx c
  match x.launch with
  | none => s
  | some l =>
    let due : Bool := match l.atTick with | none => true | some t => decide (t ≤ n)
    let st := s.tckState
    let here := (s.chaseCoresOf c).all fun g => s.occupant g == some c
    let may : Bool := l.restore && due && here && x.saved.isEmpty && s.fget (F.CTX_STAT_IMAGE c) == 0
      && (!s.spans c || st == tckLocked || st == tckHoldover)
    if may = false ∨ (x.pos.inStep = false ∧ s.stepsLeft c ≠ 0 ∧ s.mayStart c true = false) then s
    else
      let s := ((s.modCtx c fun y => { y with launch := none, launchAt := s.timeUs }).setCtxState c ctxRunning).completeAll c 6 stOk
      let s := s.launchClocks
      if x.coll.lost then s.loseMember c n
      else if x.pos.inStep = false then
        let s := s.boundary c
        if s.stepsLeft c = 0 then s.goIdle c else if s.slips c n then s else s.startStep c true
      else
      let s := s.firstBoundary c
      if s.coresEnded c = false then s
      else if s.canRetry c then s.startRetry c true
      else if s.slips c n then s.otherRetry c n
      else s.advance c n true

/-- One context at tick `n` (R198, R217, R223, R231). -/
def State.ctxTick (s : State) (c n : Nat) : State :=
  let x := s.ctx c
  let v := s.ctxState c
  if v = ctxTearing then
    if x.tearing.isSome then s else (s.haltCores c).modCtx c fun y => { y with tearing := some s.timeUs }
  else if v = ctxFaulted then
    if s.fget (F.CTX_CFG_HOLD_ON_FAULT c) = 0 ∧ s.fget F.MGT_PLANE_STAT_MGMT_DOWN = 0 then s.startTeardown c else s
  else if x.faultStop then s.faultNow c
  else
    let s := s.repairAgain c
    let s := if x.coll.lost = true ∧ s.stoppedCtx c = true then s.loseStopped c n else s
    let s := if v = ctxRunning then s.runTick c n else if v = ctxRestoring then s.restoreTick c n
      else if v = ctxIdle ∧ x.coll.lost = true then s.loseMember c n else s
    s.modCtx c fun y => { y with ran := s.ctxState c == ctxRunning && y.pos.inStep }

/-! ### The tick -/

/-- R198: SLIPS counts the module's tick groups that slip at tick `n`. -/
def State.countSlips (s : State) (n : Nat) : State :=
  let gs := (((List.range 8).filter fun c => s.ctxState c == ctxRunning && s.slips c n).map fun c =>
    s.fget (F.CTX_CFG_TICK_GROUP c)).dedup
  s.fadd F.TCK_OVR_CNT_SLIPS gs.length

/-- R190: a follower slews by 10 ns per tick while its offset exceeds 20 ns. -/
def State.slew (s : State) : State :=
  let off := sext 32 (s.rget R.TCK_OFFSET)
  if s.follows = true ∧ s.tckState = tckLocked ∧ 20 < off.natAbs then
    s.modTck fun t => { t with nextNs := if 0 < off then t.nextNs - 10 else t.nextNs + 10 }
  else s

/-- R24, R198: the tick unit fires. -/
def State.fireTick (s : State) : State :=
  let n := s.nextTick
  let s := s.applyChange n
  let missed : Bool := s.follows && s.tck.lists.all fun l => !(l.tick == n && l.whole)
  let s := if missed then s.modTck fun t => { t with good := 0 } else s
  let s := { s with tick := n }.countSlips n
  let s := (List.range 8).foldl (fun s c => s.ctxTick c n) s
  let s := s.modTck fun t => { t with
    lists := t.lists.filter fun l => decide (n < l.tick)
    gather := t.gather.filter fun g => decide (n < g.1)
    alone := [], nextNs := t.nextNs + 1000 * s.periodUs }
  s.slew.flush

/-- IMPRESSION_TICK (R198). -/
def execImpressionTick (s : State) : Host.Outcome State Fault Refusal := .next (if s.tickDue then s.fireTick else s)

/-- R223, R194: core state as a launch at `now` takes it up: groups the device parked are OPEN again, and every watchdog
counts from here. -/
def Core.takeUp (k : Core) (now : Nat) : Core :=
  { k with
    stopped := false
    restored := false
    mxeAt := now
    vxeAt := now
    xfeAt := now
    thrAt := List.replicate 8 now
    groups := k.groups.map fun x => if x.st = .stopped then { x with st := .opened } else x
    refetch := k.refetch.map fun r => { r with since := now } }

/-- R194: ramp group `k` of a launch starts, 2 µs × k after the tick. -/
def State.rampStart (s : State) (c k : Nat) : State :=
  let x := s.ctx c
  if s.ctxState c ≠ ctxRunning ∨ x.ran = false ∨ s.timeUs < x.launchAt + 2 * k then s
  else match x.forme with
    | none => s
    | some f =>
      (f.coreList.filter fun g => g % 8 == k && (s.core g).stopped).foldl (fun s g =>
        let back := (s.core g).restored
        let s := s.modCore g fun y => y.takeUp s.timeUs
        let s := if back then s else match s.impRec c with
          | some r => s.startThreads f r g
          | none => s
        ((s.reawait g).settle g).pump g) s

def execRampStart (c : CtxId) (k : Fin 8) (s : State) : Host.Outcome State Fault Refusal := .next (s.rampStart c k).flush

/-! ### The end of an impression on a core (R106, R326, R395, R397) -/

/-- R326: the slack of an impression that ends now: whole µs to the cutoff of the next tick; 0 after an overrun. -/
def State.addSlack (s : State) (c : Nat) : State :=
  let x := s.ctx c
  if x.overrun ∨ x.coll.gathering ∨ s.tck.nextNs = 0 then s
  else s.modColl c fun k => { k with slack := satAdd 0xFFFF k.slack ((s.tck.nextNs - 1000 * s.cutUs - s.nowNs) / 1000) }

/-- Whether a monitor entry of context `c` has its flushes and no verdict yet (R96). -/
def State.verdictDue (s : State) (c : Nat) : Bool :=
  match (s.ctx c).forme with
  | none => false
  | some f => f.mons.any fun m =>
    let e := (s.die m.die).mon.get MonEntry.zero m.entry
    !e.decided && decide (0 < e.flushes) && decide (m.prod ≤ e.flushes)

/-- R397: the step record of a step whose last impression has ended is posted before the tick, once its verdicts are known and
ask for no retry. -/
def State.postStep (s : State) (c : Nat) : State :=
  let x := s.ctx c
  if x.pos.inStep = true ∧ s.lastImp c = true ∧ s.impEnded c = true ∧ x.retryWant = false ∧ s.verdictDue c = false ∧ x.coll.lost = false ∧ x.coll.weights = false
      ∧ x.faultStop = false ∧ x.posted = false ∧ s.ctxState c = ctxRunning then
    (s.stepRecord c stOk).modCtx c fun y => { y with posted := true }
  else s

def State.impressionEnd (s : State) (g : Nat) : State :=
  match s.occupant g with
  | none => s
  | some c =>
    if s.live g = true ∧ (s.ctx c).pos.inStep = true ∧ (s.core g).impDone = false ∧ s.coreDone g = true then
      let s := s.modCore g fun k => { k with impDone := true }
      if (s.chaseCoresOf c).all fun h => (s.core h).impDone then (s.addSlack c).postStep c else s
    else s

/-- IMPRESSION_END (R106): core `g` has finished its impression. -/
def execImpressionEnd (g : CoreId) (s : State) : Host.Outcome State Fault Refusal := .next (s.impressionEnd g)

/-- RANGE_VERDICT (R96 to R100); the last verdict of a step that has ended lets its record be posted (R397). -/
def execRangeVerdict (d : DieId) (e : Fin 64) (s : State) : Host.Outcome State Fault Refusal :=
  if s.clockStopped (some d.val) then .next s
  else
  let s := rangeVerdict d e s
  .next (match s.formes.find? fun p => p.2.mons.any fun m => m.die == d && m.entry == e with
    | none => s
    | some p => s.postStep p.1)

end Sys2Proof.Machine
end

