-- ==== Sys2Proof/Machine/Arrivals.lean ====
section
/-!
DEFINITION. What arriving cells do (R218, R225, R232, R246 to R252, R257 to R262, R281, R154), and the timers of
outstanding requests (R228, R251).
-/

namespace Sys2Proof.Machine

/-! ### The end-to-end check (R249, R250) -/

/-- Whether CHECK of the cell's bytes passes under fold `f`. -/
def checkPasses (f : Nat) (raw : List Byte) : Bool := crc32cSeeded f (raw.take 272) == leAt raw 272 4

/-- R250: a failed check is counted, and event 0x0506 names the peer, at most once per millisecond per peer. -/
def State.classify (s : State) (p : Nat) (c : Cell) (raw : List Byte) (land : Nat) : State :=
  let me := s.fget F.FAB_SELF_FAB
  let s :=
    if checkPasses (foldOf me land c.seq) raw then s.fadd F.FAB_E2E_CNT1_REORDER 1
    else if checkPasses (foldOf c.dst land c.seq) raw then s.fadd F.FAB_E2E_CNT0_MISDIR 1
    else s.fadd F.FAB_E2E_CNT0_CORRUPT 1
  let key := 2 ^ 44 + c.src
  let recent : Bool := match s.lastEvent.find key with | some t => decide (s.timeUs < t + 1000) | none => false
  if recent then s else { s with lastEvent := s.lastEvent.set key s.timeUs }.raise 0x0506 none p [c.src]

/-- The cell at the front of port `p`'s accepted cells, where it is of type `ty`, with its bytes. -/
def State.front (s : State) (p ty : Nat) : Option (Cell × List Byte) :=
  match (s.link p).rxq with
  | [] => none
  | raw :: _ => if (Cell.parse raw).type = ty then some (Cell.parse raw, raw) else none

def State.pop (s : State) (p : Nat) : State := s.modLink p fun l => { l with rxq := l.rxq.tail }

def State.rxFlow (s : State) (fab tc : Nat) : RxFlow := ((s.peer fab).map fun p => p.rx.get RxFlow.new tc).getD RxFlow.new
def State.modRx (s : State) (fab tc : Nat) (f : RxFlow → RxFlow) : State :=
  s.modPeer fab fun p => { p with rx := p.rx.set tc (f (p.rx.get RxFlow.new tc)) }

/-- What R250 makes of a data cell: dropped before its SEQ is accepted, accepted and dropped for its epoch or for a reserved
encoding (R11), or delivered. -/
inductive RxRes where
  | dropped | passed | deliver
  deriving DecidableEq, Repr

/-- R250 for a data cell that would land at `land`. -/
def State.rxData (s : State) (p : Nat) (c : Cell) (raw : List Byte) (land : Nat) : State × RxRes :=
  match s.peer c.src with
  | none => (s.fadd F.FAB_SRC_DROP_UNKNOWN 1, .dropped)
  | some q =>
    if q.st ≠ .valid then (s.fadd F.FAB_SRC_DROP_FENCED_SRC 1, .dropped)
    else
      let fl := s.rxFlow c.src c.tc
      if fl.resync = true ∧ c.resync = false then (s.fadd F.FAB_E2E_CNT1_RESYNC_DROP 1, .dropped)
      else
        let exp := if c.resync then c.seq else fl.seq
        let f := foldOf (s.fget F.FAB_SELF_FAB) land exp
        if checkPasses f raw = false then
          let s := (s.classify p c raw land).modRx c.src c.tc fun fl => { fl with resync := true }
          (s.sendAck c.src c.seq 4 exp, .dropped)
        else
          let s := s.modRx c.src c.tc fun fl => { fl with seq := (exp + 1) % 2 ^ 24, resync := false }
          let ep := f ^^^ leAt raw 276 4
          let mine := s.rget R.FAB_MEMB_EPOCH
          if ep = mine then (if c.ok then (s, .deliver) else (s.fadd F.FAB_E2E_CNT0_CORRUPT 1, .passed))
          else (s.fadd (if ep < mine then F.FAB_EPOCH_DROP_STALE else F.FAB_EPOCH_DROP_AHEAD) 1, .passed)

/-- R250 for a control cell: the Bool says that it is delivered. One with a reserved encoding is refused as CORRUPT (R11). -/
def State.rxControl (s : State) (p : Nat) (c : Cell) (raw : List Byte) : State × Bool :=
  let f := foldOf (s.fget F.FAB_SELF_FAB) 0 0
  if checkPasses f raw = false ∨ leAt raw 276 4 ≠ f then (s.classify p c raw 0, false)
  else if c.ok then (s, true) else (s.fadd F.FAB_E2E_CNT0_CORRUPT 1, false)

/-! ### WRITE and BUCKET (R246, R218, R225, R232, R281) -/

/-- A cell of a request of several cells: the request so far with this cell's payload, once it passes R250. A cell with
RESYNC, or one after a LAST cell, is a request's first; a later cell lands after what has come before (R246). -/
def State.rxPart (s : State) (p : Nat) (c : Cell) (raw : List Byte) : State × Option RxReq :=
  let old := if c.resync then none else (s.rxFlow c.src c.tc).req
  let start := match old with | some r => r.addr | none => 64 * c.addr
  let have_ := match old with | some r => r.data | none => []
  let broke := match old with | some r => r.broken | none => false
  match s.rxData p c raw (start + have_.length) with
  | (s, .dropped) => (s, none)
  | (s, res) =>
    let r : RxReq := ⟨0, broke || res == .passed, start, have_ ++ c.used⟩
    let s := s.modRx c.src c.tc fun fl => { fl with req := if c.last then none else some r }
    (s, if c.last ∧ r.broken = false then some r else none)

/-- R229: where a migration's bytes for address `a` land in the slot that takes it: in the area that `migrationAt` names. -/
def Forme.migrationLanding (f : Forme) (a n : Nat) : Option (Nat × Bool) :=
  let j := (a - 2 ^ 47) / 2 ^ 36
  let off := a % 2 ^ 36
  match f.ownAreas[j]? with
  | none => none
  | some r => if 2 ^ 47 ≤ a ∧ off + n ≤ r.len then some (r.base + off, decide (j + 1 = f.ownAreas.length ∧ off + n = r.len)) else none

/-- R229: a migration's write of class TC0 into a LOADED slot; none where it is no such write. -/
def State.migrationWrite (s : State) (c a : Nat) (l : List Byte) : Option State :=
  match if s.ctxState c = ctxLoaded then (s.ctx c).forme.bind fun f => f.migrationLanding a l.length else none with
  | none => none
  | some (x, last) =>
    let s := s.landFor c 0 x l
    some (if last then s.modCtx c fun y => { y with migIn := true } else s)

/-- A whole WRITE request of class `tc` for `c` at `a`: it lands, joins the landing buffer or is refused; the status that
answers it. One of TC0 that brings a fingerprint record lands at the record's place (R331). -/
def State.writeArrives (s : State) (tc c a : Nat) (l : List Byte) : State × Nat :=
  match if tc = 0 then s.migrationWrite c a l else none with
  | some s => (s, 0)
  | none =>
    let r := s.arrival c true a l.length
    let x := if tc = 0 then s.fpLanding c a l else (a, l)
    let s := s.applyArrival c r x.1 x.2
    (if r = .land then s.streamWrite c a l.length else s, r.status)

def State.writeCell (s : State) (p : Nat) : State :=
  match s.front p tyWrite with
  | none => s
  | some (c, raw) =>
    match (s.pop p).rxPart p c raw with
    | (s, none) => s
    | (s, some r) =>
      let (s, st) := s.writeArrives c.tc c.ctx r.addr r.data
      s.sendAck c.src c.seq st 0

/-- WRITE (R250). -/
def execWriteCell (p : PortId) (s : State) : Host.Outcome State Fault Refusal := .next (s.writeCell p).flush

def State.bucketCell (s : State) (p : Nat) : State :=
  match s.front p tyBucket with
  | none => s
  | some (c, raw) =>
    match (s.pop p).rxPart p c raw with
    | (s, none) => s
    | (s, some r) =>
      let (s, st) := s.admitUnit c.ctx r.addr r.data
      let first := (c.seq + 2 ^ 24 + 1 - (r.data.length + 255) / 256) % 2 ^ 24
      s.sendAck c.src c.seq st (if st = 4 then first else 0)

/-- BUCKET (R281): the unit is admitted or refused by Table 9-7. -/
def execBucketCell (p : PortId) (s : State) : Host.Outcome State Fault Refusal := .next (s.bucketCell p).flush

/-! ### READ_REQ and READ_DATA (R246) -/

/-- The answer to a READ_REQ of [a, a+n): READ_DATA cells landing at `ret` for context `ctx` of the requester. -/
def State.sendReadData (s : State) (fab tc ctx ret : Nat) (l : List Byte) : State :=
  let k := (l.length + 255) / 256
  (List.range k).foldl (fun s i =>
    s.sendData tyReadData tc fab ctx (ret + 256 * i) (i + 1 == k) ((l.drop (256 * i)).take 256)) s

def State.readReqCell (s : State) (p : Nat) : State :=
  match s.front p tyReadReq with
  | none => s
  | some (c, raw) =>
    let a := 64 * c.addr
    match (s.pop p).rxData p c raw a with
    | (s, .deliver) =>
      let n := 64 * (leAt c.payload 6 1 + 1)
      let r := s.arrival c.ctx false a n
      if r = .land then
        let (s, ok) := s.checkRead a n (some c.ctx)
        if ok then s.sendReadData c.src c.tc (leAt c.payload 7 1) (leAt c.payload 0 6) (s.bytes a n) else s
      else (s.countRefusal c.ctx r).sendAck c.src c.seq r.status 0
    | (s, _) => s

/-- READ_REQ (R246): answered with READ_DATA cells, or refused. -/
def execReadReqCell (p : PortId) (s : State) : Host.Outcome State Fault Refusal := .next (s.readReqCell p).flush

/-- R226: whether the answer to request `x` finds room where it has to join the landing buffer of a stopped core. -/
def State.answerRoom (s : State) (x : Xfer) : Bool :=
  match x.owner with
  | .desc core _ _ => !s.buffered x.ctx core || s.landRoom x.ctx 1
  | _ => true

/-- R226: an answer from `fab` for context `c` that does not fit is refused with a busy response to its SEQ. -/
def State.answerBusy (s : State) (fab c seq : Nat) : State := (s.countRefusal c .busy).sendAck fab seq 1 0

/-- The whole response to read `x`, whose last cell had SEQ `seq`: it lands at the return address, or joins the landing
buffer of a stopped core, or is refused with a busy response where it does not fit (R226). What a recovery order pulls stays
with the request, and a frozen transfer engine moves no further byte (R217). -/
def State.readDone (s : State) (x : Xfer) (seq : Nat) (l : List Byte) : State :=
  let y := { x with got := l }
  let held : Bool := match x.owner with | .desc core _ _ => !s.buffered x.ctx core && s.xfeHeld core | _ => false
  let land := (if held then s else s.landFor x.ctx (coreOf x.ret) x.ret l).endXfer y .ok
  let stream : Bool := match x.owner with | .pull _ _ _ _ => true | _ => false
  match x.owner with
  | .recover _ _ => s.endXfer y .ok
  | _ =>
    match place x.ret with
    | .reserved => s.countRefusal x.ctx .window
    | .hbm _ | .lpx _ =>
      if s.answerRoom x = false then s.answerBusy x.fab x.ctx seq
      else if stream = true ∧ s.xfeReach x.ctx true x.ret l.length = false then s.countRefusal x.ctx .window
      else land
    | _ =>
      match s.arrival x.ctx true x.ret l.length with
      | .land => land
      | .landing =>
        { s.putLanding x.ctx ⟨.readData, coreOf x.ret, x.ret, l, x.id⟩ with xfers := s.xfers.filter fun z => z.id != x.id }
      | .busy => s.answerBusy x.fab x.ctx seq
      | r => s.countRefusal x.ctx r

def State.readDataCell (s : State) (p : Nat) : State :=
  match s.front p tyReadData with
  | none => s
  | some (c, raw) =>
    let land := 64 * c.addr
    match (s.pop p).rxData p c raw land with
    | (s, .deliver) =>
      let v := s.ctxState c.ctx
      if v = ctxFree ∨ v = ctxTearing ∨ v = ctxFaulted then s
      else match s.xfers.find? fun x => x.kind == .read && x.fab == c.src && x.tc == c.tc && x.ctx == c.ctx
          && x.ret + x.got.length == land with
        | none => s
        | some x =>
          let l := x.got ++ c.used
          if x.len ≤ l.length ∨ c.last = true then
            if x.len ≤ l.length then s.readDone { x with got := [] } c.seq (l.take x.len) else s
          else { s with xfers := s.xfers.map fun y => if y.id = x.id then { y with got := l } else y }
    | (s, _) => s

/-- READ_DATA (R246): the response of a read lands at the requester. -/
def execReadDataCell (p : PortId) (s : State) : Host.Outcome State Fault Refusal := .next (s.readDataCell p).flush

/-! ### ACK (R246, R251) -/

/-- The request at `fab` whose LAST cell had SEQ `seq`, as a list. -/
def State.answered (s : State) (fab seq : Nat) : List Xfer :=
  (s.xfers.filter fun x => x.fab == fab && !x.busy && (x.seq + x.cells - 1) % 2 ^ 24 == seq).take 1

/-- R251: the request that a NAK from `fab` for the cell with SEQ `seq` starts the re-sending at: the one that holds the expected
SEQ `exp`, or, where that was a cell of no outstanding request, the first of the refused cell's flow that is not older. -/
def State.nakedXfer (s : State) (fab seq exp : Nat) : Option Xfer :=
  let mine := s.xfers.filter fun x => x.fab == fab && !x.busy
  match mine.find? fun x => x.covers exp with
  | some x => some x
  | none => (mine.find? fun x => x.covers seq).bind fun y =>
    mine.find? fun x => x.tc == y.tc && decide ((x.seq + 2 ^ 24 - exp) % 2 ^ 24 < 2 ^ 23)

/-- R246, R251, R228, R218, R232: an answer of `status` to the request at `fab` whose LAST cell had SEQ `seq`. -/
def State.ackArrives (s : State) (fab seq status exp : Nat) : State :=
  let mine := s.xfers.filter fun x => x.fab == fab && !x.busy
  let named := mine.find? fun x => (x.seq + x.cells - 1) % 2 ^ 24 == seq
  if status = 4 then
    match s.nakedXfer fab seq exp with
    | some x => s.resend x
    | none => s
  else match named with
    | none => s
    | some x =>
      match status with
      | 0 => if x.kind = .read then s else s.endXfer x .ok
      | 1 => s.busyXfer x
      | 2 => if x.kind = .bucket then s.failXfer x else s.endXfer x .window
      | _ => s.endXfer x .noContext

def State.ackCell (s : State) (p : Nat) : State :=
  match s.front p tyAck with
  | none => s
  | some (c, raw) =>
    match (s.pop p).rxData p c raw 0 with
    | (s, .deliver) =>
      let seq := leAt c.payload 0 3
      let st := leAt c.payload 3 1
      match if st = 4 ∨ st = 1 then none else (s.answered c.src seq).find? fun x => !s.answerRoom x with
      | some x => s.answerBusy c.src x.ctx c.seq
      | none => s.ackArrives c.src seq st (leAt c.payload 4 3)
    | (s, _) => s

/-- ACK (R246): completes, re-sends or retries a request by its status. -/
def execAckCell (p : PortId) (s : State) : Host.Outcome State Fault Refusal := .next (s.ackCell p).flush

/-! ### QUPD (R154, R252) -/

def State.qupdCell (s : State) (p : Nat) : State :=
  match s.front p tyQupd with
  | none => s
  | some (c, raw) =>
    match (s.pop p).rxData p c raw 0 with
    | (s, .deliver) =>
      let k := c.ctx
      let v := s.ctxState k
      let q := leAt c.payload 0 2 % 1024
      let d := leAt c.payload 0 2 / 1024 % 4
      let id := leAt c.payload 4 2
      let owned : Bool := match (s.ctx k).forme with
        | none => false
        | some f => f.quoins.any fun r => r.die == d && r.num == q && r.remote
      if v = ctxFree ∨ v = ctxTearing ∨ v = ctxFaulted then s.sendAck c.src c.seq 3 0
      else if (s.rxFlow c.src c.tc).upd = some id then s.sendAck c.src c.seq 0 0
      else if owned = false then
        ((s.fadd (F.XFE_STAT_RQ_REFUSED (32 * d)) 1).raise 0x030A (some k) (32 * d) [c.src]).sendAck c.src c.seq 0 0
      else
        let s := (s.quoinAdd (32 * d) q (leAt c.payload 2 2)).modRx c.src c.tc fun fl => { fl with upd := some id }
        s.sendAck c.src c.seq 0 0
    | (s, _) => s

/-- QUPD (R154): a remote quoin update is applied once, or dropped. -/
def execQupdCell (p : PortId) (s : State) : Host.Outcome State Fault Refusal := .next (s.qupdCell p).flush

/-! ### Control cells of the tick unit (R187, R188, R191, R257) -/

/-- A control cell of type `ty` is taken by `eff` once it passes R250. -/
def State.control (s : State) (p ty : Nat) (eff : State → Cell → State) : State :=
  match s.front p ty with
  | none => s
  | some (c, raw) =>
    match (s.pop p).rxControl p c raw with
    | (s, true) => eff s c
    | (s, false) => s

/-- TICK (R190): `atNs` is when the cell's first header bit passed the port (R257). -/
def execTickCell (p : PortId) (atNs : Nat) (s : State) : Host.Outcome State Fault Refusal :=
  .next (s.control p tyTick fun s c => s.tickCell p c.src c.payload atNs)

/-- DELAY_REQ (R257). -/
def execDelayReq (p : PortId) (atNs : Nat) (s : State) : Host.Outcome State Fault Refusal :=
  .next (s.control p tyDelayReq fun s c => s.delayReq c.src c.payload atNs)

/-- DELAY_RESP (R257). -/
def execDelayResp (p : PortId) (atNs : Nat) (s : State) : Host.Outcome State Fault Refusal :=
  .next (s.control p tyDelayResp fun s c => s.delayResp p c.payload atNs)

/-- SLIP_REQ (R191). -/
def execSlipReq (p : PortId) (s : State) : Host.Outcome State Fault Refusal :=
  .next (s.control p tySlipReq fun s c => s.slipReq c.payload)

/-! ### MEMBERSHIP and LEAVING (R259 to R262) -/

/-- The fabric addresses of a MEMBERSHIP list: `n` of them at byte `o`. -/
def fabList (pl : List Byte) (o n : Nat) : List Nat := (List.range n).map fun i => leAt pl (o + 3 * i) 3

/-- The parts of epoch `e`, in order, once all are held: PART 0 up to the part without MORE. -/
def wholeParts (l : List MembPart) (e : Nat) : Nat → Nat → Option (List MembPart)
  | 0, _ => none
  | n + 1, k =>
    match l.find? fun m => m.epoch == e && m.part == k with
    | none => none
    | some m => if m.more then (wholeParts l e n (k + 1)).map (m :: ·) else some [m]

/-- R292, R323: the peer at `fab` is gone: the collectives and weight streams that need it fail. -/
def State.peerGone (s : State) (fab : Nat) : State :=
  (List.range 8).foldl (fun s c =>
    let s := if s.lostMember c fab then s.modColl c fun k => { k with lost := true } else s
    s.feedLost c fab) s

/-- R247, R259: an entry rewritten as VALID: the first cell of every flow carries RESYNC. -/
def Peer.renewed (p : Peer) : Peer :=
  { p with st := .valid, tx := p.tx.map fun _ t => { t with resync := true }
           rx := p.rx.map fun _ r => { r with resync := true, req := none } }

/-- R259, R260: an epoch is applied. A module that it removes sends no data cell that still waits. -/
def State.applyEpoch (s : State) (e : Nat) (removed added : List Nat) : State :=
  let me := s.fget F.FAB_SELF_FAB
  let s := (s.rset R.FAB_MEMB_EPOCH e).fset F.FAB_MEMB_STAT_VIEW 1
  let move := fun (p : Peer) =>
    if removed.contains p.fab then { p with st := PeerSt.evicted }
    else if added.contains p.fab ∨ p.st = .left then p.renewed
    else p
  let s := { s with peers := s.peers.map move, parts := s.parts.filter fun m => decide (e < m.epoch) }
  let s := if removed.contains me then { s with links := s.links.map fun _ l =>
      { l with waiting := l.waiting.filter fun w => isControl (Cell.parse w.2).type } } else s
  let s := (s.peers.filter fun p => p.st == .evicted).foldl (fun s p => s.failPeer p.fab []) s
  let s := s.raise 0x0508 none 0 [e]
  let s := removed.foldl State.peerGone s
  if removed.contains me then
    let s := (s.fset F.FAB_MEMB_STAT_FENCED 1).raise 0x0509 none 0 [e]
    (List.range 8).foldl (fun s c => if s.spans c || (s.coll c).buckets.any (·.opened) then
      s.modColl c fun k => { k with lost := true } else s) s
  else if added.contains me then s.fset F.FAB_MEMB_STAT_FENCED 0
  else s

/-- R259: one part of a membership epoch. -/
def State.membership (s : State) (src : Nat) (pl : List Byte) : State :=
  if s.fget F.FAB_MGR_VALID = 0 ∨ src ≠ s.fget F.FAB_MGR_FAB then s.fadd F.FAB_SRC_DROP_UNKNOWN 1
  else
    let e := leAt pl 0 4
    let part := leAt pl 4 1
    if e ≤ s.rget R.FAB_MEMB_EPOCH then s
    else
      let m : MembPart := ⟨e, part, bit (leAt pl 5 1) 0, fabList pl 8 (leAt pl 6 1), fabList pl 128 (leAt pl 7 1)⟩
      let s := { s with parts := s.parts.filter (fun x => !(x.epoch == e && x.part == part)) ++ [m] }
      match wholeParts s.parts e 16 0 with
      | none => s
      | some l => s.applyEpoch e (l.map (·.removed)).flatten (l.map (·.added)).flatten

/-- MEMBERSHIP (R259). -/
def execMembershipCell (p : PortId) (s : State) : Host.Outcome State Fault Refusal :=
  .next (s.control p tyMembership fun s c => s.membership c.src c.payload).flush

/-- R262: the sender of LEAVING has left; an EVICTED entry stays so (R315). Its requests end with the member-lost cause, 9 as
in Table 13-8 (assumption 42). -/
def State.leaving (s : State) (src : Nat) : State :=
  let s := ((s.modPeer src fun p => if p.st = .evicted then p else { p with st := .left }).failPeer src [9]).raise 0x050A none 0 [src]
  s.peerGone src

/-- LEAVING (R262). -/
def execLeavingCell (p : PortId) (s : State) : Host.Outcome State Fault Refusal :=
  .next (s.control p tyLeaving fun s c => s.leaving c.src).flush

/-! ### Timers of outstanding requests (R228, R251) -/

def State.xfer? (s : State) (x : Nat) : Option Xfer := s.xfers.find? fun y => y.id == x

/-- R228: a request that met BUSY is sent again after 2 µs. -/
def execBusyRetry (x : Nat) (s : State) : Host.Outcome State Fault Refusal :=
  .next (match s.xfer? x with
    | some y => if y.busy = true ∧ y.sentAt + 2 ≤ s.timeUs then (s.emit y false).flush else s
    | none => s)

def State.peerTimeout (s : State) (x : Nat) : State :=
  match s.xfer? x with
  | none => s
  | some y =>
    match y.busySince with
    | none => s
    | some t =>
      let key := 2 ^ 41 + y.fab
      if s.timeUs < t + 1000 * s.fget (F.CTX_CFG_PEER_TO_MS y.ctx) ∨ (s.coll y.ctx).told.contains key then s
      else ((s.raise 0x0426 (some y.ctx) 0 [y.fab]).modColl y.ctx fun k => { k with told := key :: k.told }).tellStraggler y.ctx y.fab

/-- R228, R355: a request has met BUSY without a break for the peer timeout. -/
def execPeerTimeout (x : Nat) (s : State) : Host.Outcome State Fault Refusal := .next (s.peerTimeout x)

/-- Whether a cell of request `y` still waits at a port. -/
def State.waitsAtPort (s : State) (y : Xfer) : Bool :=
  s.links.entries.any fun l => l.2.waiting.any fun w =>
    let c := Cell.parse w.2
    w.1 == y.tc && c.dst == y.fab && !isControl c.type && y.covers c.seq

/-- R251: 50 µs without an answer since the request's LAST cell left. -/
def execRequestTimeout (x : Nat) (s : State) : Host.Outcome State Fault Refusal :=
  .next (match s.xfer? x with
    | some y => if y.busy = false ∧ s.waitsAtPort y = false ∧ y.sentAt + 50 ≤ s.timeUs then (s.resend y).flush else s
    | none => s)

end Sys2Proof.Machine
end

