-- ==== Sys2Proof/Machine/Ports.lean ====
section
/-!
DEFINITION. The meanings of the port and link commands (R235 to R243, R254 to R256).
-/

namespace Sys2Proof.Machine

/-- A port starts training (R237). -/
def State.train (s : State) (p : Nat) : State :=
  ((s.setPort p portTraining).modLink p fun l => { l.down with failedAt := s.timeUs }).word p wordTrain 0

/-- R255: a stand-in for role `r`: the lowest-numbered SPARE port of its edge die, else of the other. A port never takes back a
role that it lost (R238). -/
def State.substitute (s : State) (r : Nat) : State :=
  let e := r / 24
  let ps := (List.range 24).map (fun j => 24 * e + j) ++ (List.range 24).map (fun j => 24 * (1 - e) + j)
  match ps.find? fun q => s.portState q == portSpare && !(s.link q).lostRoles.contains r with
  | none => s.raise 0x0504 none r []
  | some q =>
    let s := (s.word q wordActivate 0).setPort q portActive
    ((s.fset (F.FAB_PORT_STAT_SUBST_VALID (q / 24) (q % 24)) 1).fset (F.FAB_PORT_STAT_SUBST_FOR (q / 24) (q % 24)) r).raise
      0x0503 none q [r]

/-- R254: a cell of class `tc` that waited has no port in service: its request, which may have failed by another of its cells,
fails at once, and event 0x050D is raised. -/
def State.noRoute (s : State) (tc : Nat) (c : Cell) : State :=
  let s0 := s.raise 0x050D none 0 [c.dst]
  if [tyWrite, tyReadReq, tyQupd, tyBucket].contains c.type then
    match s.xfers.find? fun x => x.fab == c.dst && x.tc == tc && !x.busy && x.covers c.seq with
    | some x => s0.failXfer x
    | none => s
  else s0

/-- Cells that had not left by a port go by the ports that R253 chooses now (R254); a fenced module drops its data cells
(R260). -/
def State.reroute (s : State) (w : List (Nat × List Byte)) : State :=
  (w.filter fun x => isControl (Cell.parse x.2).type || !s.fenced).foldl (fun s x =>
    match s.portFor (Cell.parse x.2).dst x.1 with
    | none => s.noRoute x.1 (Cell.parse x.2)
    | some q => s.linkSend q x.1 x.2) s

/-- R238, R241, R255: a port enters FAILED; its unacknowledged frames are discarded, an ACTIVE port's role passes to a spare,
and the cells that waited for it take their flows' new ports. -/
def State.failPort (s : State) (p : Nat) : State :=
  let was := s.portState p
  let role := (s.standsFor p).getD p
  let w := (s.link p).waiting
  let s := (s.setPort p portFailed).modLink p fun l => { l.down with
    retrains := if was = portTraining then l.retrains else 0, failedOnce := true, failedAt := s.timeUs
    lostRoles := if was = portActive then role :: l.lostRoles.erase role else l.lostRoles }
  let s := (s.fset (F.FAB_PORT_STAT_SUBST_VALID (p / 24) (p % 24)) 0).raise 0x0501 none p []
  (if was = portActive then s.substitute role else s).reroute w

/-- Whether a link carries frames. -/
def State.linkUp (s : State) (p : Nat) : Bool :=
  let v := s.portState p
  v == portActive || v == portSpare || v == portHold

def execPortEnable (p : PortId) (w : Word) (s : State) : Host.Outcome State Fault Refusal :=
  let e := p.val / 24
  let j := p.val % 24
  let was := s.fget (F.FAB_PORT_CTRL_EN e j)
  let en := bits w.toNat 31 31
  let s1 := (if was = 0 then s.fset (F.FAB_PORT_CTRL_SPARE e j) (bits w.toNat 30 30) else s).fset (F.FAB_PORT_CTRL_EN e j) en
  if was = 0 ∧ en = 1 then
    .next ((s1.modLink p.val fun l => { l with retrains := 0 }).train p.val)
  else if was = 1 ∧ en = 0 then
    let w := (s1.link p).waiting
    let s2 := (s1.setPort p.val portDisabled).modLink p.val Link.down
    .next (((s2.fset (F.FAB_PORT_STAT_SUBST_VALID e j) 0).fset (F.FAB_PORT_STAT_LANE_LOCK e j) 0).reroute w).flush
  else .next s1

/-- R238: RETRAIN starts the training of a FAILED port again. -/
def execPortRetrain (p : PortId) (w : Word) (s : State) : Host.Outcome State Fault Refusal :=
  if bit w.toNat 29 ∧ s.portState p = portFailed ∧ s.fget (F.FAB_PORT_CTRL_EN (p / 24) (p % 24)) = 1 then .next (s.train p)
  else .next s

/-- R237: training succeeds; a port that retrains after a failure enters SPARE. -/
def execPortTrained (p : PortId) (s : State) : Host.Outcome State Fault Refusal :=
  if s.portState p = portTraining then
    let spare := (s.link p).failedOnce || decide (s.fget (F.FAB_PORT_CTRL_SPARE (p / 24) (p % 24)) = 1)
    let s1 := (s.setPort p (if spare then portSpare else portActive)).fset (F.FAB_PORT_STAT_LANE_LOCK (p / 24) (p % 24)) 0xFF
    .next (s1.raise 0x0502 none p [])
  else .next s

/-- R238: 300 ms of training without success. -/
def execPortTrainTimeout (p : PortId) (s : State) : Host.Outcome State Fault Refusal :=
  if s.portState p = portTraining ∧ (s.link p).failedAt + 300000 ≤ s.timeUs then .next (s.failPort p).flush else .next s

/-- R238: 1 s after a failure, one of at most three attempts. -/
def execPortRetrainTimer (p : PortId) (s : State) : Host.Outcome State Fault Refusal :=
  let l := s.link p
  if s.portState p = portFailed ∧ l.retrains < 3 ∧ l.failedAt + 1000000 ≤ s.timeUs then
    .next ((s.modLink p fun l => { l with retrains := l.retrains + 1 }).train p)
  else .next s

/-- R235, R238: a lane without lock for 10 µs. -/
def execLaneLockLoss (p : PortId) (lane : Fin 8) (s : State) : Host.Outcome State Fault Refusal :=
  let f := F.FAB_PORT_STAT_LANE_LOCK (p / 24) (p % 24)
  let v := s.fget f
  let s1 := s.fset f (if bit v lane then v - 2 ^ lane.val else v)
  if s.linkUp p then .next (s1.failPort p).flush else .next s1

/-- R238: the far end sends DOWN. -/
def execLinkDownWord (p : PortId) (s : State) : Host.Outcome State Fault Refusal :=
  if s.linkUp p then .next (s.failPort p).flush else .next s

/-- R240: acceptance of a frame by LCRC, LSEQ and its codewords. The accepted cell waits for the command that takes it;
a cell with a reserved encoding is dropped and counted (R245), and in HOLD a cell of TC0 to TC5 is dropped. -/
def execLinkFrame (p : PortId) (frame : List Byte) (corrected uncorrectable : Nat) (s : State) :
    Host.Outcome State Fault Refusal :=
  if s.linkUp p = false then .next s
  else
    let e := p.val / 24
    let j := p.val % 24
    let s := (s.fadd (F.FAB_FEC_CORR_COUNT e j) corrected).fadd (F.FAB_FEC_UNC_COUNT e j) uncorrectable
    let s := s.modLink p fun l =>
      if l.uncAt + 1000000 ≤ s.timeUs then { l with uncMark := uncorrectable, uncAt := s.timeUs }
      else { l with uncMark := l.uncMark + uncorrectable }
    let cell := frame.take 280
    let hi := leAt frame 284 4
    let crcOk : Bool := frame.length == 288 && crc32 (cell ++ leBytes 4 hi) == leAt frame 280 4 && uncorrectable == 0
    let l := s.link p
    if crcOk = true ∧ hi / 2 ^ 20 = l.rxSeq then
      let c := Cell.parse cell
      let credits := (List.range 8).map fun k =>
        Nat.min 128 (l.credits.getD k 0 + Config.creditGrant (BitVec.ofNat 16 hi) k)
      let s := s.modLink p fun l => { l with
        rxSeq := (l.rxSeq + 1) % 4096
        nakked := false
        owed := (l.owed + 1) % 16
        credits := credits
        give := listSet l.give c.tc (l.give.getD c.tc 0 + 1) }
      let s := if l.owed = 15 then s.word p wordAck l.rxSeq else s
      let s :=
        if typeOk c.type c.tc = false then s.fadd F.FAB_E2E_CNT0_CORRUPT 1
        else if s.portState p = portSpare then s
        else if s.portState p = portHold ∧ c.tc < 6 then s.fadd F.FAB_SRC_DROP_UNKNOWN 1
        else s.modLink p fun l => { l with rxq := l.rxq ++ [cell] }
      .next (s.linkDrain p)
    else
      let s := if crcOk then s else s.fadd (F.FAB_LINK_RPL_LCRC_FAIL e j) 1
      if l.nakked then .next s
      else .next ((s.modLink p fun l => { l with nakked := true }).word p wordNak l.rxSeq)

/-- Frames up to `lseq`, counted modulo 4,096 from the oldest, are acknowledged at `now`. -/
def Link.acked (l : Link) (lseq now : Nat) : Link :=
  match l.replay with
  | [] => l
  | f :: _ =>
    let n := (lseq + 4096 - f.lseq) % 4096 + 1
    if n ≤ l.replay.length then { l with replay := l.replay.drop n, quietAt := now } else l

/-- R241: an ACK word names the last accepted frame. -/
def execLinkAck (p : PortId) (lseq : Fin 4096) (s : State) : Host.Outcome State Fault Refusal :=
  .next ((s.modLink p fun l => l.acked lseq s.timeUs).linkDrain p)

/-- R241: the frames of the replay buffer are sent again, each as it was (R242); a frame that has been sent nine times fails
the port. -/
def State.replayAll (s : State) (p : Nat) : State :=
  let l := s.link p
  if l.replay.any fun f => decide (9 ≤ f.tries) then s.failPort p
  else
    let s := s.fadd (F.FAB_LINK_RPL_REPLAYS (p / 24) (p % 24)) l.replay.length
    let s := s.modLink p fun l => { l with
      replay := l.replay.map (fun f => { f with tries := f.tries + 1 }), quietAt := s.timeUs }
    l.replay.foldl (fun s f => s.emitOut .cell p (frameBytes f.cell f.lseq f.credit)) s

/-- R241: a NAK names the expected frame; the frames before it are acknowledged and the rest are replayed. -/
def execLinkNak (p : PortId) (lseq : Fin 4096) (s : State) : Host.Outcome State Fault Refusal :=
  let s := s.modLink p fun l =>
    match l.replay with
    | [] => l
    | f :: _ => if f.lseq = lseq.val then l else l.acked ((lseq.val + 4095) % 4096) s.timeUs
  .next ((if s.linkUp p ∧ (s.link p).replay ≠ [] then s.replayAll p else s).linkDrain p).flush

/-- R241: 4 µs without any acknowledgement. -/
def execLinkReplayTimeout (p : PortId) (s : State) : Host.Outcome State Fault Refusal :=
  if s.linkUp p ∧ (s.link p).replay ≠ [] ∧ (s.link p).quietAt + 4 ≤ s.timeUs then .next (s.replayAll p).flush else .next s

/-- R240: an ACK at least every 100 ns. -/
def execLinkAckTimer (p : PortId) (s : State) : Host.Outcome State Fault Refusal :=
  let l := s.link p
  if l.owed = 0 then .next s
  else .next ((s.modLink p fun l => { l with owed := 0 }).word p wordAck ((l.rxSeq + 4095) % 4096))

/-- R243: more than THRESH uncorrectable codewords within the second; the event is raised at most once per minute. -/
def execPortFecDegraded (p : PortId) (s : State) : Host.Outcome State Fault Refusal :=
  let l := s.link p
  if s.linkUp p ∧ s.timeUs < l.uncAt + 1000000 ∧ s.fget F.FAB_FEC_DEG_THRESH < l.uncMark then .next (s.raiseEvery 60000000 0x0505 none p []) else .next s

/-- R254: a write of FAB_ROUTE_MHI commits entry `i` whole. -/
def execRouteCommit (i : Fin 1024) (w : Word) (s : State) : Host.Outcome State Fault Refusal :=
  let s := s.fset (F.FAB_ROUTE_MHI_MASK_HI i) (bits w.toNat 15 0)
  let r : Route := ⟨s.fget (F.FAB_ROUTE_K_VALID i) == 1, s.fget (F.FAB_ROUTE_K_LEN i), s.fget (F.FAB_ROUTE_K_PREFIX i),
    s.rget (R.FAB_ROUTE_MLO i) + 2 ^ 32 * s.fget (F.FAB_ROUTE_MHI_MASK_HI i)⟩
  .next { s with routes := s.routes.set i r }

end Sys2Proof.Machine
end

