-- ==== Sys2Proof/Machine/Vxe.lean ====
section
/-!
DEFINITION. The vector engine (spec/04_vector_engine_and_control_core.md): legality (R111, R115), streams (R112), the
operations of Table 4-7 (R114 to R119), CVT and RSC (R121, R122), residue checks (R132, R133) and the monitor flush
(R124).
-/

namespace Sys2Proof.Machine

/-! ### Fields (Table 4-4) -/
def vOp (w : Nat) : Nat := bits w 63 56
def vFmtD (w : Nat) : Nat := bits w 55 52
def vFmtS (w : Nat) : Nat := bits w 51 48
def vRnd (w : Nat) : Nat := bits w 47 46
def vSat (w : Nat) : Bool := bit w 45
def vMon (w : Nat) : Bool := bit w 44
def vMc (w : Nat) : Nat := bits w 43 42
def vAsrc (w : Nat) : Nat := bits w 41 40
def vBsel (w : Nat) : Nat := bits w 39 38
def vDsel (w : Nat) : Nat := bits w 37 36
def vSh (w : Nat) : Nat := bits w 10 6

def vIsInt (f : Nat) : Bool := f == 1 || f == 3 || f == 4
def vReduce (op : Nat) : Bool := decide (0x30 ≤ op) && decide (op ≤ 0x34)
def vFunc (op : Nat) : Bool := decide (0x40 ≤ op) && decide (op ≤ 0x47)
def vRounds (op : Nat) : Bool := decide (1 ≤ op) && decide (op ≤ 4)

/-- R115: the formats an operation accepts. -/
def vFmtOk (op f : Nat) : Bool :=
  if op = 4 ∨ op = 0x31 ∨ vFunc op then f == 9
  else if 0x10 ≤ op ∧ op ≤ 0x13 then vIsInt f
  else vIsInt f || f == 9

/-- The operations of Table 4-7. -/
def vListed (op : Nat) : Bool :=
  (decide (1 ≤ op) && decide (op ≤ 8)) || (decide (0x10 ≤ op) && decide (op ≤ 0x13))
  || (decide (0x18 ≤ op) && decide (op ≤ 0x1A)) || (decide (0x20 ≤ op) && decide (op ≤ 0x24))
  || vReduce op || vFunc op || op == 0x60 || op == 0x61 || op == 0x70

/-- R111, R115: whether a VXE word is a legal operation. A BSEL of RSC other than 0b01 is left to R122. -/
def vLegal (w : Nat) : Bool :=
  let op := vOp w
  let fs := vFmtS w
  let fd := vFmtD w
  let conv := op == 0x60 || op == 0x61
  let fpRound := vRounds op && fs == 9
  let z := fun (used : Bool) (v : Nat) => used || v == 0
  vListed op && w % 64 == 0 && decide (vRnd w ≤ 2) && decide (vAsrc w ≤ 2) && decide (vBsel w ≤ 2) && decide (vDsel w ≤ 2)
  && (if op = 0x70 then
        vBsel w == 2 && fs == 0 && fd == 0 && vRnd w == 0 && !vSat w && !vMon w && vAsrc w == 0 && vDsel w == 0
        && bits w 35 16 == 0 && vSh w == 0
      else if op = 0x60 then
        decide (fs ≤ 9) && decide (fd ≤ 9) && !(fs == 2 && fd == 2) && (vSh w == 0 || (decide (fs ≤ 4) && decide (fd ≤ 4)))
        && vBsel w == 2 && bits w 30 26 == 0
      else if op = 0x61 then fs == 4 && decide (fd ≤ 4) && vSh w == 0
      else
        vFmtOk op fs && vSh w == 0 && fd == (if vReduce op then 0 else fs)
        && (if vReduce op || vFunc op || op == 7 || op == 8 then vBsel w == 2 && bits w 30 26 == 0
            else decide (vBsel w ≤ 1)))
  && (op == 0x70 || (
    z (conv || op == 0x13 || fpRound) (vRnd w)
    && z (conv || fpRound || vFunc op || (fs == 9 && (op == 0x30 || op == 0x31)) || ((decide (op ≤ 3) || op == 7 || op == 8 || op == 0x10) && fs != 9)) (b2n (vSat w))
    && z conv (b2n (vMon w)) && z (vMon w) (vMc w)
    && z (conv || op == 0x24 || (fpRound && vRnd w == 2)) (bits w 15 11)
    && (if vReduce op then decide (vDsel w ≤ 1) else vDsel w != 1)
    && z (vAsrc w != 2) (bits w 35 31)))

/-! ### Streams (R112) -/

/-- A checked stream: its offset in its space, whether it is in the OC, its device address and its length. -/
structure Strm where
  oc : Bool
  off : Nat
  addr : Nat
  len : Nat
  sumk : Nat
  sumLn : Nat
  deriving DecidableEq, Repr

/-- The stream that scalar `v` names over `n` bytes, or none where it is an illegal operand (R112, R134). DESIGN CHOICE
(assumption 88): a SUMLN other than 0 beside SUMK 0 is one. -/
def State.strm (s : State) (g v n : Nat) (dst : Bool) : Option Strm :=
  let sumk := bits v 63 61
  let oc := bit v 24
  let off := bits v 21 0
  if bits v 60 48 ≠ 0 ∨ bits v 35 25 ≠ 0 ∨ bits v 23 22 ≠ 0 ∨ off % 64 ≠ 0 then none
  else if 4 < sumk ∨ (dst = false ∧ (sumk ≠ 0 ∨ bits v 47 36 ≠ 0)) ∨ (sumk = 0 ∧ bits v 47 36 ≠ 0) then none
  else if (if oc then 0x40000 else 0x400000) < off + n then none
  else if (if oc then s.ocOk g off n else s.lsOk g off n) = false then none
  else some ⟨oc, off, (if oc then ocBase g else lsBase g) + off, n, sumk, bits v 47 36⟩

/-- R129: whether a destination of `wd`-bit elements may overlap a source of `ws`-bit elements at these addresses. -/
def overlapOk (d src : Strm) (wd ws : Nat) : Bool :=
  decide (d.addr + d.len ≤ src.addr) || decide (src.addr + src.len ≤ d.addr)
  || (decide (d.addr ≤ src.addr) && decide (wd ≤ ws))

/-! ### Elements -/

/-- Integer saturation or wrap of an exact result (R116). -/
def intDone (f : Fmt) (sat : Bool) (v : Int) : Nat := if sat then (f.saturate 0 v).1 else wrap f.width v

/-- A shift amount clamped to 0 … W (R116). -/
def shAmt (f : Fmt) (b : Int) : Nat := if b < 0 then 0 else if (f.width : Int) < b then f.width else b.toNat

/-- All ones or 0 of an element (Table 4-7). -/
def mask (f : Fmt) (b : Bool) : Nat := if b then 2 ^ f.width - 1 else 0

/-- The integer operations on codes (R116). -/
def intOp (op : Nat) (f : Fmt) (sat : Bool) (mode : Round) (r : Nat) (a b m : Nat) : Nat :=
  let x := f.intValue 0 a
  let y := f.intValue 0 b
  let n := shAmt f y
  match op with
  | 0x01 => intDone f sat (x + y)
  | 0x02 => intDone f sat (x - y)
  | 0x03 => intDone f sat (x * y)
  | 0x05 => if x < y then b else a
  | 0x06 => if x < y then a else b
  | 0x07 => intDone f sat x.natAbs
  | 0x08 => intDone f sat (-x)
  | 0x10 => intDone f sat (x * (2 ^ n : Nat))
  | 0x11 => wrap f.width (x / (2 ^ n : Nat))
  | 0x12 => a % 2 ^ f.width / 2 ^ n
  | 0x13 => let q : Int := (roundMag x.natAbs n mode r : Nat); wrap f.width (if x < 0 then -q else q)
  | 0x18 => a &&& b
  | 0x19 => a ||| b
  | 0x1A => a ^^^ b
  | 0x20 => mask f (a == b)
  | 0x21 => mask f (a != b)
  | 0x22 => mask f (decide (x < y))
  | 0x23 => mask f (decide (x ≤ y))
  | _ => if m = 0 then b else a

/-- The larger (or smaller) FP32 code: NaN if either is, −0 below +0 (R117). -/
def fpMax (big : Bool) (a b : Nat) : Nat :=
  let x := fpFP32.decode a
  let y := fpFP32.decode b
  if x = .nan ∨ y = .nan then fpFP32.canonNan
  else
    let aLess := x.lt y || (!(y.lt x) && bit a 31 && !bit b 31)
    if aLess then (if big then b else a) else (if big then a else b)

/-- The FP32 operations on codes (R117); `d` is FMA's old destination. DEDUCED (assumption 89): SAT leaves a result that is
infinite because an input is, and SEL takes a mask element's bit pattern, so that −0 counts as non-zero. -/
def fpOp (op : Nat) (sat : Bool) (mode : Round) (r : Nat) (a b d m : Nat) : Nat :=
  let x := fpFP32.decode a
  let y := fpFP32.decode b
  let rnd := fun v : Num =>
    match v with
    | .inf n => fpFP32.sign n + fpFP32.infCode
    | _ => (fpFP32.round mode sat r v).code
  match op with
  | 0x01 => rnd (x.add y)
  | 0x02 => rnd (x.add y.neg)
  | 0x03 => rnd (x.mul y)
  | 0x04 => rnd ((x.mul y).add (fpFP32.decode d))
  | 0x05 => fpMax true a b
  | 0x06 => fpMax false a b
  | 0x07 => if x = .nan then fpFP32.canonNan else a % 2 ^ 31
  | 0x08 => if x = .nan then fpFP32.canonNan else a ^^^ 2 ^ 31
  | 0x18 => a &&& b
  | 0x19 => a ||| b
  | 0x1A => a ^^^ b
  | 0x20 => mask .fp32 (x.eqv y)
  | 0x21 => mask .fp32 !(x.eqv y)
  | 0x22 => mask .fp32 (x.lt y)
  | 0x23 => mask .fp32 (x.lt y || x.eqv y)
  | _ => if m = 0 then b else a

/-- The function units (Table 4-8): the special inputs and SQRT as the table gives them, the other results within the
table's error bounds (R119). -/
def fpFunc (op : Nat) (sat : Bool) (a : Nat) : Nat :=
  let x := fpFP32.decode a
  let free := unitResult op sat a
  let one := 0x3F800000
  let inf := 0x7F800000
  let neg := bit a 31
  match x with
  | .nan => fpFP32.canonNan
  | .inf n =>
    match op with
    | 0x40 => if n then 0 else inf
    | 0x41 => if n then fpFP32.canonNan else inf
    | 0x42 => fpFP32.sign n
    | 0x43 => if n then fpFP32.canonNan else 0
    | 0x44 => if n then fpFP32.canonNan else inf
    | 0x46 => if n then 0 else one
    | _ => fpFP32.sign n + one
  | .fin n mag _ =>
    match op with
    | 0x40 => if !n && !(x.lt (.fin false 128 0)) then (if sat then fpFP32.maxCode else inf) else free
    | 0x41 => if mag = 0 then fpFP32.sign true + inf else if n then fpFP32.canonNan else free
    | 0x42 => if mag = 0 then fpFP32.sign neg + inf else free
    | 0x43 => if mag = 0 then fpFP32.sign neg + inf else if n then fpFP32.canonNan else free
    | 0x44 => (fpFP32.round .rne false 0 x.sqrt).code
    | _ => free

/-! ### Reductions (R118) -/

/-- One lane's elements in stream order. -/
def laneOf (l : List Nat) (i : Nat) : List Nat :=
  ((List.range l.length).zip l).filterMap fun p => if p.1 % 64 = i then some p.2 else none

/-- An addition of R118: RNE, with the SAT of R60. -/
def rneAdd (sat : Bool) (a b : Nat) : Nat := fpOp 0x01 sat .rne 0 a b 0 0

/-- A lane's running sum; a lane with no element is left out. -/
def laneSum (sat : Bool) : List Nat → Option Nat
  | [] => none
  | a :: r => some (r.foldl (rneAdd sat) (if fpFP32.decode a = .nan then fpFP32.canonNan else a))

/-- One level of the tree: pairs added, a sum without a partner passed up. -/
def treeLevel (sat : Bool) : List (Option Nat) → List (Option Nat)
  | [] => []
  | [a] => [a]
  | a :: b :: r =>
    (match a, b with
     | some x, some y => some (rneAdd sat x y)
     | some x, none => some x
     | none, y => y) :: treeLevel sat r

/-- FP32 SUM in the fixed order of R118. -/
def fpSum (sat : Bool) (l : List Nat) : Nat :=
  ((iter 6 (fun _ t => treeLevel sat t) ((List.range 64).map fun i => laneSum sat (laneOf l i))).headD none).getD 0

/-- The 64-bit result of a reduction; SAT is for the additions and squares of FP32 (R60). -/
def reduceOp (op : Nat) (f : Fmt) (sat : Bool) (l : List Nat) : Nat :=
  if f = .fp32 then
    match op with
    | 0x30 => fpSum sat l
    | 0x31 => fpSum sat (l.map fun a => fpOp 0x03 sat .rne 0 a a 0 0)
    | 0x34 => let m := l.map fun a => fpOp 7 false .rne 0 a 0 0 0
              m.tail.foldl (fpMax true) (m.headD 0)
    | _ => let h := fpOp 5 false .rne 0 (l.headD 0) (l.headD 0) 0 0
           l.tail.foldl (fpMax (op == 0x32)) h
  else
    let v := l.map (f.intValue 0)
    match op with
    | 0x30 => wrap 64 (v.foldl (· + ·) 0)
    | 0x32 => wrap 64 (v.tail.foldl (fun a b => if a < b then b else a) (v.headD 0))
    | 0x33 => wrap 64 (v.tail.foldl (fun a b => if b < a then b else a) (v.headD 0))
    | _ => wrap 64 ((v.map fun x => (x.natAbs : Int)).foldl (fun a b => if a < b then b else a) 0)

/-! ### The engine -/

/-- R132: whether an operation is residue-checked. -/
def residueChecked (w : Nat) : Bool :=
  let op := vOp w
  (vFmtS w != 9 && ((decide (1 ≤ op) && decide (op ≤ 3)) || op == 7 || op == 8 || (decide (0x10 ≤ op) && decide (op ≤ 0x13))
    || op == 0x30))
  || (op == 0x60 && vSh w != 0) || op == 0x61

/-- Elements of one vector (R133): by the wider format's width. -/
def vecLen (w : Nat) : Nat :=
  let wd := fun c => ((Fmt.ofCode c).map Fmt.width).getD 32
  let m := Nat.max (wd (vFmtS w)) (if vReduce (vOp w) then 0 else wd (vFmtD w))
  if m ≤ 8 then 256 else if m = 16 then 128 else 64

/-- R133: vector number `k` of a checked instruction meets the entry at the head of the core's upsets: 0 leaves it right,
1 is a mismatch that the recomputation mends, and any other one it does not, so that the vector's codes, those of `l` that
`mine` names, are free values. -/
def State.residueVector (s : State) (g : Nat) (mine : Nat → Bool) (l : List Nat) : State × List Nat :=
  match (s.core g).vxeUpset with
  | [] => (s, l)
  | u :: rest =>
    let s := s.modCore g fun c => { c with vxeUpset := rest }
    if u = 0 then (s, l)
    else
      let now := (s.die (g / 32)).cycles
      let old := (s.core g).vxeMiss
      let s := (((s.modCore g fun c => { c with vxeMiss := (now :: c.vxeMiss).take 2 }).fset
        (F.VXE_STAT_RES_MISS g) 1).fadd (F.VXE_RES_CNT_MISS_CNT g) 1).raise 0x0203 (s.occupant g) g []
      let r := if u = 1 then (s, l)
        else
          let s' := (((s.fset (F.VXE_STAT_RES_FAIL g) 1).fadd (F.VXE_RES_CNT_FAIL_CNT g) 1).raise 0x0204 (s.occupant g) g []
            ).markSuspect g
          ({ s' with free := s'.free + l.length },
            ((List.range l.length).zip l).map fun p => if mine p.1 then (Config.freeWord (s'.free + p.1)).toNat else p.2)
      match old with
      | _ :: m2 :: _ => if now ≤ m2 + 2 ^ 30 then (r.1.quarantine g 0x0208 (F.VXE_STAT_QUAR g), r.2) else r
      | _ => r

/-- R133: the upsets waiting at core `g` meet the vectors of a checked instruction of `n` elements, in order. Every vector
of a reduction goes into its one result. -/
def State.residue (s : State) (g w n : Nat) (l : List Nat) : State × List Nat :=
  if (s.core g).vxeUpset = [] ∨ residueChecked w = false then (s, l)
  else
    let len := vecLen w
    (List.range ((n + len - 1) / len)).foldl (fun r k =>
      r.1.residueVector g (fun i => vReduce (vOp w) || i / len == k) r.2) (s, l)

/-- R217: the VXE is frozen with its state held. -/
def State.vxeFreeze (s : State) (g : Nat) : State := s.fset (F.VXE_STAT_FROZEN g) 1

/-- A VXE write of LS or OC; the engine freezes at a word it cannot merge (R453). -/
def State.vxeWrite (s : State) (g a : Nat) (l : List Byte) : State :=
  let r := s.memWrite a l (s.occupant g)
  if r.2 then r.1 else r.1.vxeFreeze g

/-- R134: the VXE freezes on an illegal operation (0x0201) or operand (0x0202), or on a stale buffer. -/
def State.vxeIllegal (s : State) (g code : Nat) : State := (s.vxeFreeze g).illegal g code

/-- The instruction at the head of the queue completes: the galley entry it read is removed, with the group's slot
after the entry marked LAST (R125, R159). -/
def State.vxeRetire (s : State) (g : Nat) : State :=
  (s.modCore g fun c =>
    let c := match (c.vq.map fun e => vAsrc e.word), c.mv with
      | 1 :: _, h :: rest =>
        { c with mv := rest, groups := if bit h 45 then c.groups.filter fun y => y.id != bits h 63 60 else c.groups }
      | 2 :: _, _ => { c with xv := c.xv.tail }
      | _, _ => c
    { c with vq := c.vq.tail, vxeAt := s.timeUs }).settle g

/-- R85, R125: element (i, j) of the 16 rows of block `blk` of a draining group. -/
def Group.row (x : Group) (fp : Bool) (blk : Nat) : List Nat :=
  (List.range 2048).map fun k =>
    let v := x.acc.getD (2048 * blk + k) 0
    if fp then v else wrap 32 ((v : Int) - x.z * (x.w.getD (k % 128) 0 : Nat))

/-- Source A: its codes, from a stream or from the head of a galley; none where the operand is illegal, and a `false`
where the engine must wait or has stopped. -/
def State.vxeSrcA (s : State) (g : Nat) (e : VEntry) (f : Fmt) (n : Nat) : State × Option (List Nat × Option Strm) × Bool :=
  match vAsrc e.word with
  | 0 =>
    match s.strm g e.sa (f.bytes n) false with
    | none => (s, none, true)
    | some x =>
      let r := s.checkRead x.addr x.len (s.occupant g)
      if r.2 then (r.1, some (f.unpack n (s.bytes x.addr x.len), some x), true)
      else (r.1.vxeFreeze g, none, false)
  | 1 =>
    match (s.core g).mv with
    | [] => (s, none, false)
    | h :: _ =>
      let fp := bit h 48
      if n ≠ 2048 ∨ f ≠ (if fp then .fp32 else .int32) then (s, none, true)
      else match (s.core g).groups.find? fun x => x.id == bits h 63 60 with
        | none => (s, none, true)
        | some x =>
          let r := s.checkRead (acfBase g x.slot + 0x2000 * bits h 51 49) 0x2000 (s.occupant g)
          if r.2 then (r.1, some (x.row fp (bits h 51 49), none), true) else (r.1.vxeFreeze g, none, false)
  | _ =>
    match (s.core g).xv with
    | [] => (s, none, false)
    | h :: _ =>
      let oc := bit h 36
      let off := 64 * bits h 19 4
      match s.genCheck g (bits h 47 38) (bits h 63 48) (b2n oc) (bits h 19 4) false with
      | (s', .wait) => (s', none, false)
      | (s', .stale) => ((s'.vxeFreeze g).staleFault g, none, false)
      | (s', .pass) =>
        if 64 * (bits h 35 20 + 1) < f.bytes n then (s', none, true)
        else
          let a := (if oc then ocBase g else lsBase g) + off
          let r := s'.checkRead a (f.bytes n) (s.occupant g)
          if r.2 then
            (r.1, some (f.unpack n (s.bytes a (f.bytes n)), some ⟨oc, off, a, f.bytes n, 0, 0⟩), true)
          else (r.1.vxeFreeze g, none, false)

/-- A scale record read by the VXE (R121): none where R46 refuses it, its format differs or it lies outside the layout.
DESIGN CHOICE (assumption 85): it is read when the VXE starts the instruction. -/
def State.vxeScale (s : State) (g u fmt : Nat) : Option ScaleRec :=
  if s.lsOk g (8 * u) 8 = false then none
  else match ScaleRec.read (s.le (lsBase g + 8 * u) 8) with
    | none => none
    | some r => if r.fmt.code = fmt then some r else none

/-- The SR stream field of a VXE instruction (Tables 2-8 and 4-6): from SX for CVT, RSC and FP32 operations; the tables
give SHRR none, so its field is a free value. -/
def State.vxeStreamField (s : State) (g : Nat) (e : VEntry) : Nat :=
  if vOp e.word = 0x13 then (Config.shrrStream g (s.impPos ((s.occupant g).getD 0)) e.word).toNat
  else bits e.sx 53 38

/-- R55: the random word of element `i` of a VXE instruction. -/
def State.vxeRand (s : State) (g : Nat) (e : VEntry) (i : Nat) : Nat :=
  let c := (s.occupant g).getD 0
  let x := s.ctx c
  let off := e.sn / 65536
  philoxWord i (g * 2 ^ 24 + s.impPos c % 256 * 65536 + s.vxeStreamField g e) (off % 2 ^ 32) (off / 2 ^ 32 % 65536)
    ((x.srSeed % 2 ^ 32) ^^^ (x.step % 2 ^ 32)) (x.srSeed / 2 ^ 32 % 2 ^ 32)

/-- The destination write: codes of format `f` at stream `d`, with the sum block of SUMK (R74, R127), and the
VXE→XFE entry of DSEL 0b10 (R126). -/
def State.vxeStore (s : State) (g : Nat) (e : VEntry) (f : Fmt) (d : Strm) (codes : List Nat) : State :=
  let s1 := s.vxeWrite g d.addr (f.pack codes)
  let s2 := if d.oc then s1.clearSums g d.off d.len else s1
  let s3 := match d.sumk, sumkShape d.sumk codes.length with
    | 0, _ => s2
    | k, some (rows, len) =>
      s2.putSums g d.off d.len (64 * d.sumLn) (sumBlock (sumkIsB k) (sumkTileK k == 256) f rows len codes)
    | _, none => s2
  if vDsel e.word = 2 then
    s3.modCore g fun c => { c with vx := c.vx ++
      [b2n d.oc * 2 ^ 36 + ((d.len + 63) / 64 - 1) * 2 ^ 20 + d.off / 64 * 16] }
  else s3

/-- Whether a destination stream is legal for what it writes (R127, R155's formats). -/
def State.vxeDstOk (s : State) (g : Nat) (d : Strm) (f : Fmt) (n : Nat) : Bool :=
  d.sumk == 0 || (d.oc && (sumkShape d.sumk n).isSome && sumkFmtOk d.sumk f && s.ocOk g (64 * d.sumLn) 1088)

/-- An elementwise or reducing operation, source A already read (R115 to R119). -/
def State.vxeArith (s : State) (g : Nat) (e : VEntry) (f : Fmt) (n : Nat) (a : List Nat) (sa : Option Strm) : State :=
  let w := e.word
  let op := vOp w
  let red := vReduce op
  let mode := (Round.ofBits (vRnd w)).getD .rne
  let bS := if vBsel w = 0 then s.strm g e.sb (f.bytes n) false else none
  let mS := if op = 0x24 then s.strm g e.sx (f.bytes n) false else none
  let dS := if vDsel w = 1 then none else s.strm g e.sd (if red then 8 else f.bytes n) true
  let need := fun (used : Bool) (x : Option Strm) => !used || x.isSome
  let lap := fun (x : Option Strm) => match dS, x with
    | some d, some y => overlapOk d y (if red then 64 else f.width) f.width
    | _, _ => true
  let dOk := match dS with
    | some d => if red then d.sumk == 0 else s.vxeDstOk g d f n
    | none => true
  if !(need (vBsel w == 0) bS && need (op == 0x24) mS && need (vDsel w != 1) dS && lap sa && lap bS && lap mS && dOk) then
    s.vxeIllegal g 0x0202
  else
    let rd := fun (s : State) (x : Option Strm) => match x with
      | some y => s.checkRead y.addr y.len (s.occupant g)
      | none => (s, true)
    let r1 := rd s bS
    let r2 := rd r1.1 mS
    let r3 := if op = 4 then rd r2.1 dS else (r2.1, true)
    if !(r1.2 && r2.2 && r3.2) then r3.1.vxeFreeze g
    else
      let get := fun (x : Option Strm) => match x with
        | some y => f.unpack n (s.bytes y.addr y.len)
        | none => List.replicate n (e.sb % 2 ^ f.width)
      let b := get bS
      let m := if op = 0x24 then get mS else []
      let d := if op = 4 then get dS else []
      if red then
        let q := r3.1.residue g w n [reduceOp op f (vSat w) a]
        let v := q.2.headD 0
        let s' := match dS with
          | some d =>
            let s1 := q.1.vxeWrite g d.addr (leBytes 8 v)
            if d.oc then s1.clearSums g d.off 8 else s1
          | none => q.1.setSreg g e.thread (bits w 25 21) v
        s'.vxeRetire g
      else
        let one := fun (i x : Nat) =>
          let y := b.getD i 0
          if f = .fp32 then
            (if vFunc op then fpFunc op (vSat w) x
             else fpOp op (vSat w) mode (if mode = .sr then s.vxeRand g e i else 0) x y (d.getD i 0) (m.getD i 0))
          else intOp op f (vSat w) mode (if mode = .sr then s.vxeRand g e i else 0) x y (m.getD i 0)
        let codes := ((List.range n).zip a).map fun p => one p.1 p.2
        let q := r3.1.residue g w n codes
        match dS with
        | some d => (q.1.vxeStore g e f d q.2).vxeRetire g
        | none => q.1.vxeRetire g

/-- CVT and RSC, source A and the scale records already read (R121, R122): `rsc` is RSC's multiplier. -/
def State.vxeConvertRead (s : State) (g : Nat) (e : VEntry) (fs fd : Fmt) (n : Nat) (a : List Nat) (sa : Option Strm)
    (rsc : Option Nat) : State :=
  let w := e.word
  let mode := (Round.ofBits (vRnd w)).getD .rne
  match s.vxeScale g (bits e.sx 18 0) fs.code, s.vxeScale g (bits e.sx 37 19) fd.code,
      s.strm g e.sd (fd.bytes n) true with
  | some rs, some rd, some d =>
    let lap := match sa with
      | some y => overlapOk d y fd.width fs.width
      | none => true
    if !(lap && s.vxeDstOk g d fd n) then s.vxeIllegal g 0x0202
    else
      let one := fun (i x : Nat) =>
        let r := if mode = .sr then s.vxeRand g e i else 0
        match rsc with
        | none => convert fs fd rs.zp rd.zp (vSh w) mode (vSat w) r x
        | some m =>
          let q := rescale fd rd.zp mode r m (sext 32 x)
          ⟨q.code, q.sat, q.zeroLoss, false, decide (x % 2 ^ 32 ≠ 0)⟩
      let unrounded := fun (x : Nat) =>
        match rsc with
        | none => match fs.value rs.zp x with
          | .fin sg mg ex => Num.fin sg mg (ex - vSh w)
          | y => y
        | some m => match Num.ofInt (sext 32 x) with
          | .fin sg mg _ => Num.fin sg (mg * (m % 2 ^ 23 + 2 ^ 23)) ((bits m 30 23 : Int) - 150)
          | y => y
      let qs := ((List.range n).zip a).map fun p => (one p.1 p.2, p.2)
      let nf := (qs.filter fun q => q.1.nonFinite).length
      let s1 := if nf = 0 then s else s.fadd (F.VXE_NF_CNT_NF_COUNT g rs.cls) nf
      let s2 := if vMon w then
          s1.modCore g fun c =>
            let set := qs.foldl (fun m q => m.count q.1 (unrounded q.2)) (c.mon.getD (vMc w) MonSet.zero)
            { c with mon := listSet c.mon (vMc w) set }
        else s1
      let q := s2.residue g w n (qs.map fun q => q.1.code)
      (q.1.vxeStore g e fd d q.2).vxeRetire g
  | _, _, _ => s.vxeIllegal g 0x0202

/-- R166, R167: the LS word of scale record `u` read with its check; one outside the layout is left to `vxeScale`. -/
def State.vxeScaleCheck (s : State) (g u : Nat) : State × Bool :=
  if s.lsOk g (8 * u) 8 then s.checkRead (lsBase g + 8 * u) 8 (s.occupant g) else (s, true)

/-- CVT and RSC, source A already read: the two scale records are read once (R47, R121). -/
def State.vxeConvert (s : State) (g : Nat) (e : VEntry) (fs fd : Fmt) (n : Nat) (a : List Nat) (sa : Option Strm)
    (rsc : Option Nat) : State :=
  let r1 := s.vxeScaleCheck g (bits e.sx 18 0)
  let r2 := r1.1.vxeScaleCheck g (bits e.sx 37 19)
  if r1.2 && r2.2 then r2.1.vxeConvertRead g e fs fd n a sa rsc else r2.1.vxeFreeze g

/-- R124: a monitor flush sent to its home entry, and its set cleared. DESIGN CHOICE (assumption 88): the bits of SX that
Table 4-6 does not list must be 0, as a reserved field of R10 must. -/
def State.vxeFlush (s : State) (g : Nat) (e : VEntry) : State :=
  let entry := bits e.sx 5 0
  let d := bits e.sx 9 8
  match s.occupant g with
  | none => s
  | some c =>
    if (s.monRec c d entry).isNone ∨ bits e.sx 63 10 ≠ 0 ∨ bits e.sx 7 6 ≠ 0 then s.vxeIllegal g 0x0202
    else
      let k := vMc e.word
      let set := (s.core g).mon.getD k MonSet.zero
      let s := s.modDie d fun x => { x with flushes := x.flushes ++ [⟨g, e.thread, entry, set⟩] }
      (s.modCore g fun x => { x with mon := listSet x.mon k MonSet.zero }).vxeRetire g

/-- R127: whether a write of the destination or of its sum block must wait for the MXE to release lines, and R126: for
galley room. -/
def State.vxeMustWait (s : State) (g : Nat) (e : VEntry) : Bool :=
  (vDsel e.word == 2 && decide ((s.galley g).vx ≤ (s.core g).vx.length))
  || (match e.writes g with
      | some (a, n) => bit e.sd 24 && ((s.core g).held (a - ocBase g) n
          || (bits e.sd 63 61 != 0 && (s.core g).held (64 * bits e.sd 47 36) 1088))
      | none => false)

/-- Table 12-2, detector 1: whether the VXE of core `g` has begun an instruction: it waits for no line, galley place or
re-fetch. -/
def State.vxeBegun (s : State) (g : Nat) : Bool :=
  s.live g && s.fget (F.VXE_STAT_FROZEN g) == 0 && (s.core g).refetch.isEmpty && match (s.core g).vq with
    | [] => false
    | e :: _ => !s.vxeMustWait g e

/-- The VXE takes the instruction at the head of its queue when it is `op`; an illegal one freezes the engine whatever
was asked (R111, R134). -/
def vxeRow (op : Nat) (g : Nat) (s : State) : State :=
  if s.live g = false ∨ s.fget (F.VXE_STAT_FROZEN g) = 1 then s
  else match (s.core g).vq with
    | [] => s
    | e :: _ =>
      let w := e.word
      if vLegal w = false then s.vxeIllegal g 0x0201
      else if vOp w ≠ op then s
      else if op = 0x61 ∧ vBsel w ≠ 1 then s.vxeIllegal g 0x0202
      else if op = 0x61 ∧ rescaleOk (e.sb % 2 ^ 32) = false then s.vxeIllegal g 0x0202
      else if s.vxeMustWait g e then s
      else if op = 0x70 then s.vxeFlush g e
      else match Fmt.ofCode (vFmtS w), Fmt.ofCode (vFmtD w) with
        | some fs, some fd =>
          let n := e.sn % 65536 + 1
          match s.vxeSrcA g e fs n with
          | (s', some (a, sa), _) =>
            if op = 0x60 then s'.vxeConvert g e fs fd n a sa none
            else if op = 0x61 then s'.vxeConvert g e fs fd n a sa (some (e.sb % 2 ^ 32))
            else s'.vxeArith g e fs n a sa
          | (s', none, true) => s'.vxeIllegal g 0x0202
          | (s', none, false) => s'
        | _, _ => s.vxeIllegal g 0x0201

/-- ADD: a + b, Table 4-7. -/
def execAddV (g : CoreId) (s : State) : Host.Outcome State Fault Refusal := .next (vxeRow 0x01 g s)

/-- SUB: a − b, Table 4-7. -/
def execSubV (g : CoreId) (s : State) : Host.Outcome State Fault Refusal := .next (vxeRow 0x02 g s)

/-- MUL: a × b, Table 4-7. -/
def execMulV (g : CoreId) (s : State) : Host.Outcome State Fault Refusal := .next (vxeRow 0x03 g s)

/-- FMA: a × b + d, one rounding, Table 4-7. -/
def execFma (g : CoreId) (s : State) : Host.Outcome State Fault Refusal := .next (vxeRow 0x04 g s)

/-- MAX, Table 4-7. -/
def execMaxV (g : CoreId) (s : State) : Host.Outcome State Fault Refusal := .next (vxeRow 0x05 g s)

/-- MIN, Table 4-7. -/
def execMinV (g : CoreId) (s : State) : Host.Outcome State Fault Refusal := .next (vxeRow 0x06 g s)

/-- ABS, Table 4-7. -/
def execAbsV (g : CoreId) (s : State) : Host.Outcome State Fault Refusal := .next (vxeRow 0x07 g s)

/-- NEG, Table 4-7. -/
def execNegV (g : CoreId) (s : State) : Host.Outcome State Fault Refusal := .next (vxeRow 0x08 g s)

/-- SHL, Table 4-7. -/
def execShl (g : CoreId) (s : State) : Host.Outcome State Fault Refusal := .next (vxeRow 0x10 g s)

/-- SRA, Table 4-7. -/
def execSra (g : CoreId) (s : State) : Host.Outcome State Fault Refusal := .next (vxeRow 0x11 g s)

/-- SRL, Table 4-7. -/
def execSrl (g : CoreId) (s : State) : Host.Outcome State Fault Refusal := .next (vxeRow 0x12 g s)

/-- SHRR, Table 4-7. -/
def execShrr (g : CoreId) (s : State) : Host.Outcome State Fault Refusal := .next (vxeRow 0x13 g s)

/-- AND, Table 4-7. -/
def execAndV (g : CoreId) (s : State) : Host.Outcome State Fault Refusal := .next (vxeRow 0x18 g s)

/-- OR, Table 4-7. -/
def execOrV (g : CoreId) (s : State) : Host.Outcome State Fault Refusal := .next (vxeRow 0x19 g s)

/-- XOR, Table 4-7. -/
def execXorV (g : CoreId) (s : State) : Host.Outcome State Fault Refusal := .next (vxeRow 0x1a g s)

/-- CMPEQ, Table 4-7. -/
def execCmpeq (g : CoreId) (s : State) : Host.Outcome State Fault Refusal := .next (vxeRow 0x20 g s)

/-- CMPNE, Table 4-7. -/
def execCmpne (g : CoreId) (s : State) : Host.Outcome State Fault Refusal := .next (vxeRow 0x21 g s)

/-- CMPLT, Table 4-7. -/
def execCmplt (g : CoreId) (s : State) : Host.Outcome State Fault Refusal := .next (vxeRow 0x22 g s)

/-- CMPLE, Table 4-7. -/
def execCmple (g : CoreId) (s : State) : Host.Outcome State Fault Refusal := .next (vxeRow 0x23 g s)

/-- SEL, Table 4-7. -/
def execSel (g : CoreId) (s : State) : Host.Outcome State Fault Refusal := .next (vxeRow 0x24 g s)

/-- SUM, Table 4-7. -/
def execSum (g : CoreId) (s : State) : Host.Outcome State Fault Refusal := .next (vxeRow 0x30 g s)

/-- SUMSQ, Table 4-7. -/
def execSumsq (g : CoreId) (s : State) : Host.Outcome State Fault Refusal := .next (vxeRow 0x31 g s)

/-- RMAX, Table 4-7. -/
def execRmax (g : CoreId) (s : State) : Host.Outcome State Fault Refusal := .next (vxeRow 0x32 g s)

/-- RMIN, Table 4-7. -/
def execRmin (g : CoreId) (s : State) : Host.Outcome State Fault Refusal := .next (vxeRow 0x33 g s)

/-- AMAX, Table 4-7. -/
def execAmax (g : CoreId) (s : State) : Host.Outcome State Fault Refusal := .next (vxeRow 0x34 g s)

/-- EXP2, Table 4-7. -/
def execExp2 (g : CoreId) (s : State) : Host.Outcome State Fault Refusal := .next (vxeRow 0x40 g s)

/-- LOG2, Table 4-7. -/
def execLog2 (g : CoreId) (s : State) : Host.Outcome State Fault Refusal := .next (vxeRow 0x41 g s)

/-- RCP, Table 4-7. -/
def execRcp (g : CoreId) (s : State) : Host.Outcome State Fault Refusal := .next (vxeRow 0x42 g s)

/-- RSQRT, Table 4-7. -/
def execRsqrt (g : CoreId) (s : State) : Host.Outcome State Fault Refusal := .next (vxeRow 0x43 g s)

/-- SQRT, Table 4-7. -/
def execSqrt (g : CoreId) (s : State) : Host.Outcome State Fault Refusal := .next (vxeRow 0x44 g s)

/-- TANH, Table 4-7. -/
def execTanh (g : CoreId) (s : State) : Host.Outcome State Fault Refusal := .next (vxeRow 0x45 g s)

/-- SIGM, Table 4-7. -/
def execSigm (g : CoreId) (s : State) : Host.Outcome State Fault Refusal := .next (vxeRow 0x46 g s)

/-- ERF, Table 4-7. -/
def execErf (g : CoreId) (s : State) : Host.Outcome State Fault Refusal := .next (vxeRow 0x47 g s)

/-- CVT (R121), Table 4-7. -/
def execCvt (g : CoreId) (s : State) : Host.Outcome State Fault Refusal := .next (vxeRow 0x60 g s)

/-- RSC (R122), Table 4-7. -/
def execRsc (g : CoreId) (s : State) : Host.Outcome State Fault Refusal := .next (vxeRow 0x61 g s)

/-- MFLUSH (R124), Table 4-7. -/
def execMflush (g : CoreId) (s : State) : Host.Outcome State Fault Refusal := .next (vxeRow 0x70 g s)

end Sys2Proof.Machine
end

