-- ==== Sys2Proof/Machine/Reset.lean ====
section
/-!
DEFINITION. Hang detection, resets and the colophon (R357 to R378, R26, R27, R202): detectors, captures, the core,
compute-die and warm resets, their escalation, and the persisting of records.
-/

namespace Sys2Proof.Machine

/-! ### ALERT_N and PGOOD (R436) -/

/-- Whether a cause of PWR_ALERT is set and not masked. -/
def State.alertWanted (s : State) : Bool :=
  let v := s.rget R.PWR_ALERT
  (List.range 6).any fun i => bit v i && !bit v (8 + i)

/-- R436, R437: ALERT_N follows its causes; its fall raises an in-band interrupt. -/
def State.showAlert (s : State) : State :=
  let w := s.alertWanted && s.pwr.mgt
  if w = s.pwr.alert then s
  else
    let s := { s with pwr := { s.pwr with alert := w } }.emitOut .pin 0 (leBytes 1 (b2n !w))
    if w = true ∧ s.side.ibi = true ∧ s.side.dyn.isSome = true then s.emitOut .i3c 1 [1] else s

def State.setPgood (s : State) (v : Bool) : State :=
  if s.pwr.pgood = v then s else { s with pwr := { s.pwr with pgood := v } }.emitOut .pin 1 (leBytes 1 (b2n v))

/-- Wall time in ns (R383). -/
def State.wallNs (s : State) : Nat := s.hpt.wall + 1000 * (s.timeUs - s.hpt.wallAt)

/-- Whether the firmware runs, so that a write to a control-space register takes effect and the detectors act: in a warm
recovery, from the moment its image is verified (R369, R406). -/
def State.running (s : State) : Bool :=
  match s.phase with
  | .starting | .ready | .recovering | .out => true
  | _ => false

/-! ### Scopes (R358, R367, Table 12-4) -/

/-- Whether the scope of reset `a` holds that of `b`. -/
def ResetAct.covers : ResetAct → ResetAct → Bool
  | .cold, _ => true
  | .oos, .cold => false
  | .oos, _ => true
  | .warm, .cold => false
  | .warm, .oos => false
  | .warm, _ => true
  | .die d, .core g => g / 32 == d
  | .die d, .die e => d == e
  | .core g, .core h => g == h
  | .ctxDown c, .ctxDown d => c == d
  | _, _ => false

/-- Whether [a, a+n) meets the HBM of die `d`. -/
def meetsDie (d a n : Nat) : Bool := decide (a < (d + 1) * hbmDie) && decide (d * hbmDie < a + n)

/-- R358: whether a forme has a chase, a window, an area, a die quoin or a monitor entry on die `d`. -/
def Forme.onDie (f : Forme) (d : Nat) : Bool :=
  decide ((f.chaseOf d).ncores ≠ 0) || f.windows.any (fun w => meetsDie d w.base w.len)
    || f.areas.any (fun a => meetsDie d a.base a.len) || f.quoins.any (·.die == d) || f.mons.any (·.die == d)

/-- The contexts that a reset tears down. -/
def State.hitBy (s : State) : ResetAct → List Nat
  | .ctxDown c => [c]
  | .core g => (s.occupant g).toList
  | .die d => (s.formes.filter fun p => p.2.onDie d).map (·.1)
  | _ => (List.range 8).filter fun c => s.ctxState c != ctxFree

/-! ### The decision (R361, R365, R366, R371) -/

/-- R239: ports enter HOLD, and remember what they were. -/
def State.holdPorts (s : State) : State :=
  (List.range 48).foldl (fun s p =>
    let v := s.portState p
    if v = portActive ∨ v = portSpare then (s.modLink p fun l => { l with heldAs := v }).setPort p portHold else s) s

/-- R371, R217, R262: what a decision does at once. -/
def State.atDecision (s : State) (act : ResetAct) (code : Nat) : State :=
  let s := (s.hitBy act).foldl (fun s c =>
    let s := if s.ctxState c = ctxMigrating then s.migrateFailed c 1 else s
    s.ctxFault c code (match act with | .core g => g | _ => (s.occupied c).headD 0)) s
  let s := (s.coresHit act).foldl (fun s g => s.modCore g fun k => { k with stopped := true }) s
  match act with
  | .warm => (s.sendLeaving 1).holdPorts
  | .oos => (s.sendLeaving 5).holdPorts
  | _ => s

/-- R365: a warm decision now; it becomes an out-of-service decision when the count reaches LIMIT. -/
def State.countWarm (s : State) : State × ResetAct :=
  let w := 1000000 * s.fget F.MGT_RST_ESC_WINDOW_S
  let l := (s.rst.warmAt.filter fun t => decide (s.timeUs ≤ t + w)) ++ [s.timeUs]
  let s := { s with rst := { s.rst with warmAt := l, decided := s.timeUs } }.fset F.MGT_RST_STAT_WARM_IN_WINDOW l.length
  (s, if s.fget F.MGT_RST_ESC_LIMIT ≤ l.length then .oos else .warm)

/-! ### Filtered inputs (R430 to R432) -/

def State.pin (s : State) (i : Nat) : Pin := s.pwr.pins.getD i .low
def State.setPin (s : State) (i : Nat) (p : Pin) : State := { s with pwr := { s.pwr with pins := listSet s.pwr.pins i p } }
/-- The accepted level of input `i`. -/
def State.level (s : State) (i : Nat) : Bool := (s.pin i).accepted
/-- Whether input `i` is faulty. -/
def State.pinFaulty (s : State) (i : Nat) : Bool := (s.pin i).faulty

/-- PWR_PIN_STAT shows the accepted levels and the faulty inputs. -/
def State.showPins (s : State) : State :=
  let of := fun f : Pin → Bool => ((List.range 3).map fun i => 2 ^ i * b2n (f (s.pin i))).sum
  (s.fset F.PWR_PIN_STAT_LEVEL (of (·.accepted))).fset F.PWR_PIN_STAT_FAULTY (of (·.faulty))

def State.setLevel (s : State) (i : Nat) (v : Bool) : State := (s.setPin i { s.pin i with accepted := v }).showPins
def State.setFaulty (s : State) (i : Nat) (v : Bool) : State := (s.setPin i { s.pin i with faulty := v }).showPins

/-! ### Applying a reset (R358, R359) -/

/-- Registers whose description satisfies `p` return to their reset values (R12). -/
def State.clearRegs (s : State) (p : RegDesc → Nat → Bool) : State :=
  { s with regs := s.regs.dropIf fun o => match findReg o with | some r => p r o | none => false }

def State.setRstate (s : State) (v : Nat) : State := s.fset F.MGT_RST_STAT_RSTATE v

/-- RSTATE once no reset is under way. -/
def State.restRstate (s : State) : Nat :=
  match s.phase with
  | .starting => 3
  | .out => 4
  | _ => 0

/-- The detector number of a reset that no detector and no host ordered. -/
def noDet : Nat := 16

/-- DETECTORS of Table 12-6 for one detector. -/
def detMask (det : Nat) : Nat := if det = 0 ∨ det = noDet then 0 else 2 ^ det

/-- The domain and detector of the last reset. -/
def State.lastReset (s : State) (domain det : Nat) : State :=
  (s.fset F.MGT_RST_STAT_LAST_DOMAIN domain).fset F.MGT_RST_STAT_LAST_DET (det % 16)

/-- R231: a context that a reset has stopped is torn down. -/
def State.resetTeardown (s : State) (c : Nat) : State :=
  let v := s.ctxState c
  if v = ctxFree then s
  else if v = ctxTearing then s.modCtx c fun x => { x with tearing := some (x.tearing.getD s.timeUs) }
  else (if v = ctxFaulted then s else s.faultNow c).startTeardown c

/-- R358: the logic and memory of core `g` cleared. -/
def State.clearCore (s : State) (g : Nat) : State :=
  ((s.zeroSram g).setCore g Core.reset).clearRegs fun r o =>
    r.dom == .core && decide (coreBase g ≤ o) && decide (o < coreBase g + 0x20000)

def State.applyCore (s : State) (g det : Nat) : State :=
  let s := s.raise 0x0902 (s.occupant g) g [det % 16]
  let hit := s.hitBy (.core g)
  let s := (hit.foldl State.resetTeardown s).clearCore g
  (({ s with rst := { s.rst with running := s.rst.running ++ [(ResetAct.core g, s.timeUs)] } }).setRstate 2).lastReset 1 det

/-- The registers of the smaller domains of die `d`, its cores, its die state, its HBM and every die's copies of it. -/
def State.clearDie (s : State) (d : Nat) : State :=
  let s := (List.range 32).foldl (fun s c => s.clearCore (32 * d + c)) s
  let s := (s.setDie d Die.reset).clearRegs fun r o =>
    r.dom == .die && decide (dieBase d ≤ o) && decide (o < dieBase d + 0x1000000)
  { s with mem := memClear s.mem (d * hbmDie) hbmDie
           ecc := s.ecc.dropIf fun a => place a == Place.hbm d }.snoop (d * hbmDie) hbmDie

def State.applyDie (s : State) (d det : Nat) : State :=
  let s := s.raise 0x0903 none d [det % 16]
  let s := ((s.hitBy (.die d)).foldl State.resetTeardown s).clearDie d
  (({ s with rst := { s.rst with running := s.rst.running ++ [(ResetAct.die d, s.timeUs)] } }).setRstate 2).lastReset 2 det

/-- The teardown of every context thaws every engine: VXE_STAT.FROZEN and XFE_STAT.FROZEN clear. -/
def State.thaw (s : State) : State :=
  (List.range 128).foldl State.thawCore s

/-- Table 12-1: what a warm reset leaves of the module: Cold-domain registers, ports and their links, routes, the tick
unit, colophons, flash and fuses, the power pins and sensors, and the host link. -/
def State.warmLeft (s : State) : State :=
  let t := s.thaw.clearRegs fun r _ => r.dom != .cold
  { State.reset with
    pending := s.pending, timeUs := s.timeUs, free := s.free, out := s.out
    regs := t.regs
    links := s.links.map fun _ l => { l with rxq := [] }
    routes := s.routes
    tick := s.tick, tck := s.tck
    nextXfer := s.nextXfer
    hpt := { s.hpt with qps := [], erK := 0, held := [], claims := .empty }
    rst := s.rst, sec := { s.sec with spdm := Sec.blank.spdm }, pwr := s.pwr }

/-- R424: the cap that PWR_CAP asks for. -/
def State.capWanted (s : State) : Nat := Nat.min (s.fget F.PWR_CAP_HOST_CAP) (s.fget F.PWR_CAP_BMC_CAP)

/-- R369, R424, R430: after a warm reset PWR goes on with the accepted pins, and the cap that PWR_CAP asks for takes
effect again. -/
def State.warmPower (s : State) : State :=
  let thr := !s.level 2 && s.pwr.mgt
  let s := s.fset F.PWR_STAT_THROTTLED (b2n thr)
  if s.capWanted = s.capInForce then s else { s with pwr := { s.pwr with capAt := some s.timeUs } }

/-- The resets under way once a reset of the module, `act`, is applied: a tripped die stays in its own until it cools (R429). -/
def State.resetsAfter (s : State) (act : ResetAct) : List (ResetAct × Nat) :=
  (act, s.timeUs) :: s.rst.running.filter fun p => match p.1 with | .die d => s.pwr.tripped.contains d | _ => false

/-- The history of resets once a reset of the module is applied: a persist under way is lost, and its record waits again. -/
def State.resetHistory (s : State) (act : ResetAct) (det : Nat) : Resets Event Snap :=
  let again := match s.rst.persist with
    | some p => listSet s.rst.measuredAt p.slot 0
    | none => s.rst.measuredAt
  { s.rst with
    running := s.resetsAfter act, waiting := [], capture := none, capAt := 0, lastDet := det, persist := none
    measuredAt := again }

/-- Table 12-3: the reset step of a warm recovery. The firmware runs again once the image is verified. -/
def State.applyWarm (s : State) (det : Nat) : State :=
  let s := s.warmLeft.warmPower
  let s := { s with phase := .resetting, rst := s.resetHistory .warm det }
  (s.setRstate 2).lastReset 3 det

/-- R366: out of service. The management plane and the control plane's answers go on. -/
def State.applyOos (s : State) (det : Nat) : State :=
  let s := s.warmLeft.warmPower
  let s := { s with phase := .out, rst := s.resetHistory .oos det }
  let s := (List.range 48).foldl (fun s p =>
    ({ s with links := s.links.set p Link.reset }.fset (F.FAB_PORT_CTRL_EN (p / 24) (p % 24)) 0).setPort p portDisabled) s
  let s := (s.setRstate 4).lastReset 4 det
  ((s.fset F.PWR_ALERT_OOS 1).fset F.MGT_PLANE_STAT_MGC_ALIVE 15).raise 0x0906 none 0 [det % 16] |>.showAlert

def State.applyReset (s : State) (act : ResetAct) (det : Nat) : State :=
  match act with
  | .ctxDown _ => if s.rst.running.isEmpty then s.setRstate s.restRstate else s
  | .core g => s.applyCore g det
  | .die d => s.applyDie d det
  | .warm => s.applyWarm det
  | .oos => s.applyOos det
  | .cold => s

/-! ### Captures (R371 to R373) -/

/-- R373: the slot that a capture takes: the lowest empty one, else the one whose record is the oldest of those persisted
in full. -/
def State.captureSlot (s : State) : Option Nat :=
  match (List.range 4).find? fun i => (s.rst.ram.getD i none).isNone with
  | some i => some i
  | none =>
    let done := (List.range 4).filter fun i => bit (s.fget F.COL_STAT_FULL_DONE) i
    let seqOf : Nat → Nat := fun i => match s.rst.ram.getD i none with | some r => r.seq | none => 0
    done.foldl (fun b i => match b with | none => some i | some j => if seqOf i < seqOf j then some i else some j) none

/-- DOMAIN of Table 12-6. -/
def ResetAct.domain : ResetAct → Nat
  | .ctxDown _ => 0 | .core _ => 1 | .die _ => 2 | .warm => 3 | .oos => 4 | .cold => 5

/-- A record as its capture begins (Table 12-6). -/
def State.newRecord (s : State) (domain target det : Nat) (full : Bool) : ColRecord :=
  { full := full
    flags := (if full then 0 else 2) + (if det = 0 then 8 else 0)
    seq := s.rget R.COL_SEQ
    detectors := detMask det
    domain := domain
    target := target
    restarts := 0
    captureUs := 0
    wall := s.wallNs
    tick := s.tick
    epoch := s.rget R.FAB_MEMB_EPOCH
    unreach := []
    fwHash := s.sec.fwHash
    sectMask := 0
    events := []
    stamp := s.free
    snap := none }

/-- R373: the next sequence number is kept in flash. -/
def State.bumpSeq (s : State) : State :=
  let n := (s.rget R.COL_SEQ + 1) % 2 ^ 32
  { s.rset R.COL_SEQ n with sec := { s.sec with colSeq := n }, free := s.free + 1 }

def State.dropCapture (s : State) : State := (s.fadd F.COL_STAT_DROPPED 1).raise 0x090B none 0 []

/-- R371: a capture begins, or is dropped and the reset goes on (R373). -/
def State.startCapture (s : State) (act : ResetAct) (det : Nat) : State :=
  match s.captureSlot with
  | none => { s.dropCapture with rst := { s.dropCapture.rst with recSlot := none } }.applyReset act det
  | some i =>
    let r := s.newRecord act.domain act.target det (det != 10)
    let k : Capture Event Snap := ⟨act, r, some i, s.timeUs⟩
    ({ s.bumpSeq with rst := { s.bumpSeq.rst with capture := some k } }).setRstate 1

/-- R371, Table 12-4: what the capture for `act` reads of its units. A core's reset takes its die's shared units in, and a
teardown's none; the global and management state always is. -/
def State.snapshot (s : State) (act : ResetAct) : Snap :=
  let dies := match act with
    | .ctxDown _ => []
    | .core g => [g / 32]
    | .die d => [d]
    | _ => List.range 4
  { ctxs := s.ctxs, regs := s.regs
    cores := s.cores.dropIf fun g => !(s.coresHit act).contains g
    dies := s.dies.dropIf fun d => !dies.contains d }

/-- R365: the decision for an order of `act`; a new warm recovery has had no restart. -/
def State.warmDecision (s : State) (act : ResetAct) : State × ResetAct :=
  if act = .warm then
    let (s, act) := s.countWarm
    (s.fsetIf (act = .warm) F.MGT_RST_STAT_RESTARTS 0, act)
  else (s, act)

/-- R363 to R368: an order of `act`, after a capture where `cap`; `det` is its detector, 0 where you ordered it. LAST_DET will
name the detector of the reset that is performed, and the capture under way lists every one (R367). -/
def State.orderReset (s : State) (act : ResetAct) (det code : Nat) (cap : Bool) : State :=
  match s.rst.capture with
  | some k =>
    let r := { k.record with detectors := k.record.detectors ||| detMask det }
    if k.act.covers act then { s with rst := { s.rst with capture := some { k with record := r } } }
    else
      let (s, act) := s.warmDecision act
      if act.covers k.act then
        let r := { r with domain := act.domain, target := act.target }
        let k : Capture Event Snap := { k with act := act, record := r }
        let rest := s.rst.waiting.filter fun p => !act.covers p.1
        { s with rst := { s.rst with lastDet := det, capture := some k, waiting := rest } }.atDecision act code
      else
        let k : Capture Event Snap := { k with record := r }
        { s with rst := { s.rst with capture := some k, waiting := s.rst.waiting ++ [(act, det)] } }
  | none =>
    let (s, act) := { s with rst := { s.rst with lastDet := det } }.warmDecision act
    let s := s.atDecision act code
    if cap ∨ act = .oos then s.startCapture act det
    else { s with rst := { s.rst with recSlot := none } }.applyReset act det

/-- R371: whether the running capture already answers detector `det` with `act`: its units are clock-stopped, and the
detector does not fire again. -/
def State.captureHolds (s : State) (det : Nat) (act : ResetAct) : Bool :=
  match s.rst.capture with
  | none => false
  | some k => k.act == act && bit k.record.detectors det

/-- R361: detector `det` fires on unit `unit`; it is ignored within the scope of a reset in progress (R367). -/
def State.detect (s : State) (det unit code : Nat) (act : ResetAct) : State :=
  if s.running = false ∨ s.rst.running.any (fun p => p.1.covers act) ∨ s.captureHolds det act = true then s
  else
    let s := (s.fset F.MGT_HANG_STAT_DET (s.fget F.MGT_HANG_STAT_DET ||| 2 ^ (det - 1))).raise 0x0901 none unit [det]
    s.orderReset act det code true

/-- R372: a capture ends: its record is kept, its events are raised, and the reset that waited is applied. -/
def State.captureEnd (s : State) (missing : Nat) : State :=
  match s.rst.capture with
  | none => s
  | some k =>
    let all := if k.record.full then 0x7F else 0x6F
    let cut := all &&& missing
    if cut ≠ 0 ∧ s.timeUs < k.since + 150000 then s
    else
      let det := s.rst.lastDet
      let r := { k.record with
        captureUs := s.timeUs - k.since, sectMask := all - cut, events := s.evLog, snap := some (s.snapshot k.act)
        flags := k.record.flags + (if cut = 0 then 0 else 1) }
      let i := k.slot.getD 0
      let clear := fun v : Nat => if bit v i then v - 2 ^ i else v
      let s := ((List.range 8).filter s.captureOn).foldl (fun s c =>
        s.modCtx c fun x => { x with tearing := x.tearing.map fun _ => s.timeUs }) s
      let s := { s with rst := { s.rst with
        capture := none, recSlot := some i, ram := listSet s.rst.ram i (some r)
        measuredAt := listSet s.rst.measuredAt i 0 } }
      let s := (s.fset F.COL_STAT_RAM_VALID (s.fget F.COL_STAT_RAM_VALID ||| 2 ^ i)).fset F.COL_STAT_FULL_DONE
        (clear (s.fget F.COL_STAT_FULL_DONE))
      let s := (s.fset F.COL_STAT_SUM_DONE (clear (s.fget F.COL_STAT_SUM_DONE))).raise 0x0907 none 0 [r.seq]
      let s := r.unreach.foldl (fun s u => s.raise 0x090C none u []) s
      let w := s.rst.waiting
      let s := { s with rst := { s.rst with waiting := [] } }.applyReset k.act det
      w.foldl (fun s p => if s.rst.running.any (fun q => q.1.covers p.1) then s else s.orderReset p.1 p.2 0x0901 true) s

/-- CAPTURE_END (R372): `missing` are the sections that were not read. -/
def execCaptureEnd (missing : BitVec 7) (s : State) : Host.Outcome State Fault Refusal := .next (s.captureEnd missing.toNat).flush

/-- R372: scan unit `u` has not answered for 10 µs. -/
def execScanTimeout (u : Fin 32768) (s : State) : Host.Outcome State Fault Refusal :=
  .next (match s.rst.capture with
    | none => s
    | some k =>
      if s.timeUs < k.since + 10 ∨ k.record.unreach.contains u.val = true then s
      else { s with rst := { s.rst with capture := some { k with record := { k.record with unreach := k.record.unreach ++ [u.val] } } } })

/-! ### Planes (R26, R27) -/

/-- R26: core MGCm has been silent for 10 ms. -/
def State.mgcSilent (s : State) (m : Nat) : State :=
  let v := s.fget F.MGT_PLANE_STAT_MGC_ALIVE
  if bit v m then
    let s := s.fset F.MGT_PLANE_STAT_MGC_ALIVE (v - 2 ^ m)
    if v = 2 ^ m then { s with rst := { s.rst with silentAt := s.timeUs } } else s
  else s

def execMgcHeartbeatSilent (m : MgcId) (s : State) : Host.Outcome State Fault Refusal := .next (s.mgcSilent m)

/-- R26, R361 detector 11: neither MGC2 nor MGC3 is heard, and MGC0 or MGC1 declares it. -/
def execManagementPlaneDown (s : State) : Host.Outcome State Fault Refusal :=
  .next (if s.running = true ∧ s.fget F.MGT_PLANE_STAT_MGC_ALIVE / 4 = 0
      ∧ s.fget F.MGT_PLANE_STAT_MGC_ALIVE % 4 ≠ 0 ∧ s.fget F.MGT_PLANE_STAT_MGMT_DOWN = 0 then
    ((s.holdWaiting.fset F.MGT_PLANE_STAT_MGMT_DOWN 1).fset F.MGT_HANG_STAT_DET (s.fget F.MGT_HANG_STAT_DET ||| 2 ^ 10)).raise 0x0901 none 0 [11]
  else s)

/-- R27, R361 detector 9: neither MGC0 nor MGC1 is heard, and MGC2 or MGC3 declares it. -/
def execControlPlaneDown (s : State) : Host.Outcome State Fault Refusal :=
  .next (if s.running = true ∧ s.phase ≠ .recovering ∧ s.fget F.MGT_PLANE_STAT_MGC_ALIVE % 4 = 0
      ∧ s.fget F.MGT_PLANE_STAT_MGC_ALIVE / 4 ≠ 0 ∧ s.fget F.MGT_PLANE_STAT_MGMT_DOWN = 0
      ∧ s.fget F.MGT_PLANE_STAT_CTRL_DOWN = 0 then
    ((s.fset F.MGT_PLANE_STAT_CTRL_DOWN 1).detect 9 0 0x0901 .warm).flush
  else s)

/-- R26: whether the command in hand of ring `r` has been held for 100 ms. -/
def State.heldLong (s : State) (c r : Nat) : Bool :=
  match (s.ring c r).cur with
  | some k => k.stage == .heldMgmt && decide (k.since + 100000 ≤ s.timeUs)
  | none => false

/-- R26: a held command's 100 ms are over. -/
def execHeldCommandTimeout (c : CtxId) (r : RingId) (s : State) : Host.Outcome State Fault Refusal :=
  .next (if s.heldLong c r then s.complete c r stMgmtUnavailable 0 0 else s)

/-- R26: the management plane is back with MGC2 or MGC3: the commands held no longer than 100 ms proceed. -/
def execManagementPlaneReturn (m : Fin 2) (s : State) : Host.Outcome State Fault Refusal :=
  .next (if s.fget F.MGT_PLANE_STAT_MGMT_DOWN = 0 then s
    else
      let s := (s.fset F.MGT_PLANE_STAT_MGMT_DOWN 0).fset F.MGT_PLANE_STAT_MGC_ALIVE
        (s.fget F.MGT_PLANE_STAT_MGC_ALIVE ||| 2 ^ (2 + m.val))
      let s := (List.range 8).foldl (fun s c => (List.range 4).foldl (fun s r =>
        if s.heldLong c r then s.complete c r stMgmtUnavailable 0 0
        else s.modRing c r fun g => { g with cur := g.cur.map fun k =>
          if k.stage = .heldMgmt then { k with stage := .taken } else k }) s) s
      s.fset F.MGT_PLANE_STAT_HELD_CMDS 0)

/-! ### The detectors (Table 12-2, R202) -/

/-- Units of a core: MXE, VXE, XFE. -/
def State.engineHung (s : State) (g u : Nat) : Bool :=
  let k := s.core g
  let lim := 1000 * s.fget F.MGT_HANG_CTRL_ENG_WDOG_MS
  s.live g && match u with
    | 0 => !k.tiles.isEmpty && decide (k.mxeAt + lim ≤ s.timeUs)
    | 1 => s.vxeBegun g && decide (k.vxeAt + lim ≤ s.timeUs)
    | 2 => k.slots.any (fun x => x.req.kind == .copy || x.req.kind == .zero) && decide (k.xfeAt + lim ≤ s.timeUs)
    | _ => false

/-- Detector 1 (R361): engine `u` of core `g` completes nothing. -/
def execEngineWatchdog (g : CoreId) (u : Fin 3) (s : State) : Host.Outcome State Fault Refusal :=
  .next (if s.engineHung g u then (s.detect 1 g 0x0901 (.core g)).flush else s)

/-- Detector 2 (R361): thread `t` of core `g` stays in RUN without issuing. -/
def execThreadWatchdog (g : CoreId) (t : Fin 8) (s : State) : Host.Outcome State Fault Refusal :=
  .next (if s.live g = true ∧ s.thrCode g t = 1
      ∧ (s.core g).thrAt.getD t 0 + 1000 * s.fget F.MGT_HANG_CTRL_ENG_WDOG_MS ≤ s.timeUs then
    (s.detect 2 g 0x0901 (.core g)).flush else s)

/-- R361: the resets that detector 3 orders for a request: a warm one for a bank of LPDDR5X, else that of the die of each of its
HBM banks. A copy from memory to memory is taken as unserved by both its banks (DEDUCED, assumption 103). -/
def Req.overdue (r : Req) : List ResetAct :=
  let bs := [r.bank, r.bank2].filter fun b => decide (b < 0x20000)
  if bs.any fun b => decide (0x10000 ≤ b) then [.warm] else (bs.map fun b => ResetAct.die (b / 512 / 3)).dedup

/-- Detector 3 (R361): the `i`-th request of core `g`, held in a slot or waiting for one, has not been served. -/
def execTransferTimeout (g : CoreId) (i : Fin 4096) (s : State) : Host.Outcome State Fault Refusal :=
  .next (match ((s.core g).slots ++ (s.core g).waits)[i.val]? with
    | none => s
    | some x =>
      if s.timeUs < x.issued + 1000 * s.fget F.MGT_HANG_CTRL_XFER_TO_MS ∨ s.live g = false ∨ x.req.kind.isLocal = false then s
      else (x.req.overdue.foldl (fun s a => s.detect 3 g 0x0901 a) s).flush)

/-- Detector 4 (R361): core `g` has waited too long for an even generation (R164). -/
def execGenerationWait (g : CoreId) (s : State) : Host.Outcome State Fault Refusal :=
  .next (match s.occupant g with
    | none => s
    | some c =>
      let lim := 1000 * s.fget F.MGT_HANG_CTRL_XFER_TO_MS
      if s.live g = true ∧ ((s.core g).refetch.any fun r =>
          !r.done && s.quoin g r.fill.gq % 2 == 1 && decide (r.since + lim ≤ s.timeUs)) = true then
        (s.detect 4 g 0x0901 (.ctxDown c)).flush
      else s)

/-- Detector 5 (R202): the impression in progress has caused slips for longer than LIMIT_MS. -/
def execOverrunLimit (c : CtxId) (s : State) : Host.Outcome State Fault Refusal :=
  .next (if s.ctxState c = ctxRunning ∧ (s.ctx c).faultStop = false
      ∧ 1000 * s.fget F.TCK_OVR_LIMIT_LIMIT_MS < (s.ctx c).slipTicks * s.periodUs then
    ((s.raise 0x0403 (some c.val) 0 [(s.ctx c).pos.imp]).detect 5 c 0x0403 (.ctxDown c)).flush
  else s)

/-- Detector 6 (R361): the teardown of context `c` has lasted 300 µs, and its cores are reset. -/
def execTeardownTimeout (c : CtxId) (s : State) : Host.Outcome State Fault Refusal :=
  .next (match (s.ctx c).tearing with
    | none => s
    | some t =>
      if s.ctxState c ≠ ctxTearing ∨ s.captureOn c = true ∨ s.timeUs < t + 300 then s
      else ((s.occupied c).foldl (fun s g => s.detect 6 g 0x0901 (.core g)) s).flush)

/-- Whether some core's held request satisfies `p` and is older than `us` µs. -/
def State.oldRequest (s : State) (us : Nat) (p : Nat → Slot → Bool) : Bool :=
  s.cores.keys.any fun g => (s.core g).slots.any fun x => decide (x.issued + us ≤ s.timeUs) && p g x

/-- Whether edge engine `u` has work that it started and has not completed for `us` µs: an open bucket of RDX `u`, the
cells queued or unacknowledged on the ports of an edge die, whose check values unit 4 or 5 computes, or a request in a bank
queue of the controller of device `u - 6`. -/
def State.edgeEngineHung (s : State) (u us : Nat) : Bool :=
  if u < 4 then
    (List.range 8).any fun c => s.bucketsRun c && (s.coll c).buckets.any fun b =>
      b.holds && (s.desc? c b.idx).any (fun r => r.rdx == u) && decide (b.progress + us ≤ s.timeUs)
  else if u < 6 then
    (List.range 24).any fun j =>
      let l := s.link (24 * (u - 4) + j)
      (!l.waiting.isEmpty || !l.replay.isEmpty) && decide (l.quietAt + us ≤ s.timeUs)
  else
    let dev := fun k : Nat => decide (0x10000 ≤ k) && (k - 0x10000) / 16 == u - 6
    s.cores.keys.any fun g => (s.core g).slots.any fun x =>
      (x.queued.any fun q => decide (q + us ≤ s.timeUs)) && (dev x.req.bank || dev x.req.bank2)

/-- Detector 7 (R361): edge engine `u` (RDX 0 to 3, check-value units 4 and 5, LPDDR5X controllers 6 to 21) completes
nothing. -/
def execEdgeEngineWatchdog (u : Fin 22) (s : State) : Host.Outcome State Fault Refusal :=
  .next (if s.edgeEngineHung u (1000 * s.fget F.MGT_HANG_CTRL_ENG_WDOG_MS) then (s.detect 7 u 0x0901 .warm).flush else s)

/-- Whether bank `b` has been recorded as degraded within the last second (Table 5-8): its requests wait at its controller. -/
def State.bankSlow (s : State) (b : Nat) : Bool := (s.lastEvent.find (2 ^ 40 + b)).any fun t => decide (s.timeUs < t + 1000000)

/-- Whether request `x` of core `g`, unserved, is traffic of bridge `b`: it goes to this module's memory over `b`, and does not wait
at the controller of a degraded bank. The model does not place a request between the bridge and its controller (DEDUCED,
assumption 103). -/
def State.onBridge (s : State) (b g : Nat) (x : Slot) : Bool :=
  let ends := if x.req.kind = .copy then [x.req.src, x.req.dst] else if x.req.kind = .zero then [x.req.dst] else []
  !s.bankSlow x.req.bank && !s.bankSlow x.req.bank2
    && ends.any fun a => (s.bridgesOf (s.occupant g) (some (g / 32)) (homeDie a)).contains b

/-- Whether a context has had images to write over bridge `b` for `us` µs: a state save takes the default route (R15). -/
def State.savesOver (s : State) (b us : Nat) : Bool :=
  (List.range 8).any fun c => s.ctxState c == ctxSaving && decide ((s.ctx c).stopAt + us ≤ s.timeUs) && match (s.ctx c).forme with
    | some f => (s.occupied c).any fun g => (s.bridgesOf none (some (g / 32)) (homeDie (f.imageAt g))).contains b
    | none => false

/-- R361: bridge `b` has traffic queued and has moved none for 1 ms. -/
def State.bridgeStalled (s : State) (b : Nat) : Bool :=
  decide (s.bridgeAt.getD b 0 + 1000 ≤ s.timeUs) && (s.oldRequest 1000 (s.onBridge b) || s.savesOver b 1000)

/-- Detector 8 (R361): bridge `b` of Table 1-2 stalls. -/
def execBridgeStall (b : Fin 12) (s : State) : Host.Outcome State Fault Refusal :=
  .next (if s.bridgeStalled b then (s.detect 8 b 0x0901 .warm).flush else s)

/-- Detector 10 (R361): SEC has heard no management core for 1 s. -/
def execSecWatchdog (s : State) : Host.Outcome State Fault Refusal :=
  .next (if s.fget F.MGT_PLANE_STAT_MGC_ALIVE = 0 ∧ s.rst.silentAt + 990000 ≤ s.timeUs then
    (s.detect 10 0 0x0901 .warm).flush else s)

/-! ### The units present (R364, R406, R449) -/

/-- R449: core `g` is found absent, and is powered down. -/
def State.coreAbsent (s : State) (g : Nat) : State :=
  let s := s.dropCore g
  { s with pwr := { s.pwr with coresOff := s.pwr.coresOff ++ [g] } }

/-- Bit `i` of a capability field cleared. -/
def State.clearCap (s : State) (f : Fld) (i : Nat) : State :=
  let v := s.fget f
  if bit v i then (s.fset f (v - 2 ^ i)).fset F.MGT_CAP_SUM_REDUCED 1 else s

/-- Table 16-5: die `d` is absent as a whole. -/
def State.dieAbsent (s : State) (d : Nat) : State :=
  ((s.clearCap F.MGT_CAP_SUM_CD_PRESENT d).rset (R.MGT_CAP_CORE d) 0).rset (R.MGT_CAP_DIE d) 0

/-- R16: one bridge of die `d` to edge die `e` is out of service; with both gone, so is the die. -/
def State.edBridgeAbsent (s : State) (d e : Nat) : State :=
  let s := s.clearCap (F.MGT_CAP_DIE_BRIDGES d) e
  if s.fget (F.MGT_CAP_DIE_BRIDGES d) % 4 = 0 then s.dieAbsent d else s

/-- Table 16-5: ED1 is absent. -/
def State.edAbsent (s : State) : State :=
  let s := s.clearCap F.MGT_CAP_SUM_ED_PRESENT 1
  let s := (List.range 8).foldl (fun s i => s.clearCap F.MGT_CAP_LPX_LPX (8 + i)) s
  let s := (s.clearCap F.MGT_CAP_SUM_RDX_PRESENT 2).clearCap F.MGT_CAP_SUM_RDX_PRESENT 3
  let s := (List.range 4).foldl (fun s d => s.edBridgeAbsent d 1) s
  (List.range 24).foldl (fun s j => { s with links := s.links.erase (24 + j) }.setPort (24 + j) portDisabled) s

/-- Unit `u` leaves service (Table 16-5): 0 to 127 cores; 128 dies; 132 HBM stacks; 144 LPDDR5X devices; 160 reduction
engines; 164 ED1; 165 + d the bridge CDd to CD(d+1); 169 + 2 d + e the bridge CDd to EDe. -/
def State.unitAbsent (s : State) (u : Nat) : State :=
  if u < 128 then s.coreAbsent u
  else if u < 132 then s.dieAbsent (u - 128)
  else if u < 144 then s.clearCap (F.MGT_CAP_DIE_HBM ((u - 132) / 3)) ((u - 132) % 3)
  else if u < 160 then s.clearCap F.MGT_CAP_LPX_LPX (u - 144)
  else if u < 164 then s.clearCap F.MGT_CAP_SUM_RDX_PRESENT (u - 160)
  else if u = 164 then s.edAbsent
  else if u < 169 then
    let d := u - 165
    (s.clearCap (F.MGT_CAP_DIE_BRIDGES d) 2).clearCap (F.MGT_CAP_DIE_BRIDGES ((d + 1) % 4)) 3
  else
    s.edBridgeAbsent ((u - 169) / 2) ((u - 169) % 2)

/-! ### Clocks (R425, R435) -/

/-- The clock of die `d`: `mhz`, a multiple of 25 between 1,000 and 3,000. -/
def clampMhz (lo hi mhz : Nat) : Nat :=
  let lo := Nat.max 1000 lo
  Nat.max lo (Nat.min (Nat.min 3000 hi) (mhz / 25 * 25))

/-- The clock of die `d` set as near `v` as the bounds that R425 sets and `top` allow, or to 1,000 MHz under THROTTLE_N (R435).
The floor wins over `top`. -/
def State.clockWithin (s : State) (d top v : Nat) : State :=
  let fl := s.floorMhz d
  let hi := Nat.min top (s.fget (F.MGT_CAP_DIE_MAX_MHZ d))
  let s := s.fset (F.PWR_DIE_FLOOR_MHZ d) fl
  if bit (s.fget F.MGT_CAP_SUM_CD_PRESENT) d = false ∨ s.pwr.tripped.contains d = true then s.fset (F.PWR_DIE_CLK_MHZ d) 0
  else if s.fget F.PWR_STAT_THROTTLED = 1 then s.setClock d 1000
  else s.setClock d (clampMhz fl hi v)

/-- The power manager's choice for die `d`, at most `top`: a free value within its bounds. -/
def State.pickClock (s : State) (d top : Nat) : State :=
  let (s, v) := s.freeVal
  s.clockWithin d top (v % 4096)

/-- Whether die `d` is held at its floor by Table 15-2. -/
def State.dieHot (s : State) (d : Nat) : Bool :=
  s.pwr.hot.contains d || (List.range 3).any fun k => s.pwr.hot.contains (0x100 + 3 * d + k)

/-- The highest clock that the power manager may choose for die `d`, which runs at `now` (R425, R427): it lowers a die that is too
warm, and every die while the average exceeds the cap, and raises none while the module limiter acts. -/
def State.topClock (s : State) (d now : Nat) : Nat :=
  if s.dieHot d then 0
  else if s.capInForce < s.fget F.PWR_INPUT_PIN ∨ s.fget F.PWR_THERM_WARN_C ≤ s.fget (F.PWR_DIE_TJ_C d) then now - 25
  else if s.fget F.PWR_STAT_LIMITER = 1 then now
  else 3000

/-- R425: the clock of die `d` is chosen again; while the management plane is down PWR holds the operating point (R26), and a die
that had none takes its floor (DESIGN CHOICE, assumption 73). -/
def State.chooseClock (s : State) (d : Nat) : State :=
  let now := s.fget (F.PWR_DIE_CLK_MHZ d)
  if s.fget F.MGT_PLANE_STAT_MGMT_DOWN = 1 then s.clockWithin d (if s.dieHot d then 0 else 3000) now
  else s.pickClock d (s.topClock d now)

/-! ### The ends of resets (R363, R364) -/

def State.settleRstate (s : State) : State :=
  if s.rst.capture ≠ none then s.setRstate 1 else if s.rst.running.isEmpty then s.setRstate s.restRstate else s

def State.endRunning (s : State) (a : ResetAct) : State :=
  { s with rst := { s.rst with running := s.rst.running.filter fun p => p.1 != a } }.settleRstate

/-- R185: units of die `d` have left service: the contexts whose formes hold them are faulted. -/
def State.faultHolders (s : State) (d code : Nat) (p : Forme → Bool) (g : Nat) : State :=
  (s.formes.filter fun q => p q.2).foldl (fun s q => s.ctxFault q.1 code (32 * d + g % 32)) s

/-- R364, R185: core `g` fails its self-test. -/
def State.loseCore (s : State) (g : Nat) : State :=
  (s.coreAbsent g).faultHolders (g / 32) 0x0902 (fun f => f.coreList.contains g) g

/-- R364: a core reset ends; `ok` is its self-test's result. -/
def execCoreResetDone (g : CoreId) (ok : Bool) (s : State) : Host.Outcome State Fault Refusal :=
  .next (if s.rst.running.any (fun p => p.1 == ResetAct.core g.val) then
    (if ok then s else s.loseCore g).endRunning (.core g.val) else s)

/-- R185: whether forme `f` uses bridge `b` of Table 1-2. -/
def Forme.usesBridge (f : Forme) (b : Nat) : Bool := f.bridges.any fun r => [(r.src, r.via), (r.via, r.dst)].any fun p => bridgeNo p == b

/-- R449: the units of die `d` that a reset has lost, as `unitAbsent` numbers them. A set bit of `bridges` is the bridge to ED0, to
ED1, to the next die of the ring or to the one before; the loss of both edge bridges is that of the die. -/
def lostUnits (d cores hbm bridges : Nat) : List Nat :=
  let of := fun (v n : Nat) (u : Nat → Nat) => ((List.range n).filter fun i => bit v i).map u
  of cores 32 (32 * d + ·) ++ of hbm 3 (132 + 3 * d + ·) ++ of (bridges % 4) 2 (169 + 2 * d + ·)
    ++ of (bridges / 4) 2 fun i => 165 + (if i = 0 then d else (d + 3) % 4)

/-- R185: whether a forme holds a unit that `unitAbsent` numbers so, `gone` telling that die `d` is lost as a whole. -/
def Forme.holds (f : Forme) (d : Nat) (gone : Bool) (u : Nat) : Bool :=
  (gone && f.onDie d)
  || (if u < 128 then f.coreList.contains u
      else if u < 144 then f.windows.any (fun w => meetsDie d w.base w.len) || f.areas.any fun a => meetsDie d a.base a.len
      else if u < 169 then f.usesBridge (8 + (u - 165))
      else f.usesBridge (u - 169))

/-- R449, R185, R16: units of die `d` leave the capability registers, and their holders are faulted. -/
def State.dropUnits (s : State) (d cores hbm bridges : Nat) : State :=
  let us := lostUnits d cores hbm bridges
  let s := us.foldl State.unitAbsent s
  let gone := !bit (s.fget F.MGT_CAP_SUM_CD_PRESENT) d
  s.faultHolders d 0x0903 (fun f => us.any (f.holds d gone)) 0

/-- The clock of a die that is back in service is chosen again (R425). -/
def State.clockBack (s : State) (d : Nat) : State := if s.phase = .ready then s.chooseClock d else s

/-- R358: a compute-die reset ends; the cores, stacks and bridges that fail are lost. A tripped die waits to cool (R429). Its
clock is chosen again (R425). -/
def execDieResetDone (d : DieId) (cores : BitVec 32) (rest : DieParts) (s : State) :
    Host.Outcome State Fault Refusal :=
  .next (if s.rst.running.any (fun p => p.1 == ResetAct.die d.val) = true ∧ s.pwr.tripped.contains d.val = false then
    ((s.dropUnits d cores.toNat rest.hbm.toNat rest.bridges.toNat).endRunning (.die d.val)).clockBack d else s)

/-- Longest durations of Table 12-1, in µs. -/
def ResetAct.longest : ResetAct → Option (Nat × ResetAct)
  | .core g => some (1000, .die (g / 32))
  | .die _ => some (100000, .warm)
  | _ => none

/-- R363: the first reset that has missed its longest duration is replaced by the next larger. -/
def State.escalate (s : State) : State :=
  match s.rst.running.findSome? fun p =>
      match p.1.longest with
      | some (n, a) =>
        let held : Bool := match p.1 with | .die d => s.pwr.tripped.contains d | _ => false
        if p.2 + n ≤ s.timeUs ∧ held = false then some (p.1, a) else none
      | none => none with
  | none => s
  | some (old, new) =>
    let det := s.rst.lastDet
    let s := { s with rst := { s.rst with running := s.rst.running.filter fun p => p.1 != old } }.raise 0x090D none
      old.target [old.domain]
    s.orderReset new det 0x0901 true

def execResetEscalated (s : State) : Host.Outcome State Fault Refusal := .next s.escalate.flush

/-- R363: a restart is counted, in the record captured for this recovery too while it waits to be persisted. -/
def State.countRestart (s : State) : State :=
  let s := s.fadd F.MGT_RST_STAT_RESTARTS 1
  match s.rst.recSlot.filter fun i => !bit (s.fget F.COL_STAT_FULL_DONE) i with
  | none => s
  | some i =>
    let r := (s.rst.ram.getD i none).map fun (r : ColRecord) => { r with restarts := satAdd 0xFFFF r.restarts 1 }
    { s with rst := { s.rst with ram := listSet s.rst.ram i r } }

/-- R363, R365: a warm recovery has not reached READY in 6 s: it restarts from its reset step, or goes out of service. One that is
going out of service (R364) restarts no more. -/
def State.restartRecovery (s : State) : State :=
  if (s.phase ≠ .resetting ∧ s.phase ≠ .recovering) ∨ s.rst.capture ≠ none ∨ s.timeUs < s.rst.decided + 6000000 then s
  else
    let det := s.rst.lastDet
    let (s, act) := s.countRestart.countWarm
    if act = .oos then ((s.sendLeaving 5).raise 0x090E none 0 []).startCapture .oos det
    else (s.applyWarm det).raise 0x090E none 0 []

def execRecoveryRestarted (s : State) : Host.Outcome State Fault Refusal := .next s.restartRecovery

/-! ### Ordered resets (R368) -/

/-- R368: a write of MGT_RST_CTRL that orders a warm reset; during a warm recovery (R367) and out of service (R366) it is ignored. -/
def State.warmOrder (s : State) (w : Nat) : State :=
  if bits w 31 16 = 0x574B ∧ bit w 0 ∧ bit w 1 = false ∧ (s.phase = .starting ∨ s.phase = .ready) then
    s.orderReset .warm 0 0x0901 (bit w 2)
  else s

def execWarm (w : Word) (s : State) : Host.Outcome State Fault Refusal := .next (s.warmOrder w.toNat).flush

/-- Table 12-1: what a cold reset leaves of the module: the flash and the fuses, the power inputs with their accepted
levels and faults (R432), the rails (R20, R434), the sensors, and the clock of the model. Every register has its reset value. -/
def State.coldLeft (s : State) : State :=
  { State.reset with
    pending := s.pending, timeUs := s.timeUs, free := s.free, out := s.out
    hpt := { Hpt.zero with cfg := s.hpt.cfg }
    rst := { Resets.zero with
      flash := s.rst.flash, nextFlash := s.rst.nextFlash, running := s.pwr.tripped.map fun d => (ResetAct.die d, s.timeUs) }
    sec := { s.sec with
      fwHash := [], net := none, netEvents := [], spdm := Sec.blank.spdm, udsOff := false, idKey := 0, aliasKey := 0, aliasCert := [] }
    pwr := { Power.zero with
      tripped := s.pwr.tripped
      iin := s.pwr.iin, edgeTj := s.pwr.edgeTj, stackT := s.pwr.stackT, mgt := s.pwr.mgt, alert := s.pwr.alert
      pgood := s.pwr.pgood
      pins := s.pwr.pins, rails := s.pwr.rails, throttleAt := s.pwr.throttleAt, bad := s.pwr.bad } }

/-! ### Persisting (R375 to R377) -/

/-- V² − V_min² at the bank voltage of `mv` mV, in mV². -/
def bankSpan (mv : Nat) : Nat := mv * mv - Config.holdupMinMv.toNat * Config.holdupMinMv.toNat

/-- R376: the usable energy ½ C (V² − V_min²) at `mv` mV, in 0.1 J. -/
def State.holdupE (s : State) (mv : Nat) : Nat := s.fget F.PWR_HOLDUP_CAP * bankSpan mv / 2000000000

/-- R377: whether the energy at `mv` mV covers `n` bytes at 12 J per MiB. -/
def State.holdupCovers (s : State) (mv n : Nat) : Bool :=
  decide (240000000000 * n ≤ s.fget F.PWR_HOLDUP_CAP * bankSpan mv * 0x100000)

/-- The energy is measured for the record of slot `i`: PWR_HOLDUP takes it. -/
def State.measured (s : State) (i e : Nat) : State :=
  let s := (s.fset F.PWR_HOLDUP_ENERGY (Nat.min 0xFFF e)).fset F.PWR_HOLDUP_VALID 1
  { s with rst := { s.rst with measuredAt := listSet s.rst.measuredAt i (s.timeUs + 1) } }

/-- R375: the body of a record of slot `i` goes to the next flash slot, the slot after it erased ahead of need. -/
def State.writeBody (s : State) (i : Nat) (r : ColRecord) : State :=
  let n := s.rst.nextFlash % 32
  { s with rst := { s.rst with
    flash := listSet (listSet s.rst.flash n (some ⟨r, false, false⟩)) ((n + 1) % 32) none
    nextFlash := (n + 1) % 32, persist := some ⟨i, n, r.full, false⟩ } }

/-- A record as a summary. -/
def ColRec.summary (r : ColRecord) : ColRecord := { r with full := false, sectMask := r.sectMask &&& 0x6F }

/-- The summary of a record where the energy `e` covers one, or none (Table 12-7). -/
def State.writeSummary (s : State) (i e : Nat) (r : ColRecord) : State :=
  if 15 ≤ e then s.writeBody i r.summary else s.raise 0x090A none i [r.seq]

/-- Table 12-7: a persist of the record of slot `i` begins, at the bank voltage of `mv` mV. -/
def State.persist (s : State) (i mv : Nat) : State :=
  match s.rst.ram.getD i none with
  | none => s
  | some r =>
    let e := s.holdupE mv
    let s := s.measured i e
    let again := bit (s.fget F.COL_STAT_SUM_DONE) i
    if r.full = true ∧ 120 ≤ e then s.writeBody i (if again then { r with flags := r.flags ||| 4 } else r)
    else if r.full = true ∧ again = true then s
    else s.writeSummary i e r

/-- R375, Table 12-7: the header follows the body, and flash holds the record. SUM_DONE is the mark of a summary alone. -/
def State.persisted (s : State) (p : Persist) : State :=
  match s.rst.flash.getD p.flash none with
  | none => { s with rst := { s.rst with persist := none } }
  | some x =>
    let whole := p.full || (s.rst.ram.getD p.slot none).all fun r => !r.full
    let mark := fun (v : Nat) (b : Bool) => (if bit v p.slot then v - 2 ^ p.slot else v) + 2 ^ p.slot * b2n b
    let full := s.fget F.COL_STAT_FULL_DONE
    let s := { s with rst := { s.rst with
      flash := listSet s.rst.flash p.flash (some { x with header := true, crcOk := true }), persist := none } }
    ((s.fset F.COL_STAT_FULL_DONE (if whole then mark full true else full)).fset F.COL_STAT_SUM_DONE
      (mark (s.fget F.COL_STAT_SUM_DONE) !p.full)).raise (if p.full then 0x0908 else 0x0909) none p.slot [x.record.seq]

/-- The persist under way goes on to its end. Where the input has left its range meanwhile (R377), the energy is measured again at
`mv` mV: where it does not cover the bytes that are left, whose number is a free value, the write is abandoned and the summary
goes to the next slot. -/
def State.persistOn (s : State) (p : Persist) (mv : Nat) : State :=
  if p.again = false then s.persisted p
  else
    let (s, n) := s.freeVal
    let e := s.holdupE mv
    let s := s.measured p.slot e
    if s.holdupCovers mv (n % ((if p.full then 0x100000 else 0x10000) + 1)) then s.persisted p
    else
      let s := { s with rst := { s.rst with persist := none } }
      match s.rst.ram.getD p.slot none with
      | none => s
      | some r => s.writeSummary p.slot e r

/-- Slots of colophon RAM whose record has not been persisted in full, oldest first. -/
def State.pendingSlots (s : State) : List Nat :=
  let seqOf : Nat → Nat := fun i => match s.rst.ram.getD i none with | some r => r.seq | none => 0
  ((List.range 4).filter fun i => (s.rst.ram.getD i none).isSome && !bit (s.fget F.COL_STAT_FULL_DONE) i).mergeSort
    fun a b => decide (seqOf a ≤ seqOf b)

/-- R376: PWR measures the bank capacitance, `c` in 0.1 mF: once after each reset, and every 24 h. -/
def execCapacitanceMeasure (c : Nat) (s : State) : Host.Outcome State Fault Refusal :=
  .next (if s.pwr.mgt = true ∧ (s.rst.capAt = 0 ∨ s.rst.capAt + 86400000000 ≤ s.timeUs + 1) then
    ({ s with rst := { s.rst with capAt := s.timeUs + 1 } }).fset F.PWR_HOLDUP_CAP (Nat.min 0xFFFF c)
  else s)

end Sys2Proof.Machine
end

