-- ==== Sys2Proof/Machine/Boot.lean ====
section
/-!
DEFINITION. Start-up, boot and trust (R404 to R420): the boot ROM's checks, cold start and warm recovery, network recovery
and the key record.
-/

namespace Sys2Proof.Machine

/-! ### The boot ROM's checks (R408, R409, Table 14-4) -/

/-- Whether the header is as R408 gives it. -/
def badImageHeader (b : List Byte) : Bool :=
  let n := leAt b 8 4
  leAt b 0 4 != 0x4946574B || leAt b 4 2 != 1 || leAt b 6 2 != 1024 || leAt b 0xC 4 != 0x4B081536
  || n % 4096 != 0 || n == 0 || decide (48 * 2 ^ 20 < n)
  || decide (64 < leAt b 0x10 1) || decide (4 ≤ leAt b 0x11 1)
  || !(zeros b 0x13 13 && zeros b 0x50 0xB0 && zeros b 0x1C4 28 && zeros b 0x2A0 0x160)

def imageLen (b : List Byte) : Nat := leAt b 8 4
def imageSvn (b : List Byte) : Nat := leAt b 0x10 1
def imageSlot (b : List Byte) : Nat := leAt b 0x12 1

/-- Table 14-4 in its order: the first check that fails, 0 for none. -/
def State.bootCheck (s : State) : Nat :=
  let b := s.sec.image
  let slot := imageSlot b
  if s.sec.flashOk = false then 1
  else if badImageHeader b then 2
  else if 2 ≤ slot ∨ sha384 (slice b 0x100 96) ≠ (if slot = 0 then s.sec.rootHash0 else s.sec.rootHash1)
      ∨ (slot = 0 ∧ s.sec.revoked = true) then 3
  else if ecdsaVerify (slice b 0x100 96) (sha384 (slice b 0x160 128)) (slice b 0x1E0 48) (slice b 0x210 48) = false then 4
  else if ecdsaVerify (slice b 0x160 96) (sha384 (slice b 0 0x100)) (slice b 0x240 48) (slice b 0x270 48) = false then 5
  else if sha384 (slice b 1024 (imageLen b - 1024)) ≠ slice b 0x20 48 then 6
  else if imageSvn b < s.sec.svn then 7
  else 0

/-! ### The configuration store (R407) -/

/-- The copy of the configuration store in use: of the two, the valid one with the higher SEQ. -/
def Sec.copyUsed (c : Sec) : Option Nat :=
  let a := c.store.getD 0 .blank
  let b := c.store.getD 1 .blank
  if a.crcOk ∧ (b.crcOk = false ∨ b.seq ≤ a.seq) then some 0 else if b.crcOk then some 1 else none

/-- What the store holds; with no valid copy, the defaults of R379 and no key (DESIGN CHOICE, assumption 104). -/
def Sec.stored (c : Sec) : StoreCopy :=
  match c.copyUsed with
  | some i => c.store.getD i .blank
  | none => .blank

/-- The firmware takes its configuration from the store. -/
def State.loadStore (s : State) : State :=
  let c := s.sec.stored
  { s with
    hpt := { s.hpt with cfg := c.cfg }
    sec := { s.sec with certs := c.certs, ownerKey := c.ownerKey, keys := c.keys, required := c.required, keySeq := c.keySeq } }

/-- The configuration is written to the copy that is not in use, with the next SEQ. -/
def State.writeStore (s : State) : State :=
  let i := s.sec.copyUsed.map fun i => 1 - i
  let n := match s.sec.copyUsed with | some j => (s.sec.store.getD j .blank).seq + 1 | none => 1
  let x : StoreCopy := ⟨n, true, s.hpt.cfg, s.sec.certs, s.sec.ownerKey, s.sec.keys, s.sec.required, s.sec.keySeq⟩
  { s with sec := { s.sec with store := listSet s.sec.store (i.getD 0) x } }

/-! ### Identity (R414, R415) -/

def asciiBytes (t : String) : List Byte := t.toList.map fun c => BitVec.ofNat 8 c.toNat

/-- The UDS as the SEC reads it: zero once its keys are derived, until the next cold reset. -/
def Sec.udsRead (c : Sec) : List Byte := if c.udsOff then List.replicate 48 0 else c.uds

/-- The private scalar of a label. -/
def Sec.scalar (c : Sec) (label : List Byte) : Nat :=
  beNat (hmac384 c.udsRead (label ++ [1]) ++ (hmac384 c.udsRead (label ++ [2])).take 24) % (p384Order - 1) + 1

/-- The SEC derives its keys for an image with security version `svn`, and latches the UDS off. -/
def Sec.derive (c : Sec) (svn : Nat) : Sec :=
  { c with
    idKey := c.scalar (asciiBytes "KW8-IDK"), aliasKey := c.scalar (asciiBytes "KW8-ALIAS" ++ c.fwHash ++ leBytes 1 svn)
    udsOff := true }

/-- ecdsa-with-SHA384 of RFC 5758. -/
def ecdsaSha384 : List Byte := derSeq (der 0x06 [0x2A, 0x86, 0x48, 0xCE, 0x3D, 4, 3, 3])

/-- The SubjectPublicKeyInfo of a P-384 key of 96 bytes, x then y (RFC 5480). -/
def spkiP384 (key : List Byte) : List Byte :=
  let alg := derSeq (der 0x06 [0x2A, 0x86, 0x48, 0xCE, 0x3D, 2, 1] ++ der 0x06 [0x2B, 0x81, 4, 0, 0x22])
  derSeq (alg ++ derBits (4#8 :: ((key.take 48).reverse ++ (slice key 48 48).reverse)))

/-- The body of the alias certificate: X.509 v3, its subject key the alias key, and an extension with FW_HASH and SVN. -/
def Sec.aliasBody (c : Sec) (svn : Nat) : List Byte :=
  let idCert := c.certs.getD 2 []
  let key := publicKey c.aliasKey
  let part := fun n => Config.certPart n idCert key
  let ext := derSeq (der 0x06 (part 4) ++ der 0x04 (derSeq (der 0x04 (slice c.fwHash 0 48) ++ derNat svn)))
  derSeq (der 0xA0 (derNat 2) ++ der 0x02 (part 0) ++ ecdsaSha384 ++ part 1 ++ part 2 ++ part 3 ++ spkiP384 key
    ++ der 0xA3 (derSeq ext))

/-- R415: the alias certificate is issued, signed by the identity key. -/
def Sec.issueAlias (c : Sec) (svn : Nat) : Sec :=
  let b := c.aliasBody svn
  let g := ecdsaSign c.idKey b
  { c with aliasCert := derSeq (b ++ ecdsaSha384 ++ derBits (derSeq (derNat g.1 ++ derNat g.2))) }

/-! ### The start of the firmware (R406, R409, R447, R455) -/

/-- Table 14-3, R407, R410, R414, R415: the values that the SEC takes from fuses, flash and the running image, its keys and the
alias certificate. -/
def State.loadTrust (s : State) : State :=
  let s := s.loadStore
  let b := s.sec.image
  let mask := (List.range 8).foldl (fun a i => a + 2 ^ i * b2n ((s.sec.keys.getD i none).isSome)) 0
  let s := { s with sec := { s.sec with
    fwHash := sha384 (slice b 0 (imageLen b)), commit := bit (leAt b 0x11 1) 0, revoke := bit (leAt b 0x11 1) 1 } }
  let s := (s.rset R.MGT_SERIAL_LO (s.sec.serial % 2 ^ 32)).rset R.MGT_SERIAL_HI (s.sec.serial / 2 ^ 32)
  let s := ((s.fset F.SEC_SVN_FUSED s.sec.svn).fset F.SEC_SVN_IMAGE_SVN (imageSvn b)).fset F.SEC_SVN_SLOT0_REVOKED
    (b2n s.sec.revoked)
  let s := ((s.fset F.SEC_FKEY_STAT_REQUIRE_SIGNED (b2n s.sec.required)).fset F.SEC_FKEY_STAT_OWNER_SET
    (b2n s.sec.ownerKey.isSome)).fset F.SEC_FKEY_STAT_VALID_MASK mask
  let s := (s.fset F.SEC_BOOT_STAT_ROOT_SLOT (imageSlot b)).fset F.SEC_BOOT_STAT_RESULT 0
  let c := if s.sec.udsOff then s.sec else s.sec.derive (imageSvn b)
  { s with sec := c.issueAlias (imageSvn b) }

/-- R455: FAB_SELF, FAB_MGR and the ports as the configuration store gives them. -/
def State.startFabric (s : State) : State :=
  let s := s.fset F.FAB_SELF_FAB s.hpt.cfg.fabSelf
  let s := match s.hpt.cfg.fabMgr with
    | some m => (s.fset F.FAB_MGR_FAB m).fset F.FAB_MGR_VALID 1
    | none => s
  (List.range 48).foldl (fun s p =>
    let s := match s.hpt.cfg.spare.getD p none with
      | some v => s.fset (F.FAB_PORT_CTRL_SPARE (p / 24) (p % 24)) (b2n v)
      | none => s
    if s.hpt.cfg.portOff.getD p false then s
    else (s.fset (F.FAB_PORT_CTRL_EN (p / 24) (p % 24)) 1).train p) s

/-- The firmware starts at a cold start: `s.sec.netEvents` holds what it reports of network recovery. -/
def State.firmwareStart (s : State) : State :=
  let evs := s.sec.netEvents
  let s := { s with phase := .starting, sec := { s.sec with net := none, netEvents := [] }, hpt := { s.hpt with hbAt := s.timeUs } }
  let s := (s.loadTrust.fset F.MGT_PLANE_STAT_MGC_ALIVE 15).rset R.COL_SEQ s.sec.colSeq
  let s := { s with pwr := { s.pwr with rails := Rails.up } }.setPgood true
  let s := s.pwr.tripped.foldl (fun s d => s.setCdRail d 0) s
  let s := evs.foldl (fun s e => s.raise (e / 65536) none 0 (if e / 65536 = 0x0B01 then [e % 65536] else [])) s
  (s.raise 0x0B01 none 0 [0]).startFabric

/-! ### Network recovery (R412, R413) -/

/-- A DHCPv6 option of RFC 8415. -/
def dhcpOpt (code : Nat) (l : List Byte) : List Byte := beBytes 2 code ++ beBytes 2 l.length ++ l

/-- The value of option `code` in a list of options. -/
def dhcpFind (code : Nat) : Nat → List Byte → Option (List Byte)
  | 0, _ => none
  | k + 1, l =>
    if l.length < 4 then none
    else
      let n := beNat (slice l 2 2)
      if beNat (slice l 0 2) = code then some (slice l 4 n) else dhcpFind code k (l.drop (4 + n))

/-- A DHCPv6 message of the boot ROM: its type, its transaction, the fused MAC as client identifier, option 59 asked for, the
hundredths of a second since the exchange began, and the server identifier where there is one. -/
def State.dhcpMessage (s : State) (type : Nat) (n : Net) : List Byte :=
  beBytes 1 type ++ beBytes 3 n.xid ++ dhcpOpt 1 (beBytes 2 3 ++ beBytes 2 1 ++ s.sec.mac) ++ dhcpOpt 6 (beBytes 2 59)
    ++ dhcpOpt 8 (beBytes 2 (Nat.min 0xFFFF ((s.timeUs - n.began) / 10000)))
    ++ (if n.server.isEmpty then [] else dhcpOpt 2 n.server)

/-- The C-tag of a frame on priority `p`, where the configuration sets VLAN_EN. -/
def HostCfg.tag (c : HostCfg) (p : Nat) : List Byte :=
  match c.vlan with
  | some v => beBytes 2 0x8100 ++ beBytes 2 (p * 8192 + v % 4096)
  | none => []

/-- The link-local address of a MAC address (RFC 4291, appendix A). -/
def linkLocal (mac : List Byte) : List Byte :=
  [0xFE, 0x80, 0, 0, 0, 0, 0, 0, mac.getD 0 0 ^^^ 2#8] ++ slice mac 1 2 ++ [0xFF, 0xFE] ++ slice mac 3 3

/-- R412: what the model writes of a frame of network recovery to the address `dst`: the fused MAC address, the tag, where the
record's copy is valid and has VLAN_EN set, the two IPv6 addresses and the UDP payload. -/
def State.netFrame (s : State) (dst l : List Byte) : List Byte :=
  slice s.sec.mac 0 6 ++ s.sec.stored.cfg.tag 7 ++ linkLocal s.sec.mac ++ slice dst 0 16 ++ l

/-- A frame of network recovery, on priority 7. -/
def State.sendEther (s : State) (dst l : List Byte) : State := s.emitOut .ether 7 (s.netFrame dst l)

/-- ff02::1:2, to which DHCPv6 clients send (RFC 8415). -/
def dhcpServers : List Byte := [0xFF, 2, 0, 0, 0, 0, 0, 0, 0, 0, 0, 0, 0, 1, 0, 2]

def State.setNet (s : State) (n : Net) : State := { s with sec := { s.sec with net := some n } }

/-- Step 1 begins: a Solicit of a new transaction. -/
def State.solicit (s : State) : State :=
  let (s, x) := s.freeVal
  let n : Net := ⟨.solicit, 1000, s.timeUs, x % 2 ^ 24, [], [], 0, 0, 0, [], [], s.timeUs⟩
  (s.setNet n).sendEther dhcpServers (s.dhcpMessage 1 n)

/-- R412: network recovery is entered. -/
def State.enterNet (s : State) (code : Nat) : State :=
  let evs := (if code = 0 then [] else [0x0B01 * 65536 + code]) ++ [0x0B02 * 65536]
  { s with phase := .network, sec := { s.sec with netEvents := evs } }.solicit

/-- The boot ROM runs at a cold start, PWR out of its reset and showing its inputs. NET_NEXT, which the ROM reads, is clear
afterwards. -/
def State.coldBoot (s : State) : State :=
  let next := s.fget F.SEC_BOOT_CTRL_NET_NEXT
  let s := (s.coldLeft.showPins.fset F.PWR_STAT_THROTTLED (b2n !s.level 2)).showAlert
  let code := s.bootCheck
  let s := s.fset F.SEC_BOOT_STAT_RESULT code
  if code = 0 ∧ next = 0 then s.firmwareStart else s.enterNet code

/-! #### The URL of step 1 -/

/-- The value of an ASCII digit in base `b`, at most 16. -/
def digit (b : Nat) (c : Byte) : Option Nat :=
  let n := c.toNat
  let v := if 0x30 ≤ n ∧ n ≤ 0x39 then n - 0x30 else if 0x41 ≤ n ∧ n ≤ 0x46 then n - 55 else if 0x61 ≤ n ∧ n ≤ 0x66 then n - 87 else 16
  if v < b then some v else none

/-- A number of at most `k` digits in base `b`. -/
def number (b k : Nat) (l : List Byte) : Option Nat :=
  if l.isEmpty ∨ k < l.length then none
  else l.foldl (fun a c => a.bind fun v => (digit b c).map (b * v + ·)) (some 0)

/-- `l` cut at every `c`. -/
def splitAtByte (c : Byte) (l : List Byte) : List (List Byte) :=
  l.foldr (fun x a => if x = c then [] :: a else match a with | [] => [[x]] | h :: t => (x :: h) :: t) [[]]

/-- Dotted IPv4 as two groups. -/
def dotted (l : List Byte) : Option (List Nat) :=
  match (splitAtByte 0x2E l).map (number 10 3) with
  | [some a, some b, some c, some d] => if a < 256 ∧ b < 256 ∧ c < 256 ∧ d < 256 then some [256 * a + b, 256 * c + d] else none
  | _ => none

/-- Groups of 16 bits between colons, the last of which may be dotted IPv4 where `tail` allows it. -/
def groups (tail : Bool) : List (List Byte) → Option (List Nat)
  | [] => some []
  | [g] => match number 16 4 g with
    | some v => some [v]
    | none => if tail then dotted g else none
  | g :: r => match number 16 4 g, groups tail r with
    | some v, some l => some (v :: l)
    | _, _ => none

/-- Where `l` holds two colons in a row: what stands before and after the first such place. -/
def cutDouble : List Byte → List Byte → Option (List Byte × List Byte)
  | _, [] => none
  | a, x :: r =>
    if x = 0x3A#8 ∧ r.take 1 = [0x3A#8] then some (a.reverse, r.drop 1) else cutDouble (x :: a) r

/-- The IPv6 address that a text spells (RFC 4291, section 2.2). -/
def ip6Text (t : List Byte) : Option (List Byte) :=
  let part := fun (tail : Bool) (l : List Byte) => if l.isEmpty then some [] else groups tail (splitAtByte 0x3A l)
  let all : Option (List Nat) := match cutDouble [] t with
    | none => (part true t).filter fun (l : List Nat) => l.length == 8
    | some (a, b) => match part false a, part true b with
      | some l, some m => if l.length + m.length < 8 then some (l ++ List.replicate (8 - l.length - m.length) 0 ++ m) else none
      | _, _ => none
  all.map fun l => (l.map (beBytes 2)).flatten

/-- The file's address and path in a URL of the form tftp://[IPv6 address]/path. -/
def tftpUrl (u : List Byte) : Option (List Byte × List Byte) :=
  let pre := asciiBytes "tftp://["
  if u.take 8 ≠ pre then none
  else
    let rest := u.drop 8
    let a := rest.takeWhile fun b => b != 0x5D
    let tail := rest.drop (a.length + 1)
    if tail.take 1 ≠ [0x2F#8] ∨ tail.length < 2 then none else (ip6Text a).map fun x => (x, tail.drop 1)

/-- The TFTP read request of step 2 (RFC 1350, RFC 2348). -/
def readRequest (path : List Byte) : List Byte :=
  beBytes 2 1 ++ path ++ [0] ++ asciiBytes "octet" ++ [0] ++ asciiBytes "blksize" ++ [0] ++ asciiBytes "8192" ++ [0]

/-- The acknowledgement of block `b`, to the file's server. -/
def State.sendTftpAck (s : State) (n : Net) (b : Nat) : State := s.sendEther n.addr (beBytes 2 4 ++ beBytes 2 b)

/-- A TFTP error to the file's server, and step 1 again. -/
def State.tftpError (s : State) (n : Net) (code : Nat) : State :=
  (s.sendEther n.addr (beBytes 2 5 ++ beBytes 2 code ++ [0])).solicit

/-- The step of network recovery in progress, while it runs. -/
def State.netAt (s : State) (st : NetStep) : Option Net :=
  if s.phase = .network then s.sec.net.filter fun n => n.step == st else none

/-- DHCPV6_MESSAGE (R413 step 1): an Advertise (2) of the Solicit, or a Reply (7) to the Request. -/
def State.dhcpArrives (s : State) (m : List Byte) : State :=
  let mine := fun n : Net => beNat (slice m 1 3) == n.xid
  match s.netAt .solicit, s.netAt .request with
  | some n, _ =>
    match dhcpFind 2 (m.length + 1) (m.drop 4) with
    | some server =>
      if beNat (m.take 1) = 2 ∧ mine n = true then
        let (s, x) := s.freeVal
        let n := { n with
          step := .request, interval := 1000, since := s.timeUs, xid := x % 2 ^ 24, server := server, repeats := 0, began := s.timeUs }
        (s.setNet n).sendEther dhcpServers (s.dhcpMessage 3 n)
      else s
    | none => s
  | _, some n =>
    match (dhcpFind 59 (m.length + 1) (m.drop 4)).bind tftpUrl with
    | some u =>
      if beNat (m.take 1) = 7 ∧ mine n = true then
        (s.setNet { n with step := .readReq, since := s.timeUs, url := u.2, repeats := 0, got := [], block := 1, addr := u.1 }).sendEther
          u.1 (readRequest u.2)
      else s
    | none => s
  | _, _ => s

def execDhcpv6Message (m : List Byte) (s : State) : Host.Outcome State Fault Refusal := .next (s.dhcpArrives m)

/-- R413 step 1: a DHCPv6 timer expires: the message is sent again, and the interval doubles up to 30 s. Ten unanswered
Requests go back to Solicit (RFC 8415). -/
def State.dhcpAgain (s : State) : State :=
  let due := fun n : Net => decide (n.since + 900 * n.interval ≤ s.timeUs)
  match s.netAt .solicit, s.netAt .request with
  | some n, _ =>
    if due n then (s.setNet { n with interval := Nat.min 30000 (2 * n.interval), since := s.timeUs }).sendEther dhcpServers
      (s.dhcpMessage 1 n) else s
  | _, some n =>
    if due n = false then s
    else if 9 ≤ n.repeats then s.solicit
    else (s.setNet { n with interval := Nat.min 30000 (2 * n.interval), since := s.timeUs, repeats := n.repeats + 1 }).sendEther
      dhcpServers (s.dhcpMessage 3 n)
  | _, _ => s

def execDhcpv6Retransmit (s : State) : Host.Outcome State Fault Refusal := .next s.dhcpAgain

/-- TFTP_OACK (R413 step 2): the server's block size `b`. -/
def execTftpOack (b : Nat) (s : State) : Host.Outcome State Fault Refusal :=
  .next (match s.netAt .readReq with
    | none => s
    | some n =>
      if 1024 ≤ b ∧ b ≤ 8192 then
        (s.setNet { n with step := .data, since := s.timeUs, blksize := b, block := 1, repeats := 0, got := [] }).sendTftpAck n 0
      else s.tftpError n 8)

/-- R413 step 4: the image received is checked; it boots, or recovery waits 10 s. -/
def State.netDone (s : State) (n : Net) : State :=
  let code := s.bootCheck
  let s := s.fset F.SEC_BOOT_STAT_RESULT code
  if code = 0 then
    let s := (s.fset F.SEC_BOOT_STAT_NET_BOOTED 1)
    { s with sec := { s.sec with netEvents := s.sec.netEvents ++ [0x0B03 * 65536] } }.firmwareStart
  else
    let s := s.fadd F.SEC_BOOT_STAT_ATTEMPTS 1
    { s with sec := { s.sec with netEvents := s.sec.netEvents ++ [0x0B04 * 65536] } }.setNet
      { n with step := .retry, since := s.timeUs, got := [] }

/-- TFTP_DATA (R413 step 3): block `n`, written to the image region and acknowledged; a short block ends the file. -/
def State.tftpData (s : State) (b : Nat) (l : List Byte) : State :=
  match s.netAt .readReq, s.netAt .data with
  | some n, _ => s.tftpError n 8
  | _, some n =>
    if b ≠ n.block ∨ n.blksize < l.length then s
    else
      let got := n.got ++ l
      if 48 * 2 ^ 20 < got.length then s.tftpError n 3
      else
        let s := { s with sec := { s.sec with image := got } }.sendTftpAck n b
        let n := { n with since := s.timeUs, block := n.block + 1, repeats := 0, got := got }
        if l.length < n.blksize then s.netDone n else s.setNet n
  | _, _ => s

def execTftpData (n : Nat) (data : List Byte) (s : State) : Host.Outcome State Fault Refusal := .next (s.tftpData n data)

/-- TFTP_ACK_TIMEOUT (R413 step 2): 1 s without the next block; five repeats, then step 1 again. A read request that is
not answered at all is a missing OACK. -/
def execTftpAckTimeout (s : State) : Host.Outcome State Fault Refusal :=
  .next (match s.netAt .readReq, s.netAt .data with
    | some n, _ => if n.since + 1000000 ≤ s.timeUs then s.tftpError n 8 else s
    | _, some n =>
      if s.timeUs < n.since + 1000000 then s
      else if 5 ≤ n.repeats then s.solicit
      else (s.setNet { n with since := s.timeUs, repeats := n.repeats + 1 }).sendTftpAck n (n.block - 1)
    | _, _ => s)

/-- NET_RECOVERY_RETRY (R413 step 4): 10 s after an image that failed, step 1 again. -/
def execNetRecoveryRetry (s : State) : Host.Outcome State Fault Refusal :=
  .next (match s.netAt .retry with
    | some n => if n.since + 10000000 ≤ s.timeUs then s.solicit else s
    | none => s)

/-! ### The units present (R406, R420) -/

/-- R406, R364: the units that did not train or pass self-test are reported absent, then the clocks of the dies. -/
def State.reportUnits (s : State) (absent mhz : List Nat) : State :=
  let s := ((absent.filter fun u => decide (u < 177)).dedup).foldl (fun s u => (s.unitAbsent u).raise 0x0B06 none u []) s
  (List.range 4).foldl (fun s d =>
    if bit (s.fget F.MGT_CAP_SUM_CD_PRESENT) d then
      let m := clampMhz 1000 3000 (mhz.getD d 3000)
      (s.fset (F.MGT_CAP_DIE_MAX_MHZ d) m).fsetIf (m < 3000) F.MGT_CAP_SUM_REDUCED 1
    else s) s

/-- R420: the smallest serviceable set. -/
def State.serviceable (s : State) : Bool :=
  (List.range 4).any fun d => bit (s.fget F.MGT_CAP_SUM_CD_PRESENT) d && decide (2 ≤ (s.stacks d).length)
    && bit (s.fget (F.MGT_CAP_DIE_BRIDGES d)) 0

/-- R420: standalone service, and the dies' clocks. -/
def State.serve (s : State) : State :=
  let s := s.fsetIf (s.fget F.MGT_CAP_SUM_ACTIVE_PORTS == 0 || !bit (s.fget F.MGT_CAP_SUM_ED_PRESENT) 1) F.MGT_CAP_SUM_STANDALONE 1
  let s := (List.range 4).foldl State.chooseClock { s with phase := .ready }
  s.setRstate (if s.rst.running.isEmpty then 0 else 2)

/-- R410: the fuses are blown where the running image commits its security version. -/
def State.commitSvn (s : State) : State :=
  let v := s.fget F.SEC_SVN_IMAGE_SVN
  if s.sec.commit = true ∧ s.sec.svn < v then
    let rv := s.sec.revoked || (s.sec.revoke && s.fget F.SEC_BOOT_STAT_ROOT_SLOT == 1)
    let s := { s with sec := { s.sec with svn := v, revoked := rv } }
    ((s.fset F.SEC_SVN_FUSED v).fset F.SEC_SVN_SLOT0_REVOKED (b2n rv)).raise 0x0B05 none 0 []
  else s

def State.moduleReady (s : State) (absent mhz : List Nat) : State :=
  if s.phase ≠ .starting ∨ s.rst.capture ≠ none then s
  else
    let s := s.reportUnits absent mhz
    if s.serviceable then s.serve.commitSvn.raise 0x0B0A none 0 []
    else ((s.raise 0x0B07 none 0 []).atDecision .oos 0x0B07).startCapture .oos noDet

/-- MODULE_READY (R404, R406, R420): the start ends. `absent` are the units that failed it, `mhz` the dies' clocks. -/
def execModuleReady (absent mhz : List Nat) (s : State) : Host.Outcome State Fault Refusal := .next (s.moduleReady absent mhz)

/-- R369, R411, Table 12-3: the boot ROM has verified the image in a warm recovery, and the firmware runs; an image that fails
leaves the module in its reset, with the code in RESULT. -/
def State.warmStart (s : State) : State :=
  let code := s.bootCheck
  if s.phase ≠ .resetting ∨ s.rst.capture ≠ none then s
  else if code ≠ 0 then s.fset F.SEC_BOOT_STAT_RESULT code
  else
    let s := { s with phase := .recovering, hpt := { s.hpt with hbAt := s.timeUs } }.loadTrust
    ((s.fset F.MGT_PLANE_STAT_MGC_ALIVE 15).setRstate 3).raise 0x0B01 none 0 [0]

/-- MGC_HEARTBEAT_RESUMED (R26): a silent core's heartbeat is heard again while its plane is up, or, in a warm recovery, the first
heartbeat of the verified firmware (R369). -/
def execMgcHeartbeatResumed (m : MgcId) (s : State) : Host.Outcome State Fault Refusal :=
  let v := s.fget F.MGT_PLANE_STAT_MGC_ALIVE
  let down := if m.val < 2 then s.fget F.MGT_PLANE_STAT_CTRL_DOWN else s.fget F.MGT_PLANE_STAT_MGMT_DOWN
  .next (if s.phase = .resetting then s.warmStart
    else if down = 0 ∧ s.running = true then s.fset F.MGT_PLANE_STAT_MGC_ALIVE (v ||| 2 ^ m.val) else s)

/-- The end of a warm recovery whose firmware runs: the units are reported, and the module reaches READY or goes out of service. -/
def State.warmReady (s : State) (absent mhz : List Nat) : State :=
  let s := { s with evq := [] }.reportUnits absent mhz
  if s.serviceable = false then (s.atDecision .oos 0x0901).startCapture .oos noDet
  else
    let s := (List.range 48).foldl (fun s p =>
      if s.portState p = portHold then s.setPort p (s.link p).heldAs else s) s
    let s := { s with rst := { s.rst with running := s.rst.running.filter fun p => p.1 != ResetAct.warm } }.serve
    (s.raise 0x0904 none 0 [3, s.fget F.MGT_RST_STAT_LAST_DET]).raise 0x0905 none 0 []

def State.warmDone (s : State) (absent mhz : List Nat) : State :=
  let s := s.warmStart
  if s.phase ≠ .recovering ∨ s.rst.capture ≠ none then s else s.warmReady absent mhz

/-- WARM_RECOVERY_DONE (R369, R370, R411): the recovery reaches READY with an empty event queue, or takes the module out of service (R364). -/
def execWarmRecoveryDone (absent mhz : List Nat) (s : State) : Host.Outcome State Fault Refusal := .next (s.warmDone absent mhz)

/-! ### Ordered cold resets (R368) -/

def State.coldOrder (s : State) (w : Nat) : State :=
  if bits w 31 16 = 0x574B ∧ bit w 1 ∧ s.running then (s.sendLeaving 2).coldBoot else s

/-- COLD (R368): a write of MGT_RST_CTRL with its key and COLD: a cold module reset, at once. Another word is a
REGISTER_WRITE. -/
def execCold (s : State) : Host.Outcome State Fault Refusal := .next (s.coldOrder 0x574B0002)

/-! ### Key records (R419) -/

/-- The record in SEC_KEYREC. -/
def State.keyRecord (s : State) : List Byte := ((List.range 64).map fun i => leBytes 4 (s.rget (R.SEC_KEYREC i))).flatten

/-- Whether the SEC accepts the record. -/
def State.keyRecordOk (s : State) (r : List Byte) : Bool :=
  let op := leAt r 8 1
  let key := match s.sec.ownerKey with
    | some k => some k
    | none => if op = 5 then some (slice r 16 96) else none
  leAt r 0 4 == 0x5246574B && decide (1 ≤ op ∧ op ≤ 5) && decide (leAt r 9 1 < 8)
  && zeros r 10 6 && zeros r 112 16 && zeros r 224 32
  && decide (s.sec.keySeq < leAt r 4 4)
  && (match key with
    | some k => ecdsaVerify k (sha384 (slice r 0 128)) (slice r 128 48) (slice r 176 48)
    | none => false)

/-- The record applied. -/
def Sec.applyKey (c : Sec) (r : List Byte) : Sec :=
  let pub := slice r 16 96
  let i := leAt r 9 1
  let c := { c with keySeq := leAt r 4 4 }
  match leAt r 8 1 with
  | 1 => { c with keys := listSet c.keys i (some pub) }
  | 2 => { c with keys := listSet c.keys i none }
  | 3 => { c with required := true }
  | 4 => { c with required := false }
  | _ => { c with ownerKey := some pub }

/-- The record submitted: applied with event 0x0B08, or refused with event 0x0B09. -/
def State.submitKey (s : State) : State :=
  let r := s.keyRecord
  if s.keyRecordOk r then
    let s := { s with sec := s.sec.applyKey r }.writeStore
    let mask := (List.range 8).foldl (fun a i => a + 2 ^ i * b2n ((s.sec.keys.getD i none).isSome)) 0
    (((s.fset F.SEC_FKEY_STAT_REQUIRE_SIGNED (b2n s.sec.required)).fset F.SEC_FKEY_STAT_OWNER_SET
      (b2n s.sec.ownerKey.isSome)).fset F.SEC_FKEY_STAT_VALID_MASK mask).raise 0x0B08 none 0 []
  else (s.fset F.SEC_FKEY_STAT_KEYREC_ERR 1).raise 0x0B09 none 0 []

/-- A write of SEC_BOOT_CTRL. -/
def State.bootCtrl (s : State) (w : Nat) : State :=
  if bits w 31 16 = 0x574B ∧ s.running then
    let s := s.fset F.SEC_BOOT_CTRL_NET_NEXT (bits w 0 0)
    if bit w 1 then s.submitKey else s
  else s

/-- The row of OP `op`: a write of SEC_BOOT_CTRL with its key that submits a record with that OP and leaves NET_NEXT as it
is. Another word is a REGISTER_WRITE. -/
def State.keyRow (s : State) (op : Nat) : State :=
  if leAt s.keyRecord 8 1 = op then s.bootCtrl (0x574B0002 + s.fget F.SEC_BOOT_CTRL_NET_NEXT) else s

/-- SET_ENTRY (R419). -/
def execSetEntry (s : State) : Host.Outcome State Fault Refusal := .next (s.keyRow 1)

/-- CLEAR_ENTRY (R419). -/
def execClearEntry (s : State) : Host.Outcome State Fault Refusal := .next (s.keyRow 2)

/-- REQUIRE_ON (R419). -/
def execRequireOn (s : State) : Host.Outcome State Fault Refusal := .next (s.keyRow 3)

/-- REQUIRE_OFF (R419). -/
def execRequireOff (s : State) : Host.Outcome State Fault Refusal := .next (s.keyRow 4)

/-- SET_OWNER (R419). -/
def execSetOwner (s : State) : Host.Outcome State Fault Refusal := .next (s.keyRow 5)

end Sys2Proof.Machine
end

