-- ==== Sys2Proof/Machine/Power.lean ====
section
/-!
DEFINITION. Power, thermal and sideband signals (R422 to R436): the filtered inputs, power up and down, the cap and the
clocks, the limiter and the thermal responses.
-/

namespace Sys2Proof.Machine

/-! ### Power down (R423, R433) -/

/-- R436: the module's own mark of an input that powered it down: a summary of DOMAIN 6 (Table 12-6). -/
def State.inputRecord (s : State) : State :=
  match s.captureSlot with
  | none => s.dropCapture
  | some i =>
    let r := { s.newRecord 6 0 0 false with flags := 0, sectMask := 0x6F, events := s.evLog }
    let clear := fun v : Nat => if bit v i then v - 2 ^ i else v
    let s := s.bumpSeq
    let s := { s with rst := { s.rst with ram := listSet s.rst.ram i (some r), measuredAt := listSet s.rst.measuredAt i 0 } }
    let s := (s.fset F.COL_STAT_RAM_VALID (s.fget F.COL_STAT_RAM_VALID ||| 2 ^ i)).fset F.COL_STAT_FULL_DONE
      (clear (s.fget F.COL_STAT_FULL_DONE))
    s.fset F.COL_STAT_SUM_DONE (clear (s.fget F.COL_STAT_SUM_DONE))

/-- What is left when every rail but VDD_MGT and the flash is removed: the management domain's records and pins. -/
def State.railsOff (s : State) : State :=
  let t := s.warmLeft
  { t with
    phase := .off, links := .empty, routes := .empty, tck := .reset, tick := 0
    evq := s.evq, evSeq := s.evSeq, evLog := s.evLog
    rst := { s.rst with capture := none, running := [], waiting := [] }
    sec := { t.sec with net := none, netEvents := [] }
    side := s.side
    pwr := { t.pwr with rails := Rails.off } }

/-- Whether a persist is under way, or a record in colophon RAM awaits its first. -/
def State.persistDue (s : State) : Bool :=
  s.rst.persist.isSome || s.pendingSlots.any fun i => s.rst.measuredAt.getD i 0 == 0

/-- The cold start of Table 14-1, held in reset while MOD_RESET_N is asserted (R434). -/
def State.coldStart (s : State) : State :=
  let s := { s with pwr := { s.pwr with mgt := true } }
  if s.level 1 then s.coldBoot
  else
    let n := s.fget F.SEC_BOOT_CTRL_NET_NEXT
    ({ s.coldLeft with phase := .held }.fset F.SEC_BOOT_CTRL_NET_NEXT n).showAlert

/-- VDD_MGT is removed, and PWR with it: its inputs are then read as they are. A PWR_EN asserted meanwhile takes effect
now (R433). -/
def State.mgtOff (s : State) : State :=
  let s := s.coldLeft
  let pins := s.pwr.pins.map fun p => { p with window := none, changes := [], accepted := p.level, faulty := false }
  let s : State := { s with
    pwr := { s.pwr with mgt := false, alert := false, pins := pins, rails := Rails.off, tripped := [] }
    rst := { s.rst with running := [] } }
  if s.level 0 ∧ s.pwr.bad = false then s.coldStart else s

/-- R423, R433: what follows a power-down once its persist has finished or been abandoned. Where PWR_EN ordered it, or is not
asserted, VDD_MGT is removed; else the start waits for the input. -/
def State.settleDown (s : State) : State :=
  if s.phase ≠ .off ∨ s.pwr.mgt = false ∨ s.persistDue = true then s
  else if s.pwr.byPin ∨ s.level 0 = false then s.mgtOff
  else if s.pwr.bad then s
  else s.coldStart

/-- R423, R433, R405: LEAVING, the rails, PGOOD, the event and the record, which the firmware keeps. A cold start that PWR_EN cuts
short keeps none. -/
def State.powerDown (s : State) : State :=
  if s.phase = .off then s
  else
    let s := if s.running then s.sendLeaving 4 else s
    let s := if s.running = false ∨ (s.phase = .starting ∧ s.pwr.bad = false) then s else s.inputRecord
    ((s.railsOff.setPgood false).raise 0x0C01 none 0 []).fset F.PWR_ALERT_INPUT 1 |>.showAlert

/-- INPUT_POWER_FAULT (R423): the input has left its range; the energy is measured again for a persist under way (R377). -/
def execInputPowerFault (s : State) : Host.Outcome State Fault Refusal :=
  let again := s.rst.persist.map fun p => { p with again := true }
  .next ({ s with pwr := { s.pwr with bad := true }, rst := { s.rst with persist := again } }.powerDown).settleDown

/-- INPUT_RETURN (R423): the input has been in range for 10 ms. With PWR_EN asserted, the start follows any persist. -/
def execInputReturn (s : State) : Host.Outcome State Fault Refusal :=
  .next (if s.pwr.bad = false then s
    else
      let s := { s with pwr := { s.pwr with bad := false } }
      if s.phase = .off ∧ s.pwr.mgt = false ∧ s.level 0 = true then s.coldStart else s.settleDown)

/-- HOLDUP_BANK_SPENT (R423): VDD_MGT falls. -/
def execHoldupBankSpent (s : State) : Host.Outcome State Fault Refusal :=
  .next (if s.phase = .off ∧ s.pwr.mgt = true ∧ s.pwr.bad = true then s.mgtOff else s)

/-- Whether the firmware may persist: it runs, and the bank's capacitance has been measured (R376). -/
def State.mayPersist (s : State) : Bool := s.pwr.mgt && s.phase != .resetting && s.rst.capAt != 0

/-- COLOPHON_PERSIST (R375 to R377): at the bank voltage of `mv` mV, the persist under way goes on to its end, or the oldest record
that none has been tried for begins one. -/
def execColophonPersist (mv : Nat) (s : State) : Host.Outcome State Fault Refusal :=
  .next (if s.mayPersist = false then s
    else match s.rst.persist, s.pendingSlots.find? fun i => s.rst.measuredAt.getD i 0 == 0 with
      | some p, _ => (s.persistOn p mv).settleDown
      | none, some i => (s.persist i mv).settleDown
      | none, none => s)

/-- HOLDUP_REMEASURE (R376): the energy is measured again at `mv` mV for a record that waits: after 60 s where its summary is
written, else 10 s. -/
def execHoldupRemeasure (mv : Nat) (s : State) : Host.Outcome State Fault Refusal :=
  let due := fun i =>
    let t := s.rst.measuredAt.getD i 0
    t != 0 && decide (t + (if bit (s.fget F.COL_STAT_SUM_DONE) i then 60000000 else 10000000) ≤ s.timeUs + 1)
  .next (if s.mayPersist = false ∨ s.rst.persist ≠ none then s
    else match s.pendingSlots.find? due with
      | none => s
      | some i => (s.persist i mv).settleDown)

/-! ### The effects of the inputs (R431 to R435) -/

/-- R434: an accepted assertion of MOD_RESET_N. -/
def State.modReset (s : State) : State :=
  if s.phase = .off ∨ s.phase = .held then s
  else
    let s := if s.running then s.sendLeaving 3 else s
    let n := s.fget F.SEC_BOOT_CTRL_NET_NEXT
    ({ s.coldLeft with phase := .held }.fset F.SEC_BOOT_CTRL_NET_NEXT n).showAlert

/-- R435: an accepted assertion of THROTTLE_N. -/
def State.throttle (s : State) : State :=
  let s := { s with pwr := { s.pwr with throttleAt := s.timeUs, throttleTold := false } }
  if s.running = false then (if s.phase = .off then s else s.fset F.PWR_STAT_THROTTLED 1)
  else
    let free := (List.range 4).map fun d => s.fget (F.PWR_DIE_CLK_MHZ d)
    let s := { s with pwr := { s.pwr with freeMhz := free } }.fset F.PWR_STAT_THROTTLED 1
    ((List.range 4).foldl State.chooseClock s).raise 0x0C07 none 0 []

/-- R435: its accepted deassertion. -/
def State.unthrottle (s : State) : State :=
  let s := s.fset F.PWR_STAT_THROTTLED 0
  if s.phase = .ready then
    (List.range 4).foldl (fun s d => (s.fset (F.PWR_DIE_CLK_MHZ d) (s.pwr.freeMhz.getD d 0)).chooseClock d) s
  else s

/-- The effect of an accepted level. -/
def State.pinEffect (s : State) (i : Nat) (v : Bool) : State :=
  match i, v with
  | 0, true => if s.phase = .off ∧ s.pwr.mgt = false ∧ s.pwr.bad = false then s.coldStart else s
  | 0, false =>
    let by_ := s.phase != Phase.off || s.pwr.mgt
    ({ s with pwr := { s.pwr with byPin := by_ } }.powerDown).settleDown
  | 1, false => s.modReset
  | 1, true => if s.phase = .held then s.coldBoot else s
  | 2, false => s.throttle
  | _, _ => s.unthrottle

/-- R431: a change of input `i` is accepted, and a window opens. -/
def State.acceptPin (s : State) (i : Nat) (v : Bool) : State :=
  let s := s.setPin i { s.pin i with window := some (s.timeUs + 100) }
  (s.setLevel i v).pinEffect i v

/-- R432: input `i` is faulty: PWR_EN holds its level, MOD_RESET_N is held deasserted and THROTTLE_N asserted. -/
def State.failPin (s : State) (i : Nat) : State :=
  let s := s.setFaulty i true
  let s := if i = 1 ∧ s.level 1 = false then (s.setLevel 1 true).pinEffect 1 true
    else if i = 2 ∧ s.level 2 = true then (s.setLevel 2 false).pinEffect 2 false
    else s
  ((s.fset F.PWR_ALERT_PIN 1).raise 0x0C09 none i []).showAlert

/-- A change of input `i` to `v` passes its filter: it is counted, and the input may become faulty. -/
def State.pinPassed (s : State) (i : Nat) (v : Bool) : State :=
  let p := s.pin i
  let l := (p.changes.filter fun t => decide (s.timeUs < t + 1000000)) ++ [s.timeUs]
  let s := s.setPin i { p with level := v, changes := l, lastAt := s.timeUs }
  if s.pinFaulty i = false ∧ 1000 < l.length then s.failPin i else s

/-- R431: the window of input `i` ends; a differing level is accepted. -/
def State.pinWindowEnd (s : State) (i : Nat) : State :=
  match (s.pin i).window with
  | none => s
  | some t =>
    if s.timeUs < t then s
    else
      let s := s.setPin i { s.pin i with window := none }
      if s.pinFaulty i = false ∧ (s.pin i).level ≠ s.level i then s.acceptPin i (s.pin i).level else s

/-- PIN_WINDOW_END (R431). -/
def execPinWindowEnd (i : Fin 3) (s : State) : Host.Outcome State Fault Refusal := .next (s.pinWindowEnd i).flush

/-- A change of input `i` to `v` with no window open. -/
def State.pinRow (s : State) (i : Nat) (v : Bool) : State :=
  let s1 := s.pinWindowEnd i
  if (s1.pin i).level = v ∨ (s1.pin i).window.isSome = true then s
  else
    let s2 := s1.pinPassed i v
    if s2.pinFaulty i then s2 else if s2.level i = v then s2 else s2.acceptPin i v

/-- INPUT_CHANGE_IN_WINDOW (R431, R432): counted, not accepted. -/
def execInputChangeInWindow (i : Fin 3) (v : Bool) (s : State) : Host.Outcome State Fault Refusal :=
  .next (match (s.pin i).window with
    | some t => if t ≤ s.timeUs ∨ (s.pin i).level = v then s else (s.pinPassed i v).flush
    | none => s)

/-- PIN_STEADY (R432): a faulty input has been steady for 10 s. -/
def execPinSteady (i : Fin 3) (s : State) : Host.Outcome State Fault Refusal :=
  .next (if s.pinFaulty i = true ∧ (s.pin i).lastAt + 10000000 ≤ s.timeUs then
    let s := s.setFaulty i false
    (if (s.pin i).level = s.level i then s else s.acceptPin i (s.pin i).level).flush
  else s)

/-- COLD_START (R404): PWR_EN is asserted; `resetN` and `throttleN` are the levels that the other inputs then have. -/
def execColdStart (resetN throttleN : Bool) (s : State) : Host.Outcome State Fault Refusal :=
  let first := s.phase == .off && !s.pwr.mgt
  let s1 := if first then
      (((s.setPin 1 { s.pin 1 with level := resetN, window := none }).setPin 2 { s.pin 2 with level := throttleN, window := none }).setLevel
        1 resetN).setLevel 2 throttleN
    else s
  .next (if s.phase = .off then s1.pinRow 0 true else s)

/-- PWR_EN_DEASSERT (R433, R405). -/
def execPwrEnDeassert (s : State) : Host.Outcome State Fault Refusal := .next (s.pinRow 0 false).flush

/-- MOD_RESET_N_ASSERT (R434). -/
def execModResetNAssert (s : State) : Host.Outcome State Fault Refusal := .next (s.pinRow 1 false).flush

/-- MOD_RESET_N_DEASSERT (R434). -/
def execModResetNDeassert (s : State) : Host.Outcome State Fault Refusal := .next (s.pinRow 1 true)

/-- THROTTLE_ASSERTED (R435). -/
def execThrottleAsserted (s : State) : Host.Outcome State Fault Refusal := .next (s.pinRow 2 false)

/-- THROTTLE_N_DEASSERT (R435). -/
def execThrottleNDeassert (s : State) : Host.Outcome State Fault Refusal := .next (s.pinRow 2 true)

/-- THROTTLE_HELD (R435): asserted for 10 s. -/
def execThrottleHeld (s : State) : Host.Outcome State Fault Refusal :=
  .next (if s.running = true ∧ s.fget F.PWR_STAT_THROTTLED = 1 ∧ s.pwr.throttleTold = false
      ∧ s.pwr.throttleAt + 10000000 ≤ s.timeUs then
    ((({ s with pwr := { s.pwr with throttleTold := true } }).fset F.PWR_ALERT_THROT 1).raise 0x0C08 none 0 []).showAlert
  else s)

/-! ### The cap (R424) -/

/-- A new request for the cap. -/
def State.capAsked (s : State) : State :=
  if s.capWanted = s.capInForce then { s with pwr := { s.pwr with capAt := none } }
  else if s.pwr.capAt.isSome then s else { s with pwr := { s.pwr with capAt := some s.timeUs } }

/-- A write of PWR_CAP; a reserved value leaves HOST_CAP as it is (R11). -/
def State.hostCap (s : State) (w : Nat) : State :=
  let v := bits w 15 0
  if s.running = true ∧ Legal.capStep.ok v = true then (s.fset F.PWR_CAP_HOST_CAP v).capAsked else s

/-- HOST_CAP_WRITE (R424). -/
def execHostCapWrite (w : Word) (s : State) : Host.Outcome State Fault Refusal := .next (s.hostCap w.toNat)

/-- CAP_CHANGED (R424): the cap asked for takes effect. -/
def execCapChanged (s : State) : Host.Outcome State Fault Refusal :=
  .next (if s.running = true ∧ s.pwr.capAt.isSome = true then
    (({ s with pwr := { s.pwr with capAt := none } }).fset F.PWR_STAT_CAP_W s.capWanted).raise 0x0C0A none 0 [s.capWanted]
  else s)

/-! ### The power manager (R425, R426) -/

/-- Whether a forme runs on die `d`. -/
def State.dieBusy (s : State) (d : Nat) : Bool :=
  (List.range 8).any fun c => s.ctxState c == ctxRunning && match (s.ctx c).forme with
    | some f => (f.chaseOf d).ncores != 0
    | none => false

/-- Whether every die with a running forme is at its floor, or below it under THROTTLE_N. -/
def State.atFloor (s : State) : Bool :=
  (List.range 4).all fun d => !s.dieBusy d || decide (s.fget (F.PWR_DIE_CLK_MHZ d) ≤ Nat.max 1000 (s.floorMhz d))

/-- POWER_MANAGER_STEP (R425, R426): `vin` and `iin` in 10 mV and 10 mA, `avg` the 100 ms average input power in W. -/
def State.managePower (s : State) (vin iin avg : Nat) : State :=
  if s.phase ≠ .ready ∨ s.fget F.MGT_PLANE_STAT_MGMT_DOWN = 1 ∨ s.timeUs < s.pwr.stepAt + 1000 then s
  else
    let s := (s.fset F.PWR_INPUT_VIN (Nat.min 0xFFFF vin)).fset F.PWR_INPUT_PIN (Nat.min 0xFFFF avg)
    let s := { s with pwr := { s.pwr with iin := iin, stepAt := s.timeUs } }
    let s := (List.range 4).foldl State.chooseClock s
    let s := s.fset F.PWR_STAT_AT_FLOOR (b2n s.atFloor)
    if avg ≤ s.capInForce then s.fset F.PWR_STAT_CAP_UNMET 0
    else if s.atFloor then
      let s := ((s.fset F.PWR_STAT_CAP_UNMET 1).fset F.PWR_ALERT_CAP 1).showAlert
      let due : Bool := match s.pwr.unmetAt with | none => true | some t => decide (t + 60000000 ≤ s.timeUs)
      if due then { s with pwr := { s.pwr with unmetAt := some s.timeUs } }.raise 0x0C02 none 0 [] else s
    else s

def execPowerManagerStep (vin iin avg : Nat) (s : State) : Host.Outcome State Fault Refusal := .next (s.managePower vin iin avg)

/-! ### The module limiter and floor power (R427, R428) -/

/-- A die's clock lowered to `v`, never below its floor, and never raised. -/
def State.lowerClock (s : State) (d v : Nat) : State :=
  let now := s.fget (F.PWR_DIE_CLK_MHZ d)
  s.fset (F.PWR_DIE_CLK_MHZ d) (Nat.min now (Nat.max (Nat.max 1000 (s.floorMhz d)) v))

/-- MODULE_LIMITER (R427): the input at `w` W, above 3,600 W for 1 ms or above 4,200 W; at or below 3,600 W it ends. Each
action is reported as it begins: the limiter's first, and the fall of every die to its floor. -/
def State.limit (s : State) (w : Nat) : State :=
  if s.running = false then s
  else if w ≤ 3600 then { s with pwr := { s.pwr with floorAt := 0 } }.fset F.PWR_STAT_LIMITER 0
  else
    let fall := decide (4200 < w) && (List.range 4).any fun d => decide (Nat.max 1000 (s.floorMhz d) < s.fget (F.PWR_DIE_CLK_MHZ d))
    let s1 := s.fset F.PWR_STAT_LIMITER 1
    let s1 := if s.fget F.PWR_STAT_LIMITER = 0 ∨ fall = true then s1.raise 0x0C03 none 0 [] else s1
    let s1 := { s1 with pwr := { s1.pwr with limitAt := s.timeUs } }
    if 4200 < w then (List.range 4).foldl (fun s d => s.lowerClock d 0) s1
    else if s.fget F.PWR_STAT_LIMITER = 1 ∧ s.timeUs < s.pwr.limitAt + 10 then s
    else (List.range 4).foldl (fun s d => s.lowerClock d (s.fget (F.PWR_DIE_CLK_MHZ d) - 100)) s1

def execModuleLimiter (w : Nat) (s : State) : Host.Outcome State Fault Refusal := .next (s.limit w)

/-- Contexts running on die `d`, with their chases' floor powers there. -/
def State.runningOn (s : State) (d : Nat) : List (Nat × Nat) :=
  (List.range 8).filterMap fun c => if s.ctxState c = ctxRunning then
    match (s.ctx c).forme with
    | some f => if (f.chaseOf d).ncores = 0 then none else some (c, (f.chaseOf d).floorW)
    | none => none
  else none

/-- By how much the rail power of die `d` exceeds the floor powers of its chases. -/
def State.floorExcess (s : State) (rail : List Nat) (d : Nat) : Int :=
  (rail.getD d 0 : Int) - (((s.runningOn d).map (·.2)).sum : Nat)

/-- The set of the contexts `cs`, a bit each. -/
def ctxMask (cs : List Nat) : Nat := cs.foldl (fun a c => a ||| 2 ^ c) 0

/-- FLOOR_POWER_EXCEEDED (R428): the input at `w` W and the dies' rails at `rail` W, every die at its floor. The die with the largest
excess is chosen; where no rail exceeds its chases' floor powers none is. -/
def State.floorPower (s : State) (w : Nat) (rail : List Nat) : State :=
  let over_ := (List.range 4).filter fun d => s.dieBusy d && decide (0 < s.floorExcess rail d)
  if s.phase ≠ .ready then s
  else if w ≤ 3600 then { s with pwr := { s.pwr with floorAt := 0 } }
  else if s.atFloor = false ∨ (s.pwr.floorAt ≠ 0 ∧ s.timeUs < s.pwr.floorAt + 2000) then s
  else match over_ with
    | [] => s
    | d0 :: rest =>
      let d := rest.foldl (fun b d => if s.floorExcess rail b < s.floorExcess rail d then d else b) d0
      let cs := (s.runningOn d).map (·.1)
      let s := { s with pwr := { s.pwr with floorAt := s.timeUs } }
      let s := s.raise 0x0C04 none d [ctxMask cs]
      cs.foldl (fun s c => s.ctxFault c 0x0C04 (((s.occupied c).filter fun g => g / 32 == d).headD (32 * d))) s

def execFloorPowerExceeded (w : Nat) (rail : List Nat) (s : State) : Host.Outcome State Fault Refusal :=
  .next (s.floorPower w rail).flush

/-! ### Thermal limits (R429, Table 15-2) -/

/-- A limit reached by sensor `u` (a die, 0x100 plus a stack): the die is taken to its floor. -/
def State.thermalLimit (s : State) (u d : Nat) : State :=
  if s.pwr.hot.contains u then s
  else
    let s := { s with pwr := { s.pwr with hot := s.pwr.hot ++ [u] } }
    (((s.fset F.PWR_ALERT_THERM 1).raise 0x0C05 none u []).showAlert).lowerClock d 0

/-- A trip of die `d` by sensor `u`: the rail is removed, and the die is reset without a colophon. -/
def State.thermalTrip (s : State) (u d : Nat) : State :=
  if s.pwr.tripped.contains d then s
  else
    let s := { s with pwr := { s.pwr with tripped := s.pwr.tripped ++ [d] } }
    let s := ((s.fset F.PWR_ALERT_THERM 1).raise 0x0C06 none u []).showAlert
    let s := if (s.running = true ∧ s.phase ≠ .out) ∨ s.phase = .resetting then (s.atDecision (.die d) 0x0C06).applyDie d noDet else s
    (s.fset (F.PWR_DIE_CLK_MHZ d) 0).setCdRail d 0

/-- A tripped die has cooled: its rail returns at the 0.70 V of Table 1-4, and its reset goes on. -/
def State.thermalCool (s : State) (d : Nat) : State :=
  let s := s.setCdRail d 700
  { s with
    pwr := { s.pwr with tripped := s.pwr.tripped.filter (· != d) }
    rst := { s.rst with running := s.rst.running.map fun p => if p.1 == ResetAct.die d then (p.1, s.timeUs) else p } }

/-- THERMAL_SAMPLE (R429): junctions of the compute dies and edge dies, and the stacks, in °C. -/
def State.thermalSample (s : State) (tj edge stk : List Nat) : State :=
  if s.phase = .off ∨ s.timeUs < s.pwr.thermAt + 100 then s
  else
    let cool := fun u : Nat => if u < 0x100 then decide (105 ≤ tj.getD u 0) else decide (95 ≤ stk.getD (u - 0x100) 0)
    let s := { s with pwr := { s.pwr with
      thermAt := s.timeUs, edgeTj := [edge.getD 0 0, edge.getD 1 0], stackT := (List.range 12).map fun k => stk.getD k 0
      hot := s.pwr.hot.filter cool } }
    let s := (List.range 4).foldl (fun s d =>
      let t := tj.getD d 0
      let own := (s.stacks d).map fun k => (0x100 + 3 * d + k, stk.getD (3 * d + k) 0)
      let s := s.fset (F.PWR_DIE_TJ_C d) (Nat.min 255 t)
      if bit (s.fget F.MGT_CAP_SUM_CD_PRESENT) d = false then s
      else if s.pwr.tripped.contains d then (if t < 85 then s.thermalCool d else s)
      else if 115 ≤ t then s.thermalTrip d d
      else match own.find? fun p => decide (105 ≤ p.2) with
        | some p => s.thermalTrip p.1 d
        | none =>
          let s := if 105 ≤ t then s.thermalLimit d d else s
          (own.filter fun p => decide (95 ≤ p.2)).foldl (fun s p => s.thermalLimit p.1 d) s) s
    match (List.range 2).find? fun e => decide (115 ≤ edge.getD e 0) with
    | some e =>
      if s.running = false ∨ s.phase = .out ∨ s.rst.capture.any (fun k => k.act == ResetAct.oos) = true then s
      else
        let s := ((s.fset F.PWR_ALERT_THERM 1).raise 0x0C06 none (0x200 + e) []).showAlert
        s.orderReset .oos noDet 0x0C06 true
    | none => s

def execThermalSample (tj edge stk : List Nat) (s : State) : Host.Outcome State Fault Refusal :=
  .next (s.thermalSample tj edge stk).flush

end Sys2Proof.Machine
end

