-- ==== Sys2Proof/Machine/Space.lean ====
section
/-!
DEFINITION. Control space (R441 to R447, R8 to R11): the checks of an access, what a read returns and clears, what a write
does, and the mailboxes (R400 to R402).
-/

namespace Sys2Proof.Machine

/-! ### The map (Tables 16-1 to 16-3) -/

/-- Whether `off` lies in a range that Table 16-1 marks reserved. -/
def reservedRange (off : Nat) : Bool :=
  (decide (0x600000 ≤ off) && decide (off < 0x1000000)) || (decide (0x5000000 ≤ off) && decide (off < 0x8000000))
  || (decide (0xA000000 ≤ off) && decide (off < 0xC000000)) || decide (0xC400000 ≤ off)

/-- The compute die whose block holds `off`. -/
def dieBlock (off : Nat) : Option Nat :=
  if 0x1000000 ≤ off ∧ off < 0x5000000 then some (off / 0x1000000 - 1) else none

/-- The global core whose registers hold `off`. -/
def coreBlock (off : Nat) : Option Nat :=
  match dieBlock off with
  | some d =>
    let o := off % 0x1000000
    if 0x100000 ≤ o ∧ o < 0x500000 then some (32 * d + (o - 0x100000) / 0x20000) else none
  | none => none

def edgeBlock (off : Nat) : Option Nat :=
  if 0x8000000 ≤ off ∧ off < 0xA000000 then some (off / 0x1000000 - 8) else none

def rdxBlock (off : Nat) : Option Nat :=
  if 0xC000000 ≤ off ∧ off < 0xC400000 then some ((off - 0xC000000) / 0x100000) else none

/-- The mailbox channel of `off`. -/
def mbxChannel (off : Nat) : Option Nat :=
  if 0x200000 ≤ off ∧ off < 0x200200 then some ((off - 0x200000) / 16) else none

/-! ### The checks (R444, R445, Table 16-4) -/

/-- Whether the register at `off` is in the Cold domain. -/
def isCold (off : Nat) : Bool := match findReg off with | some r => r.dom == .cold | none => false

/-- R401, R402: whether the receiver of mailbox channel `n` is a management core while these are in reset: until the boot ROM
starts the firmware. -/
def State.receiverDown (s : State) (n : Nat) : Bool := decide (s.fget (F.MBX_CFG_RCV n) < 4) && !s.running

/-- R445, R449: whether the target of `off` is absent, powered down or in reset. A core that is quarantined alone answers; one found
absent is powered down. -/
def State.targetDown (s : State) (off : Nat) : Bool :=
  let resetting := fun a : ResetAct => s.rst.running.any fun p => p.1.covers a
  let starting : Bool := [Phase.starting, .resetting, .recovering].contains s.phase && !isCold off
  match dieBlock off, edgeBlock off, rdxBlock off with
  | some d, _, _ =>
    !bit (s.fget F.MGT_CAP_SUM_CD_PRESENT) d || s.pwr.tripped.contains d || starting
    || (match coreBlock off with
      | some g => s.pwr.coresOff.contains g || (!bit (s.fget (F.MGT_CAP_CORE_CORES d)) (g % 32) && !s.quarantined g)
          || (s.phase == .ready && !isCold off && resetting (.core g))
      | none => s.phase == .ready && !isCold off && resetting (.die d))
  | none, some e, _ => (e == 1 && !bit (s.fget F.MGT_CAP_SUM_ED_PRESENT) 1) || starting
  | none, none, some k => !bit (s.fget F.MGT_CAP_SUM_RDX_PRESENT) k || starting
  | none, none, none => match mbxChannel off with
    | some n => s.receiverDown n
    | none => false

/-- The outcome of the checks before the mailbox's own: accepted, a bus error with the word it returns, or an error
response. -/
inductive CsCheck where
  | ok | bus (v : Nat) | err
  deriving DecidableEq, Repr

/-- Whether the initiator is in the secure world (R401). -/
def secureWorld (who : Initiator) (sec : Bool) : Bool :=
  match who with
  | .mgc _ => sec
  | .sec => true
  | .host => false

/-- Table 16-4, conditions 1 to 4, for an access of `n`; `mute` says that the target does not answer within 10 µs. -/
def State.csCheck (s : State) (who : Initiator) (sec mute : Bool) (n : Width) (off : Nat) : CsCheck :=
  if off % 4 ≠ 0 ∨ n ≠ Width.word then .bus 0xFFFFFFFF
  else if reservedRange off then .bus 0xFFFFFFFF
  else if secureWorld who sec = false ∧ ((0x101100 ≤ off ∧ off < 0x200000) ∨ (0x200100 ≤ off ∧ off < 0x200200)) then .bus 0
  else if s.targetDown off ∨ mute then .err
  else .ok

/-- A word that failed: the host's as R387 gives, and a data abort of a management core or of the SEC (R445). -/
def State.csFailed (s : State) (who : Initiator) (off : Nat) : State :=
  if who = .host then ((s.fadd F.HPT_CS_ERR_COUNT 1).fset F.HPT_CS_ERR_OFFSET off).raise 0x0A05 none 0 []
  else s.emitOut .bus (0x200 + who.id) []

/-- R402: a bus error on mailbox channel `n`. -/
def State.mbxError (s : State) (who : Initiator) (n : Nat) : State :=
  let s := s.fadd (F.MBX_STAT_ERR_CNT n) 1
  if who = .host then s.raise 0x0A02 none n [] else s

/-! ### Reads -/

/-- The registers whose fields follow the units' own state. -/
def State.liveValue (s : State) (off : Nat) : Option Nat :=
  match coreBlock off with
  | some g =>
    let c := s.core g
    if off = R.CTC_THR_STAT g then some ((List.range 8).foldl (fun a t => a + 16 ^ t * s.thrCode g t) 0)
    else if off = R.MXE_AG_STAT g then some (c.groups.foldl (fun a x => setBits a (2 * x.id + 1) (2 * x.id) x.st.code) 0)
    else if off = R.VXE_STAT g then some (setBits (s.rget off) 7 3 c.vq.length)
    else if off = R.XFE_STAT g then
      some (setBits (setBits (setBits (s.rget off) 31 26 c.slots.length) 25 21 c.act.length) 20 16 (Nat.min 31 c.waits.length))
    else none
  | none =>
    if off = R.TCK_NUM_LO then some (s.tick % 2 ^ 32)
    else if off = R.TCK_HOLD then
      if s.tckState = tckHoldover then some (setBits (s.rget off) 31 16 (Nat.min 0xFFFF ((s.timeUs - s.tck.hold) / 1000))) else none
    else none

/-- What a read of `off` returns: reserved bits and WO fields read as 0 (R8, R10). -/
def State.regValue (s : State) (off : Nat) : Nat :=
  match findReg off with
  | none => 0
  | some r =>
    let v := (s.liveValue off).getD (s.rget off)
    r.fields.foldl (fun a f => if f.acc.readable then setBits a f.hi f.lo (bits v f.hi f.lo) else a) 0

/-- R8: a read clears RC fields; a read of TCK_NUM_LO latches TICK_HI. -/
def State.afterRead (s : State) (off : Nat) : State :=
  if off = R.TCK_NUM_LO then s.fset F.TCK_NUM_HI_TICK_HI (s.tick / 2 ^ 32)
  else match findReg off with
    | none => s
    | some r => (r.fields.filter fun f => f.acc == .rc).foldl (fun s f => s.fset ⟨off, f.hi, f.lo⟩ 0) s

/-- Table 13-11: a read of a mailbox register; the receiver's read of MBX_HI clears FULL. -/
def State.mbxRead (s : State) (who : Initiator) (n off : Nat) : State :=
  if off % 16 = 4 ∧ s.fget (F.MBX_STAT_FULL n) = 1 ∧ s.fget (F.MBX_CFG_RCV n) = who.id then s.fset (F.MBX_STAT_FULL n) 0
  else s.afterRead off

/-- One word read by `who`: the state, the word returned, and whether the read took effect. -/
def State.csRead (s : State) (who : Initiator) (sec mute : Bool) (n : Width) (off : Nat) : State × Nat × Bool :=
  match s.csCheck who sec mute n off with
  | .ok =>
    let v := s.regValue off
    match mbxChannel off with
    | some n => (s.mbxRead who n off, v, true)
    | none => (s.afterRead off, v, true)
  | .bus v =>
    let s := match mbxChannel off with | some k => if off % 4 = 0 ∧ n = Width.word then s.mbxError who k else s | none => s
    (s.csFailed who off, if who = .host then 0xFFFFFFFF else v, false)
  | .err => (s.csFailed who off, 0xFFFFFFFF, false)

/-! ### Writes -/

/-- The state that an outcome leaves. -/
def nextOr (s : State) : Host.Outcome State Fault Refusal → State
  | .next t => t
  | _ => s

/-- R8, R11: the RW, W1C and W1S fields of a write. -/
def State.fieldWrite (s : State) (off v : Nat) : State :=
  match findReg off with
  | none => s
  | some r => r.fields.foldl (fun s f =>
      let x := bits v f.hi f.lo
      match f.acc with
      | .rw => if f.legal.ok x then s.fset ⟨off, f.hi, f.lo⟩ x else s
      | .w1c => s.fset ⟨off, f.hi, f.lo⟩ (s.fget ⟨off, f.hi, f.lo⟩ &&& (2 ^ 32 - 1 - x))
      | .w1s => s.fset ⟨off, f.hi, f.lo⟩ (s.fget ⟨off, f.hi, f.lo⟩ ||| x)
      | _ => s) s

/-- The low bits that an address register's writes must give as 0; they are stored as 0. -/
def zeroLow (off : Nat) : Nat :=
  if off = R.HPT_ER_LO then 5
  else if (List.range 8).any fun c => off == R.TRN_LOSS_LO c then 2
  else if (List.range 8).any fun c => off == R.RES_TBL_LO c || off == R.RES_ORDER_LO c then 6
  else 0

/-- R399: the enable and the size of the event ring; a write of EN = 1 restarts the count. -/
def State.erEnable (s : State) (w : Nat) : State :=
  let s := s.fieldWrite R.HPT_ER_HI w
  if bit w 31 then { s with hpt := { s.hpt with erK := 0 } } else s

/-- TRN_RBAL: a cost of 0 is reserved while MAXMOVE is not 0. -/
def State.rbalWrite (s : State) (c w : Nat) : State :=
  let s := (s.fset (F.TRN_RBAL_HYST_US c) (bits w 31 20)).fset (F.TRN_RBAL_MAXMOVE c) (bits w 19 16)
  if bits w 15 0 = 0 ∧ bits w 19 16 ≠ 0 then s else s.fset (F.TRN_RBAL_MBCOST_US c) (bits w 15 0)

/-- Table 13-11: the claimant's write of MBX_HI posts the slug and notifies the receiver (R401). -/
def State.mbxPost (s : State) (who : Initiator) (n w : Nat) : State :=
  let hi := who.id * 2 ^ 24 + w % 2 ^ 24
  let s := ((s.rset (R.MBX_HI n) hi).fset (F.MBX_STAT_FULL n) 1).fset (F.MBX_STAT_CLAIMED n) 0
  let s := { s with hpt := { s.hpt with claims := s.hpt.claims.erase n } }
  let rcv := s.fget (F.MBX_CFG_RCV n)
  if rcv = 0x20 then s.raise 0x0A01 none n [s.rget (R.MBX_LO n), hi] else s.emitOut .bus (0x100 + rcv) (leBytes 1 n)

/-- R400: an identifier of a receiver. -/
def isReceiver (v : Nat) : Bool := decide (v < 4) || v == 0x10 || v == 0x20

/-- Table 13-11, and MBX_CFG: a write of a mailbox register; false where it gets a bus error. -/
def State.mbxWrite (s : State) (who : Initiator) (n off w : Nat) : State × Bool :=
  let full : Bool := s.fget (F.MBX_STAT_FULL n) == 1
  let claimed : Bool := s.fget (F.MBX_STAT_CLAIMED n) == 1
  let mine : Bool := claimed && s.fget (F.MBX_STAT_CLAIMANT n) == who.id
  if full then (s.mbxError who n, false)
  else if off % 16 = 0 then
    if claimed ∧ mine = false then (s.mbxError who n, false)
    else
      let s := ((s.rset (R.MBX_LO n) w).fset (F.MBX_STAT_CLAIMED n) 1).fset (F.MBX_STAT_CLAIMANT n) who.id
      (if claimed then s else { s with hpt := { s.hpt with claims := s.hpt.claims.set n s.timeUs } }, true)
  else if off % 16 = 4 then
    if mine = false then (s.mbxError who n, false) else (s.mbxPost who n w, true)
  else if off % 16 = 12 then
    let may := match who with
      | .mgc _ => decide (n < 16)
      | .sec => decide (16 ≤ n)
      | .host => false
    (if claimed = false ∧ may = true ∧ isReceiver (bits w 7 0) = true then s.fset (F.MBX_CFG_RCV n) (bits w 7 0) else s, true)
  else (s.fieldWrite off w, true)

/-- What a write to an accepted offset does: the registers whose write does more than store, then the others. -/
def State.regWrite (s : State) (off w : Nat) : State :=
  let word := BitVec.ofNat 32 w
  let ctxOf := (off - 0x1000) / 64 % 8
  if off = R.TCK_CTRL then nextOr s (execTickUnitEnable word s)
  else if off = R.TCK_PERIOD then nextOr s (execTckPeriodWrite word s)
  else if off = R.MGT_RST_CTRL then if bit w 1 then s.coldOrder w else s.warmOrder w
  else if off = R.SEC_BOOT_CTRL then s.bootCtrl w
  else if 0x101000 ≤ off ∧ off < 0x101100 then s.rset off w
  else if off = R.PWR_CAP then s.hostCap w
  else if off = R.PWR_ALERT then (s.fieldWrite off w).showAlert
  else if off = R.FAB_SELF then
    if (List.range 48).any fun p => s.fget (F.FAB_PORT_CTRL_EN (p / 24) (p % 24)) == 1 then s else s.fieldWrite off w
  else if off = R.HPT_ER_HI then s.erEnable w
  else if (List.range 8).any fun c => off == R.TRN_RBAL c then s.rbalWrite ctxOf w
  else if (List.range 8).any fun c => off == R.RES_ORDER_HI c then nextOr s (execRecover (Fin.ofNat 8 ((off - R.RES_ORDER_HI 0) / 64)) word s)
  else if (match edgeBlock off with | some _ => decide (0x10000 ≤ off % 0x1000000 ∧ off % 0x1000000 < 0x10600 ∧ off % 64 = 0) | none => false) then
    let p := 24 * (off / 0x1000000 - 8) + (off % 0x1000000 - 0x10000) / 64
    let s := nextOr s (execPortEnable (Fin.ofNat 48 p) word s)
    nextOr s (execPortRetrain (Fin.ofNat 48 p) word s)
  else if 0x8020000 ≤ off ∧ off < 0x8024000 ∧ off % 16 = 8 then
    nextOr s (execRouteCommit (Fin.ofNat 1024 ((off - 0x8020000) / 16)) word s)
  else
    let z := zeroLow off
    s.fieldWrite off (w / 2 ^ z * 2 ^ z)

/-- One word written by `who`: the state, and whether the write took effect. -/
def State.csWrite (s : State) (who : Initiator) (sec mute : Bool) (n : Width) (off w : Nat) : State × Bool :=
  match s.csCheck who sec mute n off with
  | .ok =>
    match mbxChannel off with
    | some k =>
      let (t, ok) := s.mbxWrite who k off w
      (if ok then t else t.csFailed who off, ok)
    | none => (s.regWrite off w, true)
  | .bus _ =>
    let s := match mbxChannel off with | some k => if off % 4 = 0 ∧ n = Width.word then s.mbxError who k else s | none => s
    (s.csFailed who off, false)
  | .err => (s.csFailed who off, false)

/-! ### The rows -/

/-- A word returned to its initiator. -/
def State.returnWord (s : State) (who : Initiator) (v : Nat) : State := s.emitOut .bus who.id (leBytes 4 v)

/-- Whether `who` makes accesses: every initiator while the firmware runs, the SEC also while its boot ROM does. -/
def State.initiates (s : State) (who : Initiator) : Bool :=
  s.running || (who == .sec && (s.phase == .resetting || s.phase == .network))

def State.readRow (s : State) (who : Initiator) (sec mute : Bool) (n : Width) (off : Nat) : State :=
  if s.initiates who then
    let (t, v, _) := s.csRead who sec mute n off
    t.returnWord who v
  else s

def State.writeRow (s : State) (who : Initiator) (sec mute : Bool) (n : Width) (off v : Nat) : State :=
  if s.initiates who then ((s.csWrite who sec mute n off v).1).flush else s

/-- READ_CLEAR (R8, R444): a word that is read has its RC fields cleared. -/
def execReadClear (who : Initiator) (sec mute : Bool) (a : CsAddr) (s : State) : Host.Outcome State Fault Refusal :=
  .next (s.readRow who sec mute a.width a.off.toNat)

/-- REGISTER_WRITE (R8, R444 to R446). -/
def execRegisterWrite (who : Initiator) (sec mute : Bool) (a : CsAddr) (v : Word) (s : State) :
    Host.Outcome State Fault Refusal :=
  .next (s.writeRow who sec mute a.width a.off.toNat v.toNat)

/-- TCK_NUM_LO_READ (R445). -/
def execTckNumLoRead (a : Access) (s : State) : Host.Outcome State Fault Refusal :=
  .next (s.readRow a.who false a.mute .word R.TCK_NUM_LO)

/-- MBX_LO_WRITE (R402). -/
def execMbxLoWrite (n : Channel) (a : Access) (sec : Bool) (v : Word) (s : State) : Host.Outcome State Fault Refusal :=
  .next (s.writeRow a.who sec a.mute .word (R.MBX_LO n) v.toNat)

/-- MBX_HI_WRITE (R402). -/
def execMbxHiWrite (n : Channel) (a : Access) (sec : Bool) (v : Word) (s : State) : Host.Outcome State Fault Refusal :=
  .next (s.writeRow a.who sec a.mute .word (R.MBX_HI n) v.toNat)

/-- MBX_HI_READ (R402). -/
def execMbxHiRead (n : Channel) (a : Access) (sec : Bool) (s : State) : Host.Outcome State Fault Refusal :=
  .next (s.readRow a.who sec a.mute .word (R.MBX_HI n))

/-- MBX_CLAIM_TIMEOUT (R402): a claim held for 100 µs is released. -/
def execMbxClaimTimeout (n : Channel) (s : State) : Host.Outcome State Fault Refusal :=
  .next (match s.hpt.claims.find n with
    | some t =>
      if t + 100 ≤ s.timeUs ∧ s.fget (F.MBX_STAT_CLAIMED n) = 1 then
        ({ s with hpt := { s.hpt with claims := s.hpt.claims.erase n } }.fset (F.MBX_STAT_CLAIMED n) 0).rset (R.MBX_LO n) 0
          |>.raise 0x0A03 none n []
      else s
    | none => s)

/-- EVENT_RING_ENABLE (R399): a write of HPT_ER_HI. -/
def execEventRingEnable (w : Word) (s : State) : Host.Outcome State Fault Refusal :=
  .next (if s.running then s.erEnable w.toNat else s)

/-- EVENT_RING_CI (R399): a write of HPT_ER_CI frees room. -/
def execEventRingCi (w : Word) (s : State) : Host.Outcome State Fault Refusal :=
  .next (if s.running then s.rset R.HPT_ER_CI w.toNat else s)

end Sys2Proof.Machine
end

