-- ==== Sys2Proof/Machine/HostRx.lean ====
section
/-!
DEFINITION. What arrives at the host port (R379 to R393, R397): connections, RDMA requests and responses, congestion and
timers, the link, address resolution and echo, doorbells, and the taking of commands.
-/

namespace Sys2Proof.Machine

/-! ### The heartbeat (R362, R384) -/

/-- The datagram's 32 bytes. -/
def State.heartbeat (s : State) : List Byte :=
  leBytes 4 0x4248574B ++ leBytes 3 (s.fget F.FAB_SELF_FAB) ++ leBytes 1 0 ++ leBytes 4 (s.rget R.FAB_MEMB_EPOCH)
    ++ leBytes 1 (s.fget F.MGT_RST_STAT_RSTATE) ++ leBytes 1 (b2n s.fenced) ++ leBytes 2 0 ++ leBytes 4 s.hpt.hbSeq ++ leBytes 4 0
    ++ leBytes 6 s.tick ++ leBytes 2 0

/-- MGMT_HEARTBEAT: sent on priority 7, from MGMT_PORT to the same port of MGR_ADDR, every HB_PERIOD_MS while the management plane is up. -/
def execMgmtHeartbeat (s : State) : Host.Outcome State Fault Refusal :=
  .next (if s.running = true ∧ s.fget F.MGT_PLANE_STAT_MGMT_DOWN = 0
      ∧ s.hpt.hbAt + 1000 * s.fget F.MGT_HANG_CTRL_HB_PERIOD_MS ≤ s.timeUs then
    { s with hpt := { s.hpt with hbSeq := (s.hpt.hbSeq + 1) % 2 ^ 32, hbAt := s.timeUs } }.sendFrame 7
      (s.datagram s.hpt.cfg.mgrAddr s.hpt.cfg.mgmtPort s.heartbeat)
  else s)

/-! ### Connections (R385, Table 13-2) -/

/-- Whether address `a` lies in the prefix of `n` bits of `p`. -/
def inPrefix (a p : List Byte) (n : Nat) : Bool :=
  a.length == p.length && decide (n ≤ 8 * p.length) &&
    beNat a / 2 ^ (8 * p.length - n) == beNat p / 2 ^ (8 * p.length - n)

def State.allowed (s : State) (src : List Byte) : Bool := s.hpt.cfg.allow.any fun p => inPrefix src p.1 p.2

/-- The bytes of a path MTU code. -/
def mtuOf (v : Nat) : Nat := if v = 3 then 1024 else if v = 4 then 2048 else 4096

/-- An answer to the CONNECT `m`: ACCEPT (3) or REJECT (4), the module's values in an ACCEPT. -/
def connectAnswer (m : List Byte) (op reason qpn psn rkey : Nat) : List Byte :=
  leBytes 4 0x4E43574B ++ leBytes 1 op ++ slice m 5 2 ++ leBytes 1 reason ++ slice m 8 24
    ++ leBytes 4 qpn ++ leBytes 4 psn ++ leBytes 4 rkey ++ slice m 44 1

/-- A CONNECT of `src` and its port refused. -/
def State.rejectConnect (s : State) (src : List Byte) (port : Nat) (m : List Byte) (reason : Nat) : State :=
  (s.sendFrame 7 (s.datagram src port (connectAnswer m 4 reason 0 0 0))).raise 0x0A0A none 0 [reason]

/-- Whether the datagram `m` to port `dport` is a connection message `op` that the firmware takes. -/
def State.connectMsg (s : State) (dport : Nat) (m : List Byte) (h : FrameHead) (op : Nat) : Bool :=
  s.running && s.hostUp && s.frameIn true h && dport == s.hpt.cfg.mgmtPort && leAt m 0 4 == 0x4E43574B && leAt m 4 1 == op

def State.connect (s : State) (src : List Byte) (port dport : Nat) (m : List Byte) (h : FrameHead) : State :=
  if s.connectMsg dport m h 1 = false then s
  else
    let kind := leAt m 5 1
    let c := leAt m 6 1
    let mtu := leAt m 44 1
    if s.allowed src = false then s.rejectConnect src port m 1
    else if 2 ≤ kind ∨ (kind = 1 ∧ 8 ≤ c) ∨ mtu < 3 ∨ 5 < mtu ∨ m.length < 45 then s.rejectConnect src port m 3
    else match (List.range 4096).find? fun n => (s.qp? n).isNone with
      | none => s.rejectConnect src port m 2
      | some n =>
        let (s, psn) := s.freeVal
        let (s, key) := s.freeVal
        let q : HostQp := {
          num := n, kind := kind, ctx := c, hostQpn := leAt m 8 3, hostPsn := leAt m 12 3, gid := slice m 16 16, mtu := mtuOf mtu
          rkey := key % 2 ^ 32, err := false, psn := psn % 2 ^ 24, sent := [], since := s.timeUs, tries := 0, rate := rateMax
          cnpAt := none, cutAt := none, riseAt := s.timeUs, msn := 0 }
        let s := { s with hpt := { s.hpt with qps := s.hpt.qps ++ [q] } }
        let s := if kind = 1 then
            s.modCtx c fun x => { x with crQp := match x.crQp.bind s.qp? with
              | some o => if o.err then some n else x.crQp
              | none => some n }
          else s
        s.sendFrame 7 (s.datagram src port (connectAnswer m 3 0 n (psn % 2 ^ 24) (key % 2 ^ 32)))

/-- CONNECT (R385). -/
def execConnect (src : UdpSource) (m : Framed Datagram) (s : State) : Host.Outcome State Fault Refusal :=
  .next (s.connect src.addr src.port.toNat m.val.dport.toNat m.val.data m.frame)

def State.disconnect (s : State) (dport : Nat) (m : List Byte) (h : FrameHead) : State :=
  if s.connectMsg dport m h 2 = false then s
  else match s.hpt.qps.find? fun q => q.hostQpn == leAt m 8 3 && q.gid == slice m 16 16 with
    | none => s
    | some q =>
      let s := s.qpFail q.num
      let s := { s with hpt := { s.hpt with qps := s.hpt.qps.filter fun x => x.num != q.num } }
      (List.range 8).foldl (fun s c => s.modCtx c fun x => { x with crQp := x.crQp.filter fun n => n != q.num }) s

/-- DISCONNECT (R385): the named queue pair enters the error state and is freed. -/
def execDisconnect (m : Framed Datagram) (s : State) : Host.Outcome State Fault Refusal :=
  .next (s.disconnect m.val.dport.toNat m.val.data m.frame)

/-! ### Doorbells (R389, R390, R396, R397) -/

/-- R390: the producer count of ring `r`. -/
def State.doorbell (s : State) (c r v : Nat) : State :=
  let g := s.ring c r
  let n := v % 65536
  if 64 < (n + 65536 - g.cons) % 65536 ∨ 32768 ≤ (n + 65536 - g.prod) % 65536 then
    (s.fset F.HPT_STAT_RING_ERR 1).raise 0x0A0B (some c) r [r, n]
  else s.modRing c r fun g => { g with prod := n }

/-- R396: CR_CFG written over queue pair `q`; a reserved LOG2 keeps the old one. -/
def State.crCfgWrite (s : State) (c w q : Nat) : State :=
  s.modCtx c fun x =>
    let n := bits w 3 0
    let w := if 4 ≤ n ∧ n ≤ 12 then w else setBits w 3 0 (bits x.crCfg 3 0)
    { x with crCfg := w, crQp := some q, crK := if bit w 31 then 0 else x.crK }

/-- SQ_DB (R390). -/
def execSqDb (c : CtxId) (r : RingId) (count : BitVec 16) (s : State) : Host.Outcome State Fault Refusal :=
  .next (if s.running = true ∧ s.planeUp 1 = true then s.doorbell c r count.toNat else s)

/-- CR_CI (R397): the records that the host has consumed. -/
def execCrCi (c : CtxId) (v : Word) (s : State) : Host.Outcome State Fault Refusal :=
  .next (if s.running = true ∧ s.planeUp 1 = true then s.modCtx c fun x => { x with crCi := v.toNat } else s)

/-- CR_CFG (R396), written over the context's command queue pair `qp`. -/
def execCrCfg (c : CtxId) (w : Word) (qp : Fin 4096) (s : State) : Host.Outcome State Fault Refusal :=
  .next (match s.qp? qp with
    | some q => if s.running = true ∧ s.planeUp 1 = true ∧ q.kind = 1 ∧ q.ctx = c.val then s.crCfgWrite c w.toNat qp else s
    | none => s)

/-- Table 13-4: one word of a doorbell page written. -/
def State.pageWrite (s : State) (c off w q : Nat) : State :=
  if off < 0x4020 then (if off % 8 = 0 then s.doorbell c ((off - 0x4000) / 8) w else s)
  else if off = 0x4020 then s.modCtx c fun x => { x with crCi := w }
  else if off = 0x4040 then s.modCtx c fun x => { x with crAddr := x.crAddr / 2 ^ 32 * 2 ^ 32 + w }
  else if off = 0x4044 then s.modCtx c fun x => { x with crAddr := x.crAddr % 2 ^ 32 + w * 2 ^ 32 }
  else if off = 0x4048 then s.modCtx c fun x => { x with crRkey := w }
  else if off = 0x404C then s.crCfgWrite c w q
  else s

/-- One word of the page read. -/
def State.pageRead (s : State) (c off : Nat) : Nat :=
  let x := s.ctx c
  if off < 0x4020 then
    if off % 8 = 0 then (s.ring c ((off - 0x4000) / 8)).prod + 65536 * (s.ring c ((off - 0x4000) / 8)).cons else 0
  else if off = 0x4020 then x.crCi
  else if off = 0x4040 then x.crAddr % 2 ^ 32
  else if off = 0x4044 then x.crAddr / 2 ^ 32
  else if off = 0x4048 then x.crRkey
  else if off = 0x404C then x.crCfg
  else 0

/-! ### RDMA as responder (R386, R387, Table 13-3) -/

/-- How a request ends: done with the bytes read, a remote access error, or a remote operational error. -/
inductive RdmaEnd where
  | done (l : List Byte) | access | operation
  deriving DecidableEq, Repr

/-- The words of [o, o+n) that lie in it whole, as offsets. -/
def wordsIn (o n : Nat) : List Nat :=
  let a := (o + 3) / 4
  (List.range ((o + n) / 4 - a)).map fun i => 4 * (a + i)

/-- A write to the rings and the doorbell page of context `c`. -/
def State.ringWrite (s : State) (c o q : Nat) (l : List Byte) : State :=
  let s := ((List.range l.length).zip l).foldl (fun s p =>
    let a := o + p.1
    if a < 0x4000 then s.modRing c (a / 0x1000) fun g => { g with buf := g.buf.set (a % 0x1000) p.2 } else s) s
  ((wordsIn o l.length).filter fun a => decide (0x4000 ≤ a)).foldl (fun s a => s.pageWrite c a (leAt l (a - o) 4) q) s

/-- The byte at `a` of the rings and the doorbell page. -/
def State.ringByte (s : State) (c a : Nat) : Byte :=
  if a < 0x4000 then (s.ring c (a / 0x1000)).buf.get 0 (a % 0x1000)
  else BitVec.ofNat 8 (s.pageRead c (a / 4 * 4) / 256 ^ (a % 4))

/-- R387: whether a control-space request is whole aligned words, at most 256 bytes. -/
def csShape (o n : Nat) : Bool := decide (o % 4 = 0 ∧ n % 4 = 0 ∧ n ≤ 256)

/-- R216, R386: whether [a, a+n) lies in the windows of context `c`. -/
def State.inWindows (s : State) (c : Nat) (w : Bool) (a n : Nat) : Bool :=
  match (s.ctx c).forme with
  | some f => f.covered w 17 a n
  | none => false

/-- An RDMA WRITE of `l` at virtual address `v` over queue pair `q`; the targets of the control-space words listed in `mute` stay
silent. -/
def State.rdmaWrite (s : State) (q : HostQp) (v key : Nat) (l : List Byte) (mute : List Nat) : State × RdmaEnd :=
  let sp := v / 2 ^ 48
  let a := v % 2 ^ 48
  if key ≠ q.rkey then (s, .access)
  else if q.kind = 0 then
    if sp ≠ 0 ∨ 2 ^ 32 < a + l.length then (s, .access)
    else if csShape a l.length = false then (s.csFailed .host a, .done [])
    else ((List.range (l.length / 4)).foldl (fun s i => (s.csWrite .host false (mute.contains i) .word (a + 4 * i) (leAt l (4 * i) 4)).1) s, .done [])
  else if sp = 0 then
    if 0x5000 < a + l.length then (s, .access) else (s.ringWrite q.ctx a q.num l, .done [])
  else if sp = 1 then
    if s.inWindows q.ctx true a l.length then
      let (s, ok) := s.landBytes a l (some q.ctx)
      (s, if ok then .done [] else .operation)
    else (s, .access)
  else (s, .access)

/-- An RDMA READ of `n` bytes, likewise. -/
def State.rdmaRead (s : State) (q : HostQp) (v key n : Nat) (mute : List Nat) : State × RdmaEnd :=
  let sp := v / 2 ^ 48
  let a := v % 2 ^ 48
  if key ≠ q.rkey then (s, .access)
  else if q.kind = 0 then
    if sp ≠ 0 ∨ 2 ^ 32 < a + n then (s, .access)
    else if csShape a n = false then (s.csFailed .host a, .done (List.replicate n 0xFF))
    else
      let p := (List.range (n / 4)).foldl (fun (p : State × List Byte) i =>
        let (s, w, _) := p.1.csRead .host false (mute.contains i) .word (a + 4 * i)
        (s, p.2 ++ leBytes 4 w)) (s, [])
      (p.1, .done p.2)
  else if sp = 0 then
    if 0x5000 < a + n then (s, .access) else (s, .done ((List.range n).map fun i => s.ringByte q.ctx (a + i)))
  else if sp = 1 then
    if s.inWindows q.ctx false a n then
      let (s, ok) := s.checkRead a n (some q.ctx)
      (s, if ok then .done (s.bytes a n) else .operation)
    else (s, .access)
  else (s, .access)

/-- A request packet of the peer over queue pair `n` with PSN `psn`, `k` PSNs long: executed once, in sequence; a repeat is
acknowledged again, or its read answered again. -/
def State.request_ (s : State) (n psn k : Nat) (h : FrameHead) (again : Bool) (eff : State → HostQp → State) : State :=
  match s.pair n h with
  | none => s
  | some q =>
    if s.running = false then s
    else
      let s := s.ceAnswer n h.ce
      if psn = q.hostPsn then
        let q2 := { q with hostPsn := (q.hostPsn + k) % 2 ^ 24, msn := (q.msn + 1) % 2 ^ 24 }
        eff (s.modQp n fun _ => q2) q2
      else if psnLe psn q.hostPsn then (if again then eff s q else s.sendPkt q .ack psn 0 0 0 [])
      else s.sendPkt q .nakSeq q.hostPsn 0 0 0 []

/-- How many PSNs `n` bytes take on queue pair `qp`. -/
def State.psnsFor (s : State) (qp n : Nat) : Nat :=
  match s.qp? qp with
  | some q => Nat.max 1 ((n + q.mtu - 1) / q.mtu)
  | none => 1

/-- The answer to a request: data, an acknowledgement or a NAK. -/
def State.answerRdma (s : State) (q : HostQp) (psn : Nat) (read : Bool) (e : RdmaEnd) : State :=
  match e with
  | .done l => s.sendPkt q (if read then .readResp else .ack) psn 0 0 l.length l
  | .access => s.sendPkt q .nakAccess psn 0 0 0 []
  | .operation => s.sendPkt q .nakOp psn 0 0 0 []

/-- RDMA_WRITE (R386, R387). -/
def execRdmaWrite (qp : Fin 4096) (psn : BitVec 24) (vaddr : BitVec 64) (rkey : Word) (data : List Byte)
    (mute : Framed (List Nat)) (s : State) : Host.Outcome State Fault Refusal :=
  .next (s.request_ qp psn.toNat (s.psnsFor qp data.length) mute.frame false fun s q =>
    let (t, e) := s.rdmaWrite q vaddr.toNat rkey.toNat data mute.val
    t.answerRdma q psn.toNat false e).flush

/-- RDMA_READ (R386, R387). -/
def execRdmaRead (qp : Fin 4096) (psn : BitVec 24) (vaddr : BitVec 64) (rkey : Word) (len : BitVec 32)
    (mute : Framed (List Nat)) (s : State) : Host.Outcome State Fault Refusal :=
  .next (s.request_ qp psn.toNat (s.psnsFor qp len.toNat) mute.frame true fun s q =>
    let (t, e) := s.rdmaRead q vaddr.toNat rkey.toNat len.toNat mute.val
    t.answerRdma q psn.toNat true e)

/-- SEND (R380): acknowledged, discarded and counted. -/
def execSendMsg (qp : Fin 4096) (psn : BitVec 24) (len : Nat) (h : FrameHead) (s : State) : Host.Outcome State Fault Refusal :=
  .next (s.request_ qp psn.toNat (s.psnsFor qp len) h false fun s q =>
    (s.fadd F.HPT_STAT_SEND_DISC 1).sendPkt q .ack psn.toNat 0 0 0 [])

/-! ### RDMA as requester (R381, R388, R393) -/

/-- A fatal NAK, or the end of the retries: the queue pair enters the error state. -/
def State.qpError (s : State) (n : Nat) : State := (s.qpFail n).raise 0x0A06 none n []

/-- RDMA_READ_RESPONSE (R393): bytes of the oldest read in flight, a forme image; requests before it are acknowledged. -/
def State.readResponse (s : State) (n : Nat) (l : List Byte) (h : FrameHead) : State :=
  match s.pair n h with
  | none => s
  | some q =>
    match q.sent.find? (·.read) with
    | none => s
    | some r =>
      let s := (s.ceAnswer n h.ce).ackTo q ((r.psn + 2 ^ 24 - 1) % 2 ^ 24)
      let s := s.modQp n fun q => { q with since := s.timeUs, tries := 0 }
      let ended := fun s : State => s.modQp n fun q => { q with sent := q.sent.filter fun y => !(y.read && y.psn == r.psn) }
      match r.own with
      | .image c _ =>
        match (s.ctx c).loading with
        | none => s
        | some x =>
          let img := (x.image ++ l).take x.want
          let done : Bool := decide (x.want ≤ img.length)
          let s := s.modCtx c fun y => { y with loading := some { x with image := img, complete := done } }
          if done then ended s else s
      | .gone k =>
        if k ≤ l.length then ended s
        else s.modQp n fun q => { q with sent := q.sent.map fun y => if y.read && y.psn == r.psn then { y with own := .gone (k - l.length) } else y }
      | _ => s

def execRdmaReadResponse (qp : Fin 4096) (data : List Byte) (h : FrameHead) (s : State) : Host.Outcome State Fault Refusal :=
  .next (s.readResponse qp data h)

/-- ROCE_ACK (R388): `code` 0 acknowledges up to `psn`, 1 asks for `psn` again, 2 and 3 are fatal NAKs. -/
def State.roceAck (s : State) (n psn code : Nat) (h : FrameHead) : State :=
  match s.pair n h with
  | none => s
  | some q =>
    let s := s.ceAnswer n h.ce
    if code = 0 then s.ackTo q psn
    else if code = 1 then (s.ackTo q ((psn + 2 ^ 24 - 1) % 2 ^ 24)).resendReqs n
    else s.qpError n

def execRoceAck (qp : Fin 4096) (psn : BitVec 24) (code : Framed (Fin 4)) (s : State) : Host.Outcome State Fault Refusal :=
  .next (s.roceAck qp psn.toNat code.val code.frame)

/-- Whether queue pair `n` has waited 100 µs for an acknowledgement, after `k` retries. -/
def State.rcDue (s : State) (n : Nat) (p : Nat → Bool) : Bool :=
  match s.qp? n with
  | some q => !q.err && s.planeUp q.kind && !q.sent.isEmpty && decide (q.since + 100 ≤ s.timeUs) && p q.tries
  | none => false

/-- RC_RETRANSMIT_TIMEOUT (R388): the unacknowledged requests are sent again, up to seven times. -/
def execRcRetransmitTimeout (qp : Fin 4096) (s : State) : Host.Outcome State Fault Refusal :=
  .next (if s.rcDue qp (fun t => decide (t < 7)) then
    (s.modQp qp fun q => { q with tries := q.tries + 1, since := s.timeUs }).resendReqs qp else s)

/-- QP_RETRY_EXHAUSTED (R388). -/
def execQpRetryExhausted (qp : Fin 4096) (s : State) : Host.Outcome State Fault Refusal :=
  .next (if s.rcDue qp (fun t => decide (7 ≤ t)) then s.qpError qp else s)

/-- CNP (R381): the rate falls to three quarters, at most once per 50 µs. -/
def State.cnp (s : State) (n : Nat) (h : FrameHead) : State :=
  match s.pair n h with
  | none => s
  | some _ =>
    (s.ceAnswer n h.ce).modQp n fun q =>
      let due : Bool := match q.cutAt with | none => true | some t => decide (t + 50 ≤ s.timeUs)
      if due then { q with rate := Nat.max (3 * q.rate / 4) rateMin, cutAt := some s.timeUs, riseAt := s.timeUs }
      else { q with riseAt := s.timeUs }

def execCnp (qp : Framed (Fin 4096)) (s : State) : Host.Outcome State Fault Refusal := .next (s.cnp qp.val qp.frame)

/-- RATE_INCREASE (R381): 55 µs without a CNP. -/
def execRateIncrease (qp : Fin 4096) (s : State) : Host.Outcome State Fault Refusal :=
  .next (s.modQp qp fun q =>
    if q.riseAt + 55 ≤ s.timeUs then { q with rate := Nat.min rateMax (q.rate + rateStep), riseAt := s.timeUs } else q)

/-! ### The link and its services (R379, R383) -/

/-- The clock identity of a MAC address (IEEE 1588). -/
def clockId (mac : List Byte) : List Byte := slice mac 0 3 ++ [0xFF, 0xFE] ++ slice mac 3 3

/-- The Delay_Req that a slave sends (IEEE 1588-2019, its common header and an origin timestamp of 0). -/
def State.ptpDelayReq (s : State) : List Byte :=
  beBytes 1 1 ++ beBytes 1 2 ++ beBytes 2 44 ++ List.replicate 16 0 ++ clockId s.hpt.cfg.mac ++ beBytes 2 1 ++ beBytes 2 s.hpt.ptpSeq
    ++ beBytes 1 1 ++ beBytes 1 0x7F ++ List.replicate 10 0

/-- PTP_MESSAGE (R383): the offset from the master in ns. The port measures its path with a Delay_Req. Within 1 µs it is locked
and its wall time follows the master's, which the spec does not relate to anything else here; out of lock, wall time runs
free. -/
def State.ptpMessage (s : State) (offset : Int) (h : FrameHead) : State :=
  if s.running = false ∨ s.hostUp = false ∨ s.frameIn true h = false then s
  else
    let s := { s with hpt := { s.hpt with ptpSeq := (s.hpt.ptpSeq + 1) % 65536 } }.sendFrame 0 s.ptpDelayReq
    let good : Bool := decide (-1000 ≤ offset ∧ offset ≤ 1000)
    if good then
      let (s, w) := s.freeVal
      { s with hpt := { s.hpt with wall := w, wallAt := s.timeUs } }.fset F.HPT_STAT_PTP_LOCK 1
    else if s.fget F.HPT_STAT_PTP_LOCK = 1 then (s.fset F.HPT_STAT_PTP_LOCK 0).raise 0x0A09 none 0 [] else s

def execPtpMessage (offset : Framed Int) (s : State) : Host.Outcome State Fault Refusal := .next (s.ptpMessage offset.val offset.frame)

/-- HOST_LINK_DOWN: contexts run on, and records wait. -/
def execHostLinkDown (s : State) : Host.Outcome State Fault Refusal :=
  .next (if s.fget F.HPT_STAT_LINK = 1 then
    let s := s.fset F.HPT_STAT_LINK 0
    if s.running then s.raise 0x0A07 none 0 [] else s
  else s)

/-- HOST_LINK_UP. -/
def execHostLinkUp (s : State) : Host.Outcome State Fault Refusal :=
  .next (if s.fget F.HPT_STAT_LINK = 0 ∧ s.phase ≠ .off ∧ s.phase ≠ .held then
    let s := s.fset F.HPT_STAT_LINK 1
    if s.running then s.raise 0x0A08 none 0 [] else s
  else s)

/-- The time until which priority `i` is paused after a PFC frame. -/
def State.pausedBy (s : State) (enable : Nat) (quanta : List Nat) (i : Nat) : Nat :=
  let q := quanta.getD i 0 % 65536
  if bit enable i = false then s.hpt.paused.getD i 0
  else if q = 0 then 0
  else s.timeUs + (q * 64 + 99999) / 100000

/-- PFC_FRAME: each enabled priority is paused for its quanta of 512 bit times, or resumed by 0. -/
def execPfcFrame (enable : BitVec 8) (quanta : List Nat) (s : State) : Host.Outcome State Fault Refusal :=
  let l := (List.range 8).map (s.pausedBy enable.toNat quanta)
  .next (if s.hostUp then { s with hpt := { s.hpt with paused := l } }.unpause else s)

/-- A message with the checksum put at byte 2, over `pseudo` and itself. -/
def withSum (pseudo m : List Byte) : List Byte :=
  let z := m.take 2 ++ [0, 0] ++ m.drop 4
  m.take 2 ++ beBytes 2 (inetSum (pseudo ++ z)) ++ m.drop 4

/-- The ICMPv6 pseudo-header. -/
def pseudo6 (src dst : List Byte) (n : Nat) : List Byte := src ++ dst ++ beBytes 4 n ++ beBytes 4 58

/-- Whether `a` is one of the port's IPv6 addresses. -/
def State.own6 (s : State) (a : List Byte) : Bool := a.length == 16 && (a == s.hpt.cfg.ip6 || a == s.hpt.cfg.link6)

/-- ARP: a request for the port's IPv4 address is answered. -/
def execArp (smac sip : List Byte) (tip : Framed (List Byte)) (s : State) : Host.Outcome State Fault Refusal :=
  let c := s.hpt.cfg
  .next (if s.hostUp = true ∧ s.frameIn false tip.frame = true ∧ tip.val.length = 4 ∧ tip.val = c.ip4 then
    s.sendFrame 0 (beBytes 2 1 ++ beBytes 2 0x0800 ++ [6, 4] ++ beBytes 2 2 ++ slice c.mac 0 6 ++ c.ip4 ++ slice smac 0 6 ++ slice sip 0 4)
  else s)

/-- NEIGHBOR_DISCOVERY: a solicitation for one of the port's IPv6 addresses is answered with an advertisement. -/
def execNeighborDiscovery (src : List Byte) (target : Framed (List Byte)) (s : State) : Host.Outcome State Fault Refusal :=
  let m := [136#8, 0, 0, 0] ++ beBytes 4 0x60000000 ++ target.val ++ [2, 1] ++ slice s.hpt.cfg.mac 0 6
  .next (if s.hostUp = true ∧ s.frameIn false target.frame = true ∧ s.own6 target.val = true then
    s.sendFrame 0 (src ++ withSum (pseudo6 target.val src m.length) m) else s)

/-- ICMP_ECHO: an echo request is answered. -/
def execIcmpEcho (src dst : List Byte) (m : Framed (List Byte)) (s : State) : Host.Outcome State Fault Refusal :=
  .next (if s.hostUp = true ∧ s.frameIn false m.frame = true ∧ dst.length = 4 ∧ dst = s.hpt.cfg.ip4 ∧ m.val.take 2 = [8#8, 0#8]
      ∧ 8 ≤ m.val.length then
    s.sendFrame 0 (src ++ withSum [] ([0, 0] ++ m.val.drop 2)) else s)

/-- ICMPV6_ECHO. -/
def execIcmpv6Echo (src dst : List Byte) (m : Framed (List Byte)) (s : State) : Host.Outcome State Fault Refusal :=
  .next (if s.hostUp = true ∧ s.frameIn false m.frame = true ∧ s.own6 dst = true ∧ m.val.take 2 = [128#8, 0#8] ∧ 8 ≤ m.val.length then
    s.sendFrame 0 (src ++ withSum (pseudo6 dst src m.val.length) ([129, 0] ++ m.val.drop 2)) else s)

/-! ### The taking of commands (R391, R393) -/

/-- Table 13-5, Table 13-6: whether a command is legal. -/
def legalCommand (b : List Byte) : Bool :=
  let opc := leAt b 0 1
  zeros b 1 3 && match opc with
  | 1 => zeros b 28 36
  | 2 => decide (leAt b 18 1 < 4) && zeros b 19 1 && decide (leAt b 20 4 ≤ 10000) && zeros b 24 40
  | 3 => decide (1 ≤ leAt b 8 4) && zeros b 12 52
  | 4 => decide (leAt b 8 1 ≤ 1) && zeros b 9 7 && (leAt b 8 1 == 1 || zeros b 16 6) && zeros b 22 42
  | 5 => zeros b 8 56
  | 6 => decide (leAt b 8 1 ≤ 1) && zeros b 9 7 && (leAt b 8 1 == 1 || zeros b 16 6) && zeros b 22 42
  | 7 => decide (leAt b 11 1 < 8) && decide (1 ≤ leAt b 12 1) && decide (leAt b 12 1 ≤ 100) && zeros b 13 51
  | 8 => zeros b 8 56
  | 9 => zeros b 28 36
  | 10 => decide (leAt b 8 1 ≤ 3) && zeros b 9 3 && (leAt b 8 1 != 2 || decide (leAt b 12 4 ≤ 127)) && zeros b 32 32
  | _ => false

/-- The entry that ring `r` gives next. -/
def State.nextEntry (s : State) (c r : Nat) : List Byte :=
  let g := s.ring c r
  (List.range 64).map fun i => g.buf.get 0 (64 * (g.cons % 64) + i)

/-- Whether the control plane may take the next command of ring `r`. -/
def State.mayTake (s : State) (c r : Nat) : Bool :=
  let g := s.ring c r
  g.cur.isNone && g.cons != g.prod && (s.phase == .ready || s.phase == .out || leAt (s.nextEntry c r) 0 1 == 10)

def State.commandTake (s : State) (c : Nat) : State :=
  if s.running = false ∨ s.fget F.MGT_PLANE_STAT_CTRL_DOWN = 1 ∨ s.backlogBlocks c = true then s
  else match ((List.range 4).map fun i => ((s.ctx c).lastRing + 1 + i) % 4).find? (s.mayTake c) with
    | none => s
    | some r =>
      let b := s.nextEntry c r
      let opc := leAt b 0 1
      let s := (s.modRing c r fun g => { g with
        cons := (g.cons + 1) % 65536, cur := some ⟨opc, leAt b 4 4, b, .taken, s.timeUs⟩ }).modCtx c fun x => { x with lastRing := r }
      if s.phase = .out ∧ opc ≠ 10 then s.complete c r stOutOfService 0 0
      else if legalCommand b = false then s.complete c r stBadCommand 0 0
      else s

/-- COMMAND_TAKE (R391): the control plane takes the next command of context `c`. -/
def execCommandTake (c : CtxId) (s : State) : Host.Outcome State Fault Refusal := .next (s.commandTake c)

end Sys2Proof.Machine
end

