-- ==== Sys2Proof/Machine/Spdm.lean ====
section
/-!
DEFINITION. Identity and attestation: the derived keys (R414), the certificate chain (R415), the SPDM 1.2 responder on its
two transports (R416) and the measurement blocks (R417). The layout of SPDM messages is DMTF DSP0274's (PRESUMED,
assumption 60).
-/

namespace Sys2Proof.Machine

/-! ### The chain (R415) -/

/-- R415: the chain of slot 0 as SPDM carries it: its length, the root's digest, and the four certificates. -/
def State.certChain (s : State) : List Byte :=
  let b := (s.sec.certs ++ [s.sec.aliasCert]).flatten
  leBytes 2 (52 + b.length) ++ leBytes 2 0 ++ sha384 (s.sec.certs.headD []) ++ b

/-! ### Measurements (R417, Table 14-5) -/

/-- The forme key table and REQUIRE_SIGNED as bytes: eight keys of 96 bytes, zero where there is none, and a flag. -/
def Sec.keyTable (c : Sec) : List Byte :=
  ((List.range 8).map fun i => slice ((c.keys.getD i none).getD []) 0 96).flatten ++ leBytes 1 (b2n c.required)

/-- The value of measurement block `i`; index 3 is raw, the others digests. -/
def State.measurement (s : State) (i : Nat) : Option (List Byte) :=
  if i = 1 then some (slice s.sec.romHash 0 48)
  else if i = 2 then some (slice s.sec.fwHash 0 48)
  else if i = 3 then some (leBytes 1 s.sec.svn ++ leBytes 1 (s.fget F.SEC_BOOT_STAT_ROOT_SLOT) ++ leBytes 1 (b2n s.sec.revoked)
    ++ List.replicate 5 0)
  else if i = 4 then some (sha384 s.sec.keyTable)
  else if 16 ≤ i ∧ i < 24 then
    some (match (s.ctx (i - 16)).forme with | some f => slice f.hash 0 48 | none => List.replicate 48 0)
  else none

def measIndices : List Nat := [1, 2, 3, 4] ++ (List.range 8).map (16 + ·)

/-- Bit 7 of a measurement's value type: index 3 is raw, the others are digests (R417). -/
def rawBit (i : Nat) : Byte := if i = 3 then 0x80 else 0

/-- One measurement block of a response. -/
def State.measBlock (s : State) (i : Nat) : List Byte :=
  match s.measurement i with
  | none => []
  | some v =>
    leBytes 1 i ++ leBytes 1 1 ++ leBytes 2 (3 + v.length) ++ [rawBit i ||| (Config.spdmByte (1 + i) &&& 0x7F#8)] ++ leBytes 2 v.length ++ v

/-! ### The responder (R416) -/

/-- Transport 0 is MCTP, 1 the management datagrams. -/
def State.spdm (s : State) (t : Nat) : Spdm := s.sec.spdm.getD t Spdm.zero
def State.setSpdm (s : State) (t : Nat) (p : Spdm) : State := { s with sec := { s.sec with spdm := listSet s.sec.spdm t p } }

/-- R437: an in-band interrupt with mandatory byte `b`, where the target has an address and events are enabled. -/
def State.inBand (s : State) (b : Nat) : State :=
  if s.side.ibi = true ∧ s.side.dyn.isSome = true ∧ s.pwr.mgt = true then s.emitOut .i3c 1 (leBytes 1 b) else s

/-- R438: the packets of an MCTP message from endpoint `own` in answer to `x`, 64 bytes of it to each: header version, destination
and source, then the first and last marks, the packet's sequence number and the tag, owned by the requester. -/
def mctpPkts (own : Nat) (x : MctpHead) (m : List Byte) : List (List Byte) :=
  let n := Nat.max 1 ((m.length + 63) / 64)
  (List.range n).map fun i =>
    leBytes 1 1 ++ [x.src] ++ leBytes 1 own ++ leBytes 1 (128 * b2n (i == 0) + 64 * b2n (i + 1 == n) + 16 * (i % 4) + x.tag.val)
      ++ (m.drop (64 * i)).take 64

/-- A message sent in packets, in answer to `x`. -/
def State.sendMctp (s : State) (c : Chan) (x : MctpHead) (m : List Byte) : State :=
  (mctpPkts s.side.eid x m).foldl (fun s l => s.emitOut c 0 l) s

/-- Whether an MCTP packet is for this endpoint: by its identifier, or by the null one. -/
def State.mctpMine (s : State) (x : MctpHead) : Bool := x.dst == 0 || x.dst.toNat == s.side.eid

/-- A response sent: over MCTP, with the interrupt that says so; or in a datagram that echoes requester `n`. -/
def State.answerSpdm (s : State) (t : Nat) (n : SpdmPeer) (m : List Byte) : State :=
  if t = 0 then (s.sendMctp .spdm n.mctp (leBytes 1 5 ++ m)).inBand 2
  else s.sendHost 7 [⟨.spdm, 1, s.datagram n.addr n.sport.toNat (leBytes 4 0x5053574B ++ leBytes 4 n.id ++ m)⟩]

def spdmHead (code p1 p2 : Nat) : List Byte := leBytes 1 0x12 ++ leBytes 1 code ++ leBytes 1 p1 ++ leBytes 1 p2
def spdmError (code data : Nat) : List Byte := spdmHead 0x7F code data

/-- Whether a request of `n` reaches the SEC: its firmware runs, the transport works, and the packet or the frame is accepted. -/
def State.spdmUp (s : State) (t : Nat) (n : SpdmPeer) : Bool :=
  s.running && (if t = 0 then s.pwr.mgt && s.side.dyn.isSome && s.mctpMine n.mctp
    else s.hostUp && s.frameIn true n.frame && n.dport.toNat == s.hpt.cfg.mgmtPort)

/-- A request with code `code` on transport `t`: one of another code, or too long, is another command's. `after` says
whether the negotiation must be over. -/
def State.spdmRow (s : State) (t : Nat) (n : SpdmPeer) (m : List Byte) (code : Nat) (after : Bool) (eff : State → Spdm → State) : State :=
  if leAt m 1 1 ≠ code ∨ m.length < 4 ∨ 4096 < m.length ∨ s.spdmUp t n = false then s
  else
    let p := s.spdm t
    if code ≠ 0x84 ∧ leAt m 0 1 ≠ 0x12 then s.answerSpdm t n (spdmError 0x41 0)
    else if after = true ∧ p.algs = false then s.answerSpdm t n (spdmError 4 0)
    else eff s p

def State.getVersion (s : State) (t : Nat) (n : SpdmPeer) (m : List Byte) : State :=
  s.spdmRow t n m 0x84 false fun s _ =>
    let r := leBytes 1 0x10 ++ leBytes 1 4 ++ leBytes 2 0 ++ leBytes 1 0 ++ leBytes 1 1 ++ leBytes 2 0x1200
    (s.setSpdm t { Spdm.zero with ver := true, vca := m ++ r }).answerSpdm t n r

/-- GET_VERSION: SPDM 1.2, and the transport's state begins again. -/
def execGetVersion (t : Fin 2) (n : SpdmPeer) (m : List Byte) (s : State) : Host.Outcome State Fault Refusal :=
  .next (s.getVersion t n m)

/-- R416: CERT_CAP, CHAL_CAP and MEAS_CAP with signatures. -/
def spdmFlags : Nat := 0x16

def State.getCapabilities (s : State) (t : Nat) (n : SpdmPeer) (m : List Byte) : State :=
  s.spdmRow t n m 0xE1 false fun s p =>
    if p.ver = false ∨ p.algs = true then s.answerSpdm t n (spdmError 4 0)
    else
      let r := spdmHead 0x61 0 0 ++ leBytes 1 0 ++ [Config.spdmByte 0] ++ leBytes 2 0 ++ leBytes 4 spdmFlags
        ++ leBytes 4 4096 ++ leBytes 4 4096
      (s.setSpdm t { p with caps := true, vca := p.vca ++ m ++ r }).answerSpdm t n r

/-- GET_CAPABILITIES. -/
def execGetCapabilities (t : Fin 2) (n : SpdmPeer) (m : List Byte) (s : State) : Host.Outcome State Fault Refusal :=
  .next (s.getCapabilities t n m)

def State.negotiate (s : State) (t : Nat) (n : SpdmPeer) (m : List Byte) : State :=
  s.spdmRow t n m 0xE3 false fun s p =>
    if p.caps = false ∨ p.algs = true then s.answerSpdm t n (spdmError 4 0)
    else
      let asym := leAt m 8 4 &&& 0x80
      let hash := leAt m 12 4 &&& 2
      let r := spdmHead 0x63 0 0 ++ leBytes 2 36 ++ leBytes 1 1 ++ leBytes 1 0 ++ leBytes 4 4 ++ leBytes 4 asym ++ leBytes 4 hash
        ++ List.replicate 12 0 ++ List.replicate 4 0
      (s.setSpdm t { p with algs := asym != 0 && hash != 0, vca := p.vca ++ m ++ r }).answerSpdm t n r

/-- NEGOTIATE_ALGORITHMS: ECDSA P-384 and SHA-384, where the requester offers them. -/
def execNegotiateAlgorithms (t : Fin 2) (n : SpdmPeer) (m : List Byte) (s : State) : Host.Outcome State Fault Refusal :=
  .next (s.negotiate t n m)

def State.getDigests (s : State) (t : Nat) (n : SpdmPeer) (m : List Byte) : State :=
  s.spdmRow t n m 0x81 true fun s p =>
    let r := spdmHead 1 0 1 ++ sha384 s.certChain
    (s.setSpdm t { p with certs := p.certs ++ m ++ r, meas := [] }).answerSpdm t n r

/-- GET_DIGESTS: the digest of the chain of slot 0. -/
def execGetDigests (t : Fin 2) (n : SpdmPeer) (m : List Byte) (s : State) : Host.Outcome State Fault Refusal :=
  .next (s.getDigests t n m)

def State.getCertificate (s : State) (t : Nat) (n : SpdmPeer) (m : List Byte) : State :=
  s.spdmRow t n m 0x82 true fun s p =>
    let c := s.certChain
    let o := leAt m 4 2
    if leAt m 2 1 ≠ 0 ∨ c.length ≤ o then s.answerSpdm t n (spdmError 1 0)
    else
      let d := (c.drop o).take (Nat.min (leAt m 6 2) 4088)
      let r := spdmHead 2 0 0 ++ leBytes 2 d.length ++ leBytes 2 (c.length - o - d.length) ++ d
      (s.setSpdm t { p with certs := p.certs ++ m ++ r, meas := [] }).answerSpdm t n r

/-- GET_CERTIFICATE: a portion of the chain of slot 0 (R415). -/
def execGetCertificate (t : Fin 2) (n : SpdmPeer) (m : List Byte) (s : State) : Host.Outcome State Fault Refusal :=
  .next (s.getCertificate t n m)

/-- A nonce: 32 free bytes. -/
def State.nonce (s : State) : State × List Byte :=
  (List.range 4).foldl (fun p _ => let q := p.1.freeVal; (q.1, p.2 ++ leBytes 8 q.2)) (s, [])

/-- An alias-key signature over a transcript, under the prefix that SPDM 1.2 puts before its digest: r and s, each
big-endian as DSP0274 carries them. -/
def State.signSpdm (s : State) (context : String) (log : List Byte) : List Byte :=
  let v := asciiBytes "dmtf-spdm-v1.2.*"
  let c := asciiBytes context
  let q := ecdsaSign s.sec.aliasKey (v ++ v ++ v ++ v ++ List.replicate (36 - c.length) 0 ++ c ++ sha384 log)
  beBytes 48 q.1 ++ beBytes 48 q.2

def State.challenge (s : State) (t : Nat) (n : SpdmPeer) (m : List Byte) : State :=
  s.spdmRow t n m 0x83 true fun s p =>
    let kind := leAt m 3 1
    if leAt m 2 1 ≠ 0 ∨ m.length < 36 ∨ (kind ≠ 0 ∧ kind ≠ 1 ∧ kind ≠ 0xFF) then s.answerSpdm t n (spdmError 1 0)
    else
      let (s, nonce) := s.nonce
      let (s, free) := s.nonce
      let sum := if kind = 0 then []
        else if kind = 0xFF then sha384 ((measIndices.map s.measBlock).flatten)
        else slice (free ++ free) 0 48
      let r := spdmHead 3 0 1 ++ sha384 s.certChain ++ nonce ++ sum ++ leBytes 2 0
      let r := r ++ s.signSpdm "responder-challenge_auth signing" (p.vca ++ p.certs ++ m ++ r)
      (s.setSpdm t { p with certs := [], meas := [] }).answerSpdm t n r

/-- CHALLENGE: answered and signed by the alias key (R415, R416). -/
def execChallenge (t : Fin 2) (n : SpdmPeer) (m : List Byte) (s : State) : Host.Outcome State Fault Refusal :=
  .next (s.challenge t n m)

def State.getMeasurements (s : State) (t : Nat) (n : SpdmPeer) (m : List Byte) : State :=
  s.spdmRow t n m 0xE0 true fun s p =>
    let sign := bit (leAt m 2 1) 0
    let op := leAt m 3 1
    let idx := if op = 0 then [] else if op = 0xFF then measIndices else measIndices.filter (· == op)
    if (op ≠ 0 ∧ idx = []) ∨ (sign = true ∧ (m.length < 37 ∨ leAt m 36 1 % 16 ≠ 0)) then s.answerSpdm t n (spdmError 1 0)
    else
      let (s, nonce) := s.nonce
      let rec_ := (idx.map s.measBlock).flatten
      let r := spdmHead 0x60 (if op = 0 then measIndices.length else 0) 0 ++ leBytes 1 idx.length ++ leBytes 3 rec_.length ++ rec_
        ++ nonce ++ leBytes 2 0
      let log := p.meas ++ m ++ r
      let r := if sign then r ++ s.signSpdm "responder-measurements signing" (p.vca ++ log) else r
      (s.setSpdm t { p with meas := if sign then [] else log }).answerSpdm t n r

/-- GET_MEASUREMENTS (R417): every block of a response is taken from one snapshot. -/
def execGetMeasurements (t : Fin 2) (n : SpdmPeer) (m : List Byte) (s : State) : Host.Outcome State Fault Refusal :=
  .next (s.getMeasurements t n m)

/-- The request codes that have a row of their own. -/
def spdmCodes : List Nat := [0x81, 0x82, 0x83, 0x84, 0xE0, 0xE1, 0xE3]

/-- SPDM_UNSUPPORTED_REQUEST (R416): any other request is answered with ERROR UnsupportedRequest. -/
def execSpdmUnsupportedRequest (t : Fin 2) (n : SpdmPeer) (m : List Byte) (s : State) : Host.Outcome State Fault Refusal :=
  .next (if m.length < 4 ∨ 4096 < m.length ∨ s.spdmUp t n = false ∨ spdmCodes.contains (leAt m 1 1) = true then s
    else s.answerSpdm t n (spdmError 7 (leAt m 1 1)))

end Sys2Proof.Machine
end

