-- ==== Sys2Proof/Machine/Sideband.lean ====
section
/-!
DEFINITION. The sideband bus: the I3C target (R437), its MCTP endpoint (R438) and its PLDM terminus (R439). The message
layouts are those of the standards that the rules cite (PRESUMED, assumption 61).
-/

namespace Sys2Proof.Machine

/-! ### The I3C target (R437) -/

/-- Whether the target answers on the bus: VDD_MGT is in regulation and the module is not held in reset. -/
def State.busUp (s : State) : Bool := s.pwr.mgt && s.phase != .held

/-- Whether a directed CCC reaches it: it holds a dynamic address. -/
def State.addressed (s : State) : Bool := s.busUp && s.side.dyn.isSome

def State.modSide (s : State) (f : Sideband → Sideband) : State := { s with side := f s.side }
def State.i3cAnswer (s : State) (l : List Byte) : State := if s.addressed then s.emitOut .i3c 0 l else s

/-- The provisional ID: fused, its bit 32 set, which marks the random-value form. -/
def State.pid (s : State) : List Byte :=
  let l := slice s.sec.provId 0 6
  l.take 1 ++ [l.getD 1 0 ||| 1#8] ++ l.drop 2

/-- The BCR: a target, whose interrupts have a data byte, without HDR or other advanced capabilities; what the rule does not give is
free. -/
def bcr : Byte := 0x06#8 ||| (Config.i3cByte 0 &&& 0x19#8)

/-- ENEC: bit 0 of the event byte enables interrupts. -/
def execEnec (b : BitVec 8) (s : State) : Host.Outcome State Fault Refusal :=
  .next (if s.busUp = true ∧ bit b.toNat 0 then s.modSide fun x => { x with ibi := true } else s)

/-- DISEC: bit 0 disables them. -/
def execDisec (b : BitVec 8) (s : State) : Host.Outcome State Fault Refusal :=
  .next (if s.busUp = true ∧ bit b.toNat 0 then s.modSide fun x => { x with ibi := false } else s)

/-- RSTDAA: the dynamic address is given up. -/
def execRstdaa (s : State) : Host.Outcome State Fault Refusal :=
  .next (if s.busUp then s.modSide fun x => { x with dyn := none } else s)

/-- ENTDAA: without an address, the target sends its provisional ID, BCR and DCR and takes `a`. -/
def execEntdaa (a : BitVec 7) (s : State) : Host.Outcome State Fault Refusal :=
  .next (if s.busUp = true ∧ s.side.dyn = none then
    (s.emitOut .i3c 0 (s.pid ++ [bcr, Config.i3cByte 1])).modSide fun x => { x with dyn := some a.toNat }
  else s)

/-- SETDASA: static address 0x3A takes dynamic address `a`. -/
def execSetdasa (sa a : BitVec 7) (s : State) : Host.Outcome State Fault Refusal :=
  .next (if s.busUp = true ∧ s.side.dyn = none ∧ sa.toNat = 0x3A then s.modSide fun x => { x with dyn := some a.toNat } else s)

def execSetmwl (n : BitVec 16) (s : State) : Host.Outcome State Fault Refusal :=
  .next (if s.addressed then s.modSide fun x => { x with mwl := n.toNat } else s)
def execSetmrl (n : BitVec 16) (s : State) : Host.Outcome State Fault Refusal :=
  .next (if s.addressed then s.modSide fun x => { x with mrl := n.toNat } else s)
def execGetmwl (s : State) : Host.Outcome State Fault Refusal := .next (s.i3cAnswer (beBytes 2 s.side.mwl))

/-- GETMRL: the length, then the interrupt payload of one byte. -/
def execGetmrl (s : State) : Host.Outcome State Fault Refusal := .next (s.i3cAnswer (beBytes 2 s.side.mrl ++ beBytes 1 1))
def execGetpid (s : State) : Host.Outcome State Fault Refusal := .next (s.i3cAnswer s.pid)
def execGetbcr (s : State) : Host.Outcome State Fault Refusal := .next (s.i3cAnswer [bcr])
def execGetdcr (s : State) : Host.Outcome State Fault Refusal := .next (s.i3cAnswer [Config.i3cByte 1])
def execGetstatus (s : State) : Host.Outcome State Fault Refusal := .next (s.i3cAnswer [Config.i3cByte 2, Config.i3cByte 3])

/-! ### MCTP (R438) -/

/-- Whether the firmware answers the MCTP message of `x`: it runs, its management plane is up, and the message is for this endpoint. -/
def State.mctpUp (s : State) (x : MctpHead) : Bool :=
  s.running && s.addressed && s.fget F.MGT_PLANE_STAT_MGMT_DOWN == 0 && s.mctpMine x

/-- A response ready: sent, with the interrupt that says so (R437). -/
def State.mctpAnswer (s : State) (x : MctpHead) (l : List Byte) : State :=
  if s.mctpUp x then (s.sendMctp .mctp x l).inBand 2 else s

/-- A control response: instance `iid`, command, completion code and data. -/
def mctpControl (iid cmd cc : Nat) (l : List Byte) : List Byte :=
  leBytes 1 0 ++ leBytes 1 iid ++ leBytes 1 cmd ++ leBytes 1 cc ++ l

/-- SET_ENDPOINT_ID: `op` 0 sets and 1 forces; identifiers 0 and 0xFF, and other operations, are invalid data. -/
def execSetEndpointId (x : MctpReq) (op : Fin 4) (eid : BitVec 8) (s : State) : Host.Outcome State Fault Refusal :=
  .next (if s.mctpUp x.head = false then s
    else if 2 ≤ op.val ∨ eid = 0 ∨ eid = 0xFF then s.mctpAnswer x.head (mctpControl x.iid 1 2 [])
    else ((s.modSide fun y => { y with eid := eid.toNat }).sendMctp .mctp x.head
      (mctpControl x.iid 1 0 (leBytes 1 0 ++ leBytes 1 eid.toNat ++ leBytes 1 0))).inBand 2)

def execGetEndpointId (x : MctpReq) (s : State) : Host.Outcome State Fault Refusal :=
  .next (s.mctpAnswer x.head (mctpControl x.iid 2 0 (leBytes 1 s.side.eid ++ leBytes 2 0)))

/-- The message types carried. -/
def mctpTypes : List Nat := [0x00, 0x01, 0x05, 0x7F]

/-- GET_MCTP_VERSION_SUPPORT for a message type, or 0xFF for the base specification. -/
def execGetMctpVersionSupport (x : MctpReq) (type : BitVec 8) (s : State) : Host.Outcome State Fault Refusal :=
  .next (if type = 0xFF ∨ mctpTypes.contains type.toNat = true then
    s.mctpAnswer x.head (mctpControl x.iid 4 0 (Config.mctpVersions type.toNat))
  else s.mctpAnswer x.head (mctpControl x.iid 4 0x80 []))

def execGetMessageTypeSupport (x : MctpReq) (s : State) : Host.Outcome State Fault Refusal :=
  .next (s.mctpAnswer x.head (mctpControl x.iid 5 0 (leBytes 1 4 ++ (mctpTypes.map (leBytes 1)).flatten)))

/-- READ_COLOPHON: bytes of the record of `seq`, or of the newest. -/
def execReadColophon (x : RecordReq) (off : BitVec 32) (len : BitVec 16) (s : State) : Host.Outcome State Fault Refusal :=
  let head := leBytes 1 0x7F ++ beBytes 4 0xD14B ++ leBytes 1 1
  .next (match s.colFind x.seq.toNat with
    | none => s.mctpAnswer x.head (head ++ leBytes 1 1)
    | some r =>
      if 1024 < len.toNat ∨ r.size < off.toNat + len.toNat then s.mctpAnswer x.head (head ++ leBytes 1 2)
      else s.mctpAnswer x.head (head ++ leBytes 1 0 ++ (r.bytes.drop off.toNat).take len.toNat))

/-! ### PLDM (R439, Table 15-5) -/

def State.pldmAnswer (s : State) (x : MctpReq) (type cmd cc : Nat) (l : List Byte) : State :=
  if s.mctpUp x.head then
    (s.sendMctp .pldm x.head (leBytes 1 1 ++ leBytes 1 x.iid ++ leBytes 1 type ++ leBytes 1 cmd ++ leBytes 1 cc ++ l)).inBand 2
  else s

def execGettid (x : MctpReq) (s : State) : Host.Outcome State Fault Refusal :=
  .next (s.pldmAnswer x 0 2 0 (leBytes 1 s.side.tid))

/-- SETTID: 0 and 0xFF are reserved. -/
def execSettid (x : MctpReq) (tid : BitVec 8) (s : State) : Host.Outcome State Fault Refusal :=
  .next (if s.mctpUp x.head = false then s
    else if tid = 0 ∨ tid = 0xFF then s.pldmAnswer x 0 1 2 []
    else (s.modSide fun y => { y with tid := tid.toNat }).pldmAnswer x 0 1 0 [])

/-- GETPLDMVERSION: types 0 and 2, in one part. -/
def execGetpldmversion (x : MctpReq) (op : BitVec 8) (type : BitVec 8) (s : State) : Host.Outcome State Fault Refusal :=
  let v := leBytes 4 (Config.pldmVersion type.toNat).toNat
  .next (if op ≠ 1 then s.pldmAnswer x 0 3 0x81 []
    else if type = 0 ∨ type = 2 then s.pldmAnswer x 0 3 0 (leBytes 4 0 ++ leBytes 1 5 ++ v ++ leBytes 4 (crc32 v))
    else s.pldmAnswer x 0 3 0x83 [])

def execGetpldmtypes (x : MctpReq) (s : State) : Host.Outcome State Fault Refusal :=
  .next (s.pldmAnswer x 0 4 0 (leBytes 8 5))

/-- The commands of a PLDM type. -/
def pldmCommands (type : Nat) : List Nat := if type = 0 then [1, 2, 3, 4, 5] else [0x11, 0x21, 0x31, 0x32, 0x50, 0x51]

def execGetpldmcommands (x : MctpReq) (type : BitVec 8) (version : BitVec 32) (s : State) : Host.Outcome State Fault Refusal :=
  .next (if type ≠ 0 ∧ type ≠ 2 then s.pldmAnswer x 0 5 0x83 []
    else if version ≠ Config.pldmVersion type.toNat then s.pldmAnswer x 0 5 0x84 []
    else s.pldmAnswer x 0 5 0 (leBytes 32 (((pldmCommands type.toNat).map fun c => 2 ^ c).sum)))

/-! #### The PDRs (DSP0248): what R439 and Table 15-5 give of a record stands in it, and its other bytes are free -/

/-- `n` bytes of PDR `h` that the spec does not give, the `k`-th such field. -/
def pdrFree (h k n : Nat) : List Byte := (List.range n).map fun i => Config.pdrByte h k i

/-- PDR `h` of a type: the common header, the terminus and the ID of the sensor or effecter, and the rest. -/
def pdrOf (h type id : Nat) (rest : List Byte) : List Byte :=
  let b := pdrFree h 0 2 ++ leBytes 2 id ++ rest
  leBytes 4 h ++ leBytes 1 1 ++ leBytes 1 type ++ pdrFree h 1 2 ++ leBytes 2 b.length ++ b

/-- The FP32 code of 1, the resolution of a reading in its own unit. -/
def pdrOne : List Byte := leBytes 4 0x3F800000

/-- A numeric sensor: base unit (2 °C, 5 V, 6 A, 7 W, 8 J) and power of ten, readings of 16 bits without sign, linear, resolution
1 and offset 0. -/
def numericSensor (h id unit : Nat) (exp : Byte) : List Byte :=
  pdrOf h 2 id (pdrFree h 2 8 ++ leBytes 1 unit ++ [exp] ++ pdrFree h 3 7 ++ leBytes 1 1 ++ leBytes 1 2 ++ pdrOne ++ leBytes 4 0
    ++ pdrFree h 4 16 ++ pdrFree h 5 4 ++ pdrFree h 6 2 ++ pdrFree h 7 18)

/-- The state sensor of RSTATE: one state set, whose values are those of the field. -/
def stateSensor (h id : Nat) : List Byte := pdrOf h 4 id (pdrFree h 2 8 ++ leBytes 1 1 ++ pdrFree h 3 2 ++ leBytes 1 1 ++ [0x1F])

/-- The numeric effecter of BMC_CAP: W, 16 bits without sign, linear, resolution 1 and offset 0, from 1,800 to 3,600. -/
def numericEffecter (h id : Nat) : List Byte :=
  pdrOf h 9 id (pdrFree h 2 10 ++ leBytes 1 7 ++ leBytes 1 0 ++ pdrFree h 3 6 ++ leBytes 1 1 ++ leBytes 1 2 ++ pdrOne ++ leBytes 4 0
    ++ pdrFree h 4 12 ++ leBytes 2 3600 ++ leBytes 2 1800 ++ pdrFree h 5 12)

/-- The unit and the power of ten of numeric sensor `id`. -/
def sensorUnit (id : Nat) : Nat × Byte :=
  if id = 1 then (5, 0xFE) else if id = 2 then (6, 0xFE) else if id = 3 then (7, 0) else if id = 22 then (8, 0xFF) else (2, 0)

/-- The PDRs: one for each sensor and effecter of Table 15-5. -/
def pdrs : List (List Byte) :=
  ((List.range 22).map fun i => numericSensor (i + 1) (i + 1) (sensorUnit (i + 1)).1 (sensorUnit (i + 1)).2)
    ++ [stateSensor 23 30, numericEffecter 24 40]

def execGetpdrrepositoryinfo (x : MctpReq) (s : State) : Host.Outcome State Fault Refusal :=
  let (s1, t) := s.nonce
  .next (if s.mctpUp x.head = false then s
    else s1.pldmAnswer x 2 0x50 0 (leBytes 1 0 ++ slice t 0 26 ++ leBytes 4 pdrs.length
      ++ leBytes 4 ((pdrs.map List.length).sum) ++ leBytes 4 (pdrs.foldl (fun m l => Nat.max m l.length) 0) ++ leBytes 1 0))

/-- The CRC-8 that ends a PDR sent in several parts. -/
def crc8 (l : List Byte) : Nat :=
  l.foldl (fun c b => iter 8 (fun _ x => if 128 ≤ x then (2 * x % 256) ^^^ 7 else 2 * x) (c ^^^ b.toNat)) 0

/-- GETPDR: record `handle` (0 for the first), from `off` on unless `op` asks for the first part, at most `count` bytes. -/
def State.getPdr (s : State) (x : MctpReq) (handle off op count : Nat) : State :=
  let i := Nat.max 1 handle
  match pdrs[i - 1]? with
  | none => s.pldmAnswer x 2 0x51 0x82 []
  | some p =>
    let o := if op = 1 then 0 else off
    let d := (p.drop o).take count
    let last : Bool := decide (p.length ≤ o + d.length)
    let flag := if o = 0 then (if last then 5 else 0) else (if last then 4 else 1)
    s.pldmAnswer x 2 0x51 0 (leBytes 4 (if i < 24 then i + 1 else 0) ++ leBytes 4 (if last then 0 else o + d.length) ++ leBytes 1 flag
      ++ leBytes 2 d.length ++ d ++ (if flag = 4 then leBytes 1 (crc8 p) else []))

def execGetpdr (x : MctpReq) (handle off : BitVec 32) (op : BitVec 8) (count : BitVec 16) (s : State) :
    Host.Outcome State Fault Refusal := .next (s.getPdr x handle.toNat off.toNat op.toNat count.toNat)

/-- The reading of numeric sensor `id`. -/
def State.sensor (s : State) (id : Nat) : Option Nat :=
  if id = 1 then some (s.fget F.PWR_INPUT_VIN)
  else if id = 2 then some s.pwr.iin
  else if id = 3 then some (s.fget F.PWR_INPUT_PIN)
  else if 4 ≤ id ∧ id ≤ 7 then some (s.fget (F.PWR_DIE_TJ_C (id - 4)))
  else if id = 8 ∨ id = 9 then some (s.pwr.edgeTj.getD (id - 8) 0)
  else if 10 ≤ id ∧ id ≤ 21 then some (s.pwr.stackT.getD (id - 10) 0)
  else if id = 22 then some (s.fget F.PWR_HOLDUP_ENERGY)
  else none

/-- GETSENSORREADING: a 16-bit reading; the present, previous and event states are free. -/
def execGetsensorreading (x : MctpReq) (id : BitVec 16) (s : State) : Host.Outcome State Fault Refusal :=
  .next (match s.sensor id.toNat with
    | none => s.pldmAnswer x 2 0x11 0x80 []
    | some v =>
      if s.mctpUp x.head = false then s
      else
        let (s, f) := s.freeVal
        s.pldmAnswer x 2 0x11 0 (leBytes 1 2 ++ leBytes 2 0 ++ leBytes 3 f ++ leBytes 2 v))

/-- GETSTATESENSORREADINGS: sensor 30 is RSTATE. -/
def execGetstatesensorreadings (x : MctpReq) (id : BitVec 16) (s : State) : Host.Outcome State Fault Refusal :=
  .next (if id ≠ 30 then s.pldmAnswer x 2 0x21 0x80 []
    else if s.mctpUp x.head = false then s
    else
      let (s, f) := s.freeVal
      s.pldmAnswer x 2 0x21 0 (leBytes 1 1 ++ leBytes 1 0 ++ leBytes 1 (s.fget F.MGT_RST_STAT_RSTATE) ++ leBytes 2 f))

/-- GETNUMERICEFFECTERVALUE: effecter 40 is BMC_CAP. -/
def execGetnumericeffectervalue (x : MctpReq) (id : BitVec 16) (s : State) : Host.Outcome State Fault Refusal :=
  let v := s.fget F.PWR_CAP_BMC_CAP
  .next (if id ≠ 40 then s.pldmAnswer x 2 0x32 0x80 []
    else s.pldmAnswer x 2 0x32 0 (leBytes 1 2 ++ leBytes 1 (if s.pwr.capAt.isSome then 0 else 1) ++ leBytes 2 v ++ leBytes 2 v))

/-- SETNUMERICEFFECTERVALUE: BMC_CAP, from 1,800 to 3,600 in steps of 25; other values are refused. -/
def execSetnumericeffectervalue (x : MctpReq) (id : BitVec 16) (size : BitVec 8) (v : BitVec 32) (s : State) :
    Host.Outcome State Fault Refusal :=
  .next (if s.mctpUp x.head = false then s
    else if id ≠ 40 then s.pldmAnswer x 2 0x31 0x80 []
    else if size ≠ 2 ∨ Legal.capStep.ok v.toNat = false then s.pldmAnswer x 2 0x31 2 []
    else ((s.fset F.PWR_CAP_BMC_CAP v.toNat).capAsked).pldmAnswer x 2 0x31 0 [])

end Sys2Proof.Machine
end

