-- ==== Sys2Proof/Machine/Xfe.lean ====
section
/-!
DEFINITION. The transfer engine's commands: descriptors (R155 to R157), their requests (R161), re-fetches (R164), and
the scrubbers (R168).
-/

namespace Sys2Proof.Machine

/-- COPY (Table 5-6): the descriptor at the queue's head starts. -/
def execCopy (g : CoreId) (s : State) : Host.Outcome State Fault Refusal := .next (s.startQueued g 1).flush

/-- ZERO (Table 5-6). -/
def execZero (g : CoreId) (s : State) : Host.Outcome State Fault Refusal := .next (s.startQueued g 2).flush

/-- QSET (Table 5-6): moves no data; its completion signals. -/
def execQset (g : CoreId) (s : State) : Host.Outcome State Fault Refusal := .next (s.startQueued g 3).flush

/-- HINT (Table 5-6): class and next use of the lines of its shape. -/
def execHint (g : CoreId) (s : State) : Host.Outcome State Fault Refusal := .next (s.startQueued g 4).flush

/-- R157: the next descriptor of a chain. -/
def execDescriptorChainNext (g : CoreId) (s : State) : Host.Outcome State Fault Refusal := .next (s.startChained g).flush

/-- R156: steps 5 to 9 of an active descriptor whose data has moved. -/
def execDescriptorComplete (g : CoreId) (i : Fin 16) (s : State) : Host.Outcome State Fault Refusal :=
  .next (s.completeDesc g i).flush

/-- R164: a waiting engine's buffer is fetched again. -/
def execXfeRefetch (g : CoreId) (s : State) : Host.Outcome State Fault Refusal := .next (s.startRefetch g).flush

/-- Table 5-8: whether an older aged request keeps `x` from being served by its bank. -/
def State.heldBehind (s : State) (x : Slot) : Bool :=
  s.cores.entries.any fun p => s.xfeLive p.1 &&
    p.2.slots.any fun y => y.aged && y.queued.isSome && (x.req.uses y.req.bank || x.req.uses y.req.bank2)
      && decide (y.since < x.since)

def State.requestLanded (s : State) (g i : Nat) : State :=
  match s.occupant g, (s.core g).slots[i]? with
  | some c, some x =>
    if s.xfeLive g ∧ x.req.kind.isLocal = true ∧ x.queued.isSome = true ∧ s.heldBehind x = false
        ∧ s.bankStopped x.req.bank = false ∧ s.bankStopped x.req.bank2 = false then (s.landReq g c x).flush else s
  | _, _ => s

/-- R161: the request in the `i`-th held slot is served. -/
def execRequestLanded (g : CoreId) (i : Fin 48) (s : State) : Host.Outcome State Fault Refusal :=
  .next (s.requestLanded g i)

/-- Table 5-8: a request that has held its slot for more than 4 µs is aged. -/
def execRequestAged (g : CoreId) (i : Fin 48) (s : State) : Host.Outcome State Fault Refusal :=
  .next (match (s.core g).slots[i.val]? with
    | none => s
    | some x =>
      if x.since + 4 < s.timeUs ∧ x.aged = false then
        (s.modCore g fun k => { k with slots := listSet k.slots i { x with aged := true } }).fset (F.XFE_STAT_AGED_SEEN g) 1
      else s)

/-- Table 5-8: bank `b` is recorded as degraded. -/
def State.bankDegraded (s : State) (b : Nat) : State :=
  if b < 0x10000 then
    let k := b / 512
    let d := k / 3
    let s := s.fadd (F.HBM_BANK_DEG_DEG_CNT d (k % 3)) 1
    ((s.fset (F.HBM_BANK_DEG_PC d (k % 3)) (b / 16)).fset (F.HBM_BANK_DEG_BANK d (k % 3)) b).raise 0x0305 none k []
  else
    let k := (b - 0x10000) / 16
    let s := s.fadd (F.LPX_BANK_DEG_DEG_CNT (k / 8) (k % 8)) 1
    (s.fset (F.LPX_BANK_DEG_BANK (k / 8) (k % 8)) b).raise 0x0305 none (0x100 + k) []

/-- Bank `b` recorded as degraded unless it was within the last second; 0x20000 is no bank. -/
def State.bankOverdue (s : State) (b : Nat) : State :=
  let key := 2 ^ 40 + b
  let due := match s.lastEvent.find key with
    | none => true
    | some t => decide (t + 1000000 ≤ s.timeUs)
  if b ≠ 0x20000 ∧ due = true then { s with lastEvent := s.lastEvent.set key s.timeUs }.bankDegraded b else s

def State.memBankDegraded (s : State) (g i : Nat) : State :=
  match (s.core g).slots[i]? with
  | none => s
  | some x =>
    if (x.queued.map (· + 100)).getD s.timeUs < s.timeUs ∧ x.req.kind.isLocal = true then
      [x.req.bank, x.req.bank2].foldl State.bankOverdue s
    else s

/-- Table 5-8: a request unserved for more than 100 µs; at most once per second per bank. -/
def execMemBankDegraded (g : CoreId) (i : Fin 48) (s : State) : Host.Outcome State Fault Refusal :=
  .next (s.memBankDegraded g i)

/-- The enable of the scrubber of the array at `a`. -/
def State.scrubOn (s : State) (a : Nat) : Bool :=
  match place a with
  | .hbm d => s.fget (F.CD_SCRUB_CTRL_EN d) == 1
  | .lpx e => s.fget (F.ED_SCRUB_CTRL_EN e) == 1
  | _ => (sramOf a).any fun w => s.fget (F.CD_SCRUB_CTRL_EN w.die) == 1

/-- One 64-byte block read by the scrubber: corrected, or left and recorded. -/
def State.scrubBlock (s : State) (a : Nat) : State :=
  if s.segBad a then (s.uncorrectable a true none).misaddressed [a] none
  else match s.ecc.find a with
    | none => s
    | some m => if correctable a m then s.corrected a else s.uncorrectable a true none

/-- R168: the patrol scrubber reaches the block that holds `addr`. -/
def execPatrolScrub (addr : BitVec 48) (s : State) : Host.Outcome State Fault Refusal :=
  let a := addr.toNat / 64 * 64
  .next (if isMem a = true ∧ s.inService a 64 = true ∧ s.scrubOn a = true then s.scrubBlock a else s)

/-- R168: the scrubber reaches the SRAM word that holds `addr`; a word of the ACF or of a die cache is named by the address
the model gives it (`acfBase`, `dcDataBase`, `dcTagBase`). -/
def execSramScrub (addr : BitVec 48) (s : State) : Host.Outcome State Fault Refusal :=
  let a := addr.toNat / 8 * 8
  .next (if isMem a = false ∧ s.scrubOn a = true then
    match s.ecc.find a with
    | none => s
    | some m => if correctable a m then s.corrected a else s.sramUncorrectable a
  else s)

end Sys2Proof.Machine
end

