-- ==== Sys2Proof/Machine/Dispatch.lean ====
section
/-!
DEFINITION. exec: one arm per command, each one direct call of its meaning.
-/

namespace Sys2Proof.Machine

/-- The effect of a command on everything but the queue. -/
def exec (i : Instr) (s : State) : Host.Outcome State Fault Refusal :=
  match i with
  | .managementPlaneDown => Sys2Proof.Machine.execManagementPlaneDown s
  | .controlPlaneDown => Sys2Proof.Machine.execControlPlaneDown s
  | .mgcHeartbeatSilent m => Sys2Proof.Machine.execMgcHeartbeatSilent m s
  | .managementPlaneReturn m => Sys2Proof.Machine.execManagementPlaneReturn m s
  | .heldCommandTimeout c r => Sys2Proof.Machine.execHeldCommandTimeout c r s
  | .loadForme c r => Sys2Proof.Machine.execLoadForme c r s
  | .admitForme c r => Sys2Proof.Machine.execAdmit c r s
  | .runSteps c r => Sys2Proof.Machine.execRunSteps c r s
  | .preempt c r => Sys2Proof.Machine.execPreempt c r s
  | .saveCmd c r => Sys2Proof.Machine.execSaveCmd c r s
  | .restore c r => Sys2Proof.Machine.execRestore c r s
  | .migrate c r => Sys2Proof.Machine.execMigrate c r s
  | .teardownCmd c r => Sys2Proof.Machine.execTeardownCmd c r s
  | .setImposition c r => Sys2Proof.Machine.execSetImposition c r s
  | .queryContext c r => Sys2Proof.Machine.execQueryContext c r s
  | .queryColophon c r => Sys2Proof.Machine.execQueryColophon c r s
  | .queryFrozenState c r => Sys2Proof.Machine.execQueryFrozenState c r s
  | .queryCapability c r => Sys2Proof.Machine.execQueryCapability c r s
  | .ldw g => Sys2Proof.Machine.execLdw g s
  | .openGroup g => Sys2Proof.Machine.execOpenGroup g s
  | .mma g => Sys2Proof.Machine.execMma g s
  | .park g => Sys2Proof.Machine.execPark g s
  | .resume g => Sys2Proof.Machine.execResume g s
  | .drain g => Sys2Proof.Machine.execDrain g s
  | .abort g => Sys2Proof.Machine.execAbort g s
  | .tileVerdict g => Sys2Proof.Machine.execTileVerdict g s
  | .drainEntry g => Sys2Proof.Machine.execDrainEntry g s
  | .shadowTile g => Sys2Proof.Machine.execShadowTile g s
  | .shadowCrcReturn g => Sys2Proof.Machine.execShadowCrcReturn g s
  | .monitorFlushArrival d => Sys2Proof.Machine.execMonitorFlushArrival d s
  | .rangeVerdict d e => Sys2Proof.Machine.execRangeVerdict d e s
  | .alu g => Sys2Proof.Machine.execAlu g s
  | .addi g => Sys2Proof.Machine.execAddi g s
  | .orsh g => Sys2Proof.Machine.execOrsh g s
  | .ld g => Sys2Proof.Machine.execLd g s
  | .st g => Sys2Proof.Machine.execSt g s
  | .beq g => Sys2Proof.Machine.execBeq g s
  | .bne g => Sys2Proof.Machine.execBne g s
  | .blt g => Sys2Proof.Machine.execBlt g s
  | .jmpr g => Sys2Proof.Machine.execJmpr g s
  | .qadd g => Sys2Proof.Machine.execQadd g s
  | .qwait g => Sys2Proof.Machine.execQwait g s
  | .qread g => Sys2Proof.Machine.execQread g s
  | .gpeek g => Sys2Proof.Machine.execGpeek g s
  | .issueMxe g => Sys2Proof.Machine.execIssueMxe g s
  | .issueVxe g => Sys2Proof.Machine.execIssueVxe g s
  | .issueXfe g => Sys2Proof.Machine.execIssueXfe g s
  | .endi g => Sys2Proof.Machine.execEndi g s
  | .fence g => Sys2Proof.Machine.execFence g s
  | .addV g => Sys2Proof.Machine.execAddV g s
  | .subV g => Sys2Proof.Machine.execSubV g s
  | .mulV g => Sys2Proof.Machine.execMulV g s
  | .fma g => Sys2Proof.Machine.execFma g s
  | .maxV g => Sys2Proof.Machine.execMaxV g s
  | .minV g => Sys2Proof.Machine.execMinV g s
  | .absV g => Sys2Proof.Machine.execAbsV g s
  | .negV g => Sys2Proof.Machine.execNegV g s
  | .shl g => Sys2Proof.Machine.execShl g s
  | .sra g => Sys2Proof.Machine.execSra g s
  | .srl g => Sys2Proof.Machine.execSrl g s
  | .shrr g => Sys2Proof.Machine.execShrr g s
  | .andV g => Sys2Proof.Machine.execAndV g s
  | .orV g => Sys2Proof.Machine.execOrV g s
  | .xorV g => Sys2Proof.Machine.execXorV g s
  | .cmpeq g => Sys2Proof.Machine.execCmpeq g s
  | .cmpne g => Sys2Proof.Machine.execCmpne g s
  | .cmplt g => Sys2Proof.Machine.execCmplt g s
  | .cmple g => Sys2Proof.Machine.execCmple g s
  | .sel g => Sys2Proof.Machine.execSel g s
  | .sum g => Sys2Proof.Machine.execSum g s
  | .sumsq g => Sys2Proof.Machine.execSumsq g s
  | .rmax g => Sys2Proof.Machine.execRmax g s
  | .rmin g => Sys2Proof.Machine.execRmin g s
  | .amax g => Sys2Proof.Machine.execAmax g s
  | .exp2 g => Sys2Proof.Machine.execExp2 g s
  | .log2 g => Sys2Proof.Machine.execLog2 g s
  | .rcp g => Sys2Proof.Machine.execRcp g s
  | .rsqrt g => Sys2Proof.Machine.execRsqrt g s
  | .sqrt g => Sys2Proof.Machine.execSqrt g s
  | .tanh g => Sys2Proof.Machine.execTanh g s
  | .sigm g => Sys2Proof.Machine.execSigm g s
  | .erf g => Sys2Proof.Machine.execErf g s
  | .cvt g => Sys2Proof.Machine.execCvt g s
  | .rsc g => Sys2Proof.Machine.execRsc g s
  | .mflush g => Sys2Proof.Machine.execMflush g s
  | .copy g => Sys2Proof.Machine.execCopy g s
  | .zero g => Sys2Proof.Machine.execZero g s
  | .qset g => Sys2Proof.Machine.execQset g s
  | .hint g => Sys2Proof.Machine.execHint g s
  | .descriptorChainNext g => Sys2Proof.Machine.execDescriptorChainNext g s
  | .requestLanded g n => Sys2Proof.Machine.execRequestLanded g n s
  | .requestAged g n => Sys2Proof.Machine.execRequestAged g n s
  | .memBankDegraded g n => Sys2Proof.Machine.execMemBankDegraded g n s
  | .descriptorComplete g n => Sys2Proof.Machine.execDescriptorComplete g n s
  | .xfeRefetch g => Sys2Proof.Machine.execXfeRefetch g s
  | .patrolScrub addr => Sys2Proof.Machine.execPatrolScrub addr s
  | .sramScrub addr => Sys2Proof.Machine.execSramScrub addr s
  | .proofPass c => Sys2Proof.Machine.execProofPass c s
  | .impressionTick => Sys2Proof.Machine.execImpressionTick s
  | .rampStart c k => Sys2Proof.Machine.execRampStart c k s
  | .impressionEnd g => Sys2Proof.Machine.execImpressionEnd g s
  | .slipCutoff => Sys2Proof.Machine.execSlipCutoff s
  | .tickCellSend => Sys2Proof.Machine.execTickCellSend s
  | .delayMeasurement => Sys2Proof.Machine.execDelayMeasurement s
  | .tickHoldover => Sys2Proof.Machine.execTickHoldover s
  | .tickLost => Sys2Proof.Machine.execTickLost s
  | .tckPeriodWrite w => Sys2Proof.Machine.execTckPeriodWrite w s
  | .periodChangeApply => Sys2Proof.Machine.execPeriodChangeApply s
  | .overrunLimit c => Sys2Proof.Machine.execOverrunLimit c s
  | .saveComplete c => Sys2Proof.Machine.execSaveComplete c s
  | .restoreCoreStart c g => Sys2Proof.Machine.execRestoreCoreStart c g s
  | .coreRestoreDone c g => Sys2Proof.Machine.execCoreRestoreDone c g s
  | .coresBusyTimeout c r => Sys2Proof.Machine.execCoresBusyTimeout c r s
  | .teardownDone c => Sys2Proof.Machine.execTeardownDone c s
  | .busyRetry x => Sys2Proof.Machine.execBusyRetry x s
  | .peerTimeout x => Sys2Proof.Machine.execPeerTimeout x s
  | .migrateConfirm c => Sys2Proof.Machine.execMigrateConfirm c s
  | .migrateFailure c cause => Sys2Proof.Machine.execMigrateFailure c cause s
  | .portEnable p w => Sys2Proof.Machine.execPortEnable p w s
  | .portRetrain p w => Sys2Proof.Machine.execPortRetrain p w s
  | .portTrained p => Sys2Proof.Machine.execPortTrained p s
  | .portTrainTimeout p => Sys2Proof.Machine.execPortTrainTimeout p s
  | .portRetrainTimer p => Sys2Proof.Machine.execPortRetrainTimer p s
  | .laneLockLoss p lane => Sys2Proof.Machine.execLaneLockLoss p lane s
  | .linkFrame p frame corrected uncorrectable => Sys2Proof.Machine.execLinkFrame p frame corrected uncorrectable s
  | .linkAck p lseq => Sys2Proof.Machine.execLinkAck p lseq s
  | .linkNak p lseq => Sys2Proof.Machine.execLinkNak p lseq s
  | .linkReplayTimeout p => Sys2Proof.Machine.execLinkReplayTimeout p s
  | .linkAckTimer p => Sys2Proof.Machine.execLinkAckTimer p s
  | .linkDownWord p => Sys2Proof.Machine.execLinkDownWord p s
  | .portFecDegraded p => Sys2Proof.Machine.execPortFecDegraded p s
  | .writeCell p => Sys2Proof.Machine.execWriteCell p s
  | .readReqCell p => Sys2Proof.Machine.execReadReqCell p s
  | .readDataCell p => Sys2Proof.Machine.execReadDataCell p s
  | .ackCell p => Sys2Proof.Machine.execAckCell p s
  | .qupdCell p => Sys2Proof.Machine.execQupdCell p s
  | .bucketCell p => Sys2Proof.Machine.execBucketCell p s
  | .tickCell p atNs => Sys2Proof.Machine.execTickCell p atNs s
  | .delayReq p atNs => Sys2Proof.Machine.execDelayReq p atNs s
  | .delayResp p atNs => Sys2Proof.Machine.execDelayResp p atNs s
  | .slipReq p => Sys2Proof.Machine.execSlipReq p s
  | .membershipCell p => Sys2Proof.Machine.execMembershipCell p s
  | .leavingCell p => Sys2Proof.Machine.execLeavingCell p s
  | .requestTimeout x => Sys2Proof.Machine.execRequestTimeout x s
  | .routeCommit n w => Sys2Proof.Machine.execRouteCommit n w s
  | .bucketStart c b => Sys2Proof.Machine.execBucketStart c b s
  | .reduceOperation c b dir => Sys2Proof.Machine.execReduceOperation c b dir s
  | .gatherHop c b dir => Sys2Proof.Machine.execGatherHop c b dir s
  | .bucketStall c b => Sys2Proof.Machine.execBucketStall c b s
  | .epochDrained c => Sys2Proof.Machine.execEpochDrained c s
  | .impositionTakesEffect c => Sys2Proof.Machine.execImpositionTakesEffect c s
  | .streamDeadline c n => Sys2Proof.Machine.execStreamDeadline c n s
  | .gateRelease c => Sys2Proof.Machine.execGateRelease c s
  | .fpRepaired c => Sys2Proof.Machine.execFpRepaired c s
  | .recover c w => Sys2Proof.Machine.execRecover c w s
  | .recoverDone c => Sys2Proof.Machine.execRecoverDone c s
  | .engineWatchdog g u => Sys2Proof.Machine.execEngineWatchdog g u s
  | .threadWatchdog g t => Sys2Proof.Machine.execThreadWatchdog g t s
  | .transferTimeout g n => Sys2Proof.Machine.execTransferTimeout g n s
  | .generationWait g => Sys2Proof.Machine.execGenerationWait g s
  | .teardownTimeout c => Sys2Proof.Machine.execTeardownTimeout c s
  | .edgeEngineWatchdog u => Sys2Proof.Machine.execEdgeEngineWatchdog u s
  | .bridgeStall b => Sys2Proof.Machine.execBridgeStall b s
  | .secWatchdog => Sys2Proof.Machine.execSecWatchdog s
  | .scanTimeout u => Sys2Proof.Machine.execScanTimeout u s
  | .captureEnd missing => Sys2Proof.Machine.execCaptureEnd missing s
  | .resetEscalated => Sys2Proof.Machine.execResetEscalated s
  | .recoveryRestarted => Sys2Proof.Machine.execRecoveryRestarted s
  | .warmRecoveryDone absent mhz => Sys2Proof.Machine.execWarmRecoveryDone absent mhz s
  | .colophonPersist e => Sys2Proof.Machine.execColophonPersist e s
  | .holdupRemeasure e => Sys2Proof.Machine.execHoldupRemeasure e s
  | .capacitanceMeasure c => Sys2Proof.Machine.execCapacitanceMeasure c s
  | .mgmtHeartbeat => Sys2Proof.Machine.execMgmtHeartbeat s
  | .warm w => Sys2Proof.Machine.execWarm w s
  | .cold => Sys2Proof.Machine.execCold s
  | .connect src m => Sys2Proof.Machine.execConnect src m s
  | .disconnect m => Sys2Proof.Machine.execDisconnect m s
  | .rdmaWrite qp psn vaddr rkey data mute => Sys2Proof.Machine.execRdmaWrite qp psn vaddr rkey data mute s
  | .rdmaRead qp psn vaddr rkey len mute => Sys2Proof.Machine.execRdmaRead qp psn vaddr rkey len mute s
  | .sendMsg qp psn len h => Sys2Proof.Machine.execSendMsg qp psn len h s
  | .rdmaReadResponse qp data h => Sys2Proof.Machine.execRdmaReadResponse qp data h s
  | .roceAck qp psn code => Sys2Proof.Machine.execRoceAck qp psn code s
  | .qpRetryExhausted qp => Sys2Proof.Machine.execQpRetryExhausted qp s
  | .cnp qp => Sys2Proof.Machine.execCnp qp s
  | .rateIncrease qp => Sys2Proof.Machine.execRateIncrease qp s
  | .ptpMessage offset => Sys2Proof.Machine.execPtpMessage offset s
  | .hostLinkDown => Sys2Proof.Machine.execHostLinkDown s
  | .hostLinkUp => Sys2Proof.Machine.execHostLinkUp s
  | .pfcFrame enable quanta => Sys2Proof.Machine.execPfcFrame enable quanta s
  | .arp smac sip tip => Sys2Proof.Machine.execArp smac sip tip s
  | .neighborDiscovery src target => Sys2Proof.Machine.execNeighborDiscovery src target s
  | .icmpEcho src dst m => Sys2Proof.Machine.execIcmpEcho src dst m s
  | .icmpv6Echo src dst m => Sys2Proof.Machine.execIcmpv6Echo src dst m s
  | .sqDb c r count => Sys2Proof.Machine.execSqDb c r count s
  | .crCi c v => Sys2Proof.Machine.execCrCi c v s
  | .crCfg c w qp => Sys2Proof.Machine.execCrCfg c w qp s
  | .commandTake c => Sys2Proof.Machine.execCommandTake c s
  | .completionWrite c => Sys2Proof.Machine.execCompletionWrite c s
  | .eventRecordWrite => Sys2Proof.Machine.execEventRecordWrite s
  | .eventRingEnable w => Sys2Proof.Machine.execEventRingEnable w s
  | .eventRingCi w => Sys2Proof.Machine.execEventRingCi w s
  | .mbxLoWrite n a sec v => Sys2Proof.Machine.execMbxLoWrite n a sec v s
  | .mbxHiWrite n a sec v => Sys2Proof.Machine.execMbxHiWrite n a sec v s
  | .mbxHiRead n a sec => Sys2Proof.Machine.execMbxHiRead n a sec s
  | .mbxClaimTimeout n => Sys2Proof.Machine.execMbxClaimTimeout n s
  | .coldStart resetN throttleN => Sys2Proof.Machine.execColdStart resetN throttleN s
  | .moduleReady absent mhz => Sys2Proof.Machine.execModuleReady absent mhz s
  | .dhcpv6Message m => Sys2Proof.Machine.execDhcpv6Message m s
  | .tftpData n data => Sys2Proof.Machine.execTftpData n data s
  | .tftpAckTimeout => Sys2Proof.Machine.execTftpAckTimeout s
  | .netRecoveryRetry => Sys2Proof.Machine.execNetRecoveryRetry s
  | .setEntry => Sys2Proof.Machine.execSetEntry s
  | .clearEntry => Sys2Proof.Machine.execClearEntry s
  | .requireOn => Sys2Proof.Machine.execRequireOn s
  | .requireOff => Sys2Proof.Machine.execRequireOff s
  | .setOwner => Sys2Proof.Machine.execSetOwner s
  | .getVersion t n m => Sys2Proof.Machine.execGetVersion t n m s
  | .getCapabilities t n m => Sys2Proof.Machine.execGetCapabilities t n m s
  | .negotiateAlgorithms t n m => Sys2Proof.Machine.execNegotiateAlgorithms t n m s
  | .getDigests t n m => Sys2Proof.Machine.execGetDigests t n m s
  | .getCertificate t n m => Sys2Proof.Machine.execGetCertificate t n m s
  | .challenge t n m => Sys2Proof.Machine.execChallenge t n m s
  | .getMeasurements t n m => Sys2Proof.Machine.execGetMeasurements t n m s
  | .spdmUnsupportedRequest t n m => Sys2Proof.Machine.execSpdmUnsupportedRequest t n m s
  | .inputPowerFault => Sys2Proof.Machine.execInputPowerFault s
  | .inputReturn => Sys2Proof.Machine.execInputReturn s
  | .pwrEnDeassert => Sys2Proof.Machine.execPwrEnDeassert s
  | .modResetNAssert => Sys2Proof.Machine.execModResetNAssert s
  | .modResetNDeassert => Sys2Proof.Machine.execModResetNDeassert s
  | .throttleAsserted => Sys2Proof.Machine.execThrottleAsserted s
  | .throttleNDeassert => Sys2Proof.Machine.execThrottleNDeassert s
  | .throttleHeld => Sys2Proof.Machine.execThrottleHeld s
  | .pinWindowEnd n => Sys2Proof.Machine.execPinWindowEnd n s
  | .pinSteady n => Sys2Proof.Machine.execPinSteady n s
  | .powerManagerStep vin iin avg => Sys2Proof.Machine.execPowerManagerStep vin iin avg s
  | .hostCapWrite w => Sys2Proof.Machine.execHostCapWrite w s
  | .capChanged => Sys2Proof.Machine.execCapChanged s
  | .moduleLimiter w => Sys2Proof.Machine.execModuleLimiter w s
  | .floorPowerExceeded w rail => Sys2Proof.Machine.execFloorPowerExceeded w rail s
  | .thermalSample tj edge stk => Sys2Proof.Machine.execThermalSample tj edge stk s
  | .enec b => Sys2Proof.Machine.execEnec b s
  | .disec b => Sys2Proof.Machine.execDisec b s
  | .rstdaa => Sys2Proof.Machine.execRstdaa s
  | .entdaa a => Sys2Proof.Machine.execEntdaa a s
  | .setdasa sa a => Sys2Proof.Machine.execSetdasa sa a s
  | .setmwl n => Sys2Proof.Machine.execSetmwl n s
  | .setmrl n => Sys2Proof.Machine.execSetmrl n s
  | .getmwl => Sys2Proof.Machine.execGetmwl s
  | .getmrl => Sys2Proof.Machine.execGetmrl s
  | .getpid => Sys2Proof.Machine.execGetpid s
  | .getbcr => Sys2Proof.Machine.execGetbcr s
  | .getdcr => Sys2Proof.Machine.execGetdcr s
  | .getstatus => Sys2Proof.Machine.execGetstatus s
  | .setEndpointId x op eid => Sys2Proof.Machine.execSetEndpointId x op eid s
  | .getEndpointId x => Sys2Proof.Machine.execGetEndpointId x s
  | .getMctpVersionSupport x type => Sys2Proof.Machine.execGetMctpVersionSupport x type s
  | .getMessageTypeSupport x => Sys2Proof.Machine.execGetMessageTypeSupport x s
  | .readColophon x off len => Sys2Proof.Machine.execReadColophon x off len s
  | .gettid x => Sys2Proof.Machine.execGettid x s
  | .settid x tid => Sys2Proof.Machine.execSettid x tid s
  | .getpldmversion x op type => Sys2Proof.Machine.execGetpldmversion x op type s
  | .getpldmtypes x => Sys2Proof.Machine.execGetpldmtypes x s
  | .getpldmcommands x type version => Sys2Proof.Machine.execGetpldmcommands x type version s
  | .getpdrrepositoryinfo x => Sys2Proof.Machine.execGetpdrrepositoryinfo x s
  | .getpdr x handle off op count => Sys2Proof.Machine.execGetpdr x handle off op count s
  | .getsensorreading x id => Sys2Proof.Machine.execGetsensorreading x id s
  | .getstatesensorreadings x id => Sys2Proof.Machine.execGetstatesensorreadings x id s
  | .getnumericeffectervalue x id => Sys2Proof.Machine.execGetnumericeffectervalue x id s
  | .setnumericeffectervalue x id size v => Sys2Proof.Machine.execSetnumericeffectervalue x id size v s
  | .tckNumLoRead a => Sys2Proof.Machine.execTckNumLoRead a s
  | .readClear who sec mute a => Sys2Proof.Machine.execReadClear who sec mute a s
  | .registerWrite who sec mute a v => Sys2Proof.Machine.execRegisterWrite who sec mute a v s
  | .mgcHeartbeatResumed m => Sys2Proof.Machine.execMgcHeartbeatResumed m s
  | .tickUnitEnable w => Sys2Proof.Machine.execTickUnitEnable w s
  | .parityReadDone c => Sys2Proof.Machine.execParityReadDone c s
  | .coreResetDone g ok => Sys2Proof.Machine.execCoreResetDone g ok s
  | .dieResetDone d cores rest => Sys2Proof.Machine.execDieResetDone d cores rest s
  | .rcRetransmitTimeout qp => Sys2Proof.Machine.execRcRetransmitTimeout qp s
  | .dhcpv6Retransmit => Sys2Proof.Machine.execDhcpv6Retransmit s
  | .tftpOack b => Sys2Proof.Machine.execTftpOack b s
  | .holdupBankSpent => Sys2Proof.Machine.execHoldupBankSpent s
  | .inputChangeInWindow n v => Sys2Proof.Machine.execInputChangeInWindow n v s

end Sys2Proof.Machine
end

