-- ==== Sys2Proof/Machine/Time.lean ====
section
/-!
DEFINITION. The passage of time with no command: one microsecond per step on an empty queue (assumption 1).
-/

namespace Sys2Proof.Machine

/-- The watchdog instants of core `g` after a microsecond (Table 12-2, detectors 1 and 2): an engine with nothing started
and a thread outside RUN have not hung. -/
def State.watch (s : State) (g : Nat) (c : Core) : Core :=
  let now := s.timeUs
  let live := s.live g
  { c with
    mxeAt := if live && !c.tiles.isEmpty then c.mxeAt else now
    vxeAt := if s.vxeBegun g then c.vxeAt else now
    xfeAt := if live && c.slots.any (fun x => x.req.kind == .copy || x.req.kind == .zero) then c.xfeAt else now
    thrAt := (List.range 8).map fun t => if live && s.thrCode g t == 1 then c.thrAt.getD t now else now }

/-- One microsecond passes: the module's clock, the VXE cycle count of each compute die at its clock (R133), the
watchdog instants, and the pauses of the host port (R379). -/
def State.passUs (s : State) : State :=
  let s := (List.range 4).foldl (fun s d =>
    s.modDie d fun x => { x with cycles := x.cycles + s.fget (F.PWR_DIE_CLK_MHZ d) })
    { s with timeUs := s.timeUs + 1 }
  { s with cores := s.cores.map s.watch }.unpause

end Sys2Proof.Machine
end

