-- ==== Sys2Proof/Safety.lean ====
section
/-!
DEFINITION. What counts as a safe state and a safe step, in the terms the statements use: which parts of the state a
command may touch, and the conditions under which a command has its effect.
-/

namespace Sys2Proof.Machine

/-- The memory of a state is in its canonical form. -/
def State.memOk (s : State) : Prop := Memory.wf s.mem = true

/-- No physical upset is present in any memory array. -/
def State.clean (s : State) : Prop := s.ecc = .empty ∧ s.badSeg = .empty

/-- The two states differ in core `g` alone. -/
def OnlyCore (s u : State) (g : Nat) : Prop := u = { s with cores := u.cores } ∧ ∀ h, h ≠ g → u.core h = s.core h

/-- The two states differ in core `g` and in memory alone. -/
def OnlyCoreMem (s u : State) (g : Nat) : Prop :=
  u = { s with cores := u.cores, mem := u.mem } ∧ ∀ h, h ≠ g → u.core h = s.core h

/-! ### The control core -/

/-- Core `g` works and its thread `t` issues next (R104); its next word is `w` with payload `p` (R109), legal by itself
(R110), and nothing it reads has an upset. -/
structure CtcIssues (s : State) (g t w p : Nat) : Prop where
  live : s.live g = true
  pick : s.ctcPick g = some t
  fetch : s.ctcFetch g (s.thread g t).pc = some (w, p)
  legal : ctcLegal w = true
  clean : s.clean
  regs : (s.core g).sregUpset = .empty

/-- Scalar register `r` of thread `t` as a 64-bit word. -/
def State.reg64 (s : State) (g t r : Nat) : BitVec 64 := (s.thread g t).sreg.get 0 r

/-- Only scalar register `d` of thread `t` may differ among the thread's registers. -/
def OnlyReg (s u : State) (g t d : Nat) : Prop := ∀ r, r ≠ d → u.reg64 g t r = s.reg64 g t r

/-- No scalar register of thread `t` differs. -/
def SameRegs (s u : State) (g t : Nat) : Prop := ∀ r, u.reg64 g t r = s.reg64 g t r

/-- The 64-bit ALU of Table 4-3 by FUNC, on words. -/
def aluWord (func : Nat) (a b : BitVec 64) : BitVec 64 :=
  match func with
  | 0 => a + b
  | 1 => a - b
  | 2 => a &&& b
  | 3 => a ||| b
  | 4 => a ^^^ b
  | 5 => a <<< (b.toNat % 64)
  | 6 => a >>> (b.toNat % 64)
  | 7 => a.sshiftRight (b.toNat % 64)
  | 8 => a * b
  | 9 => if a.toInt < b.toInt then 1 else 0
  | 10 => if a.toNat < b.toNat then 1 else 0
  | 11 => if a.toInt < b.toInt then a else b
  | _ => if a.toInt < b.toInt then b else a

/-! ### The vector engine -/

/-- The instruction at the head of core `g`'s VXE queue is `e`, a legal one (R111, R115), and the engine may take it. -/
structure VexIssues (s : State) (g : Nat) (e : VEntry) : Prop where
  live : s.live g = true
  frozen : s.fget (F.VXE_STAT_FROZEN g) = 0
  head : (s.core g).vq.head? = some e
  legal : vLegal e.word = true
  wait : s.vxeMustWait g e = false
  clean : s.clean
  upset : (s.core g).vxeUpset = []

/-- The elements of an instruction: SN gives the count less one (R113). -/
def VEntry.count (e : VEntry) : Nat := e.sn % 65536 + 1

/-- Source A of an instruction, from a stream or a galley (ASRC): the state after its generation check, its codes and
its stream, if it is one. None where the operand is illegal or the engine must wait. -/
def State.vexSource (s : State) (g : Nat) (e : VEntry) (f : Fmt) : Option (State × List Nat × Option Strm) :=
  match s.vxeSrcA g e f e.count with
  | (v, some (a, x), _) => some (v, a, x)
  | _ => none

/-- The codes of an optional source stream. -/
def State.streamCodes (s : State) (f : Fmt) (n : Nat) (x : Option Strm) : List Nat :=
  match x with
  | some y => f.unpack n (s.bytes y.addr y.len)
  | none => []

/-- Source B of an instruction: a stream, or one scalar for every element (BSEL). -/
def State.srcB (s : State) (g : Nat) (e : VEntry) (f : Fmt) : List Nat :=
  if vBsel e.word = 0 then s.streamCodes f e.count (s.strm g e.sb (f.bytes e.count) false)
  else List.replicate e.count (e.sb % 2 ^ f.width)

/-- Every stream that an elementwise instruction `e` of format `f` names is a legal operand, and its destination `d`
overlaps no source in a way that R129 forbids; `sa` is the stream of source A, if it is one. -/
structure StreamsOk (s : State) (g : Nat) (e : VEntry) (f : Fmt) (sa : Option Strm) (d : Strm) : Prop where
  dst : s.strm g e.sd (f.bytes e.count) true = some d
  plain : d.sumk = 0
  b : vBsel e.word = 0 → ∃ y, s.strm g e.sb (f.bytes e.count) false = some y ∧ overlapOk d y f.width f.width = true
  m : vOp e.word = 0x24 → ∃ y, s.strm g e.sx (f.bytes e.count) false = some y ∧ overlapOk d y f.width f.width = true
  a : ∀ y, sa = some y → overlapOk d y f.width f.width = true

/-- The elementwise operations with their OP codes (Table 4-7). -/
def elementwise : List ((CoreId → Instr) × Nat) :=
  [(.addV, 0x01), (.subV, 0x02), (.mulV, 0x03), (.fma, 0x04), (.maxV, 0x05), (.minV, 0x06), (.absV, 0x07), (.negV, 0x08),
   (.shl, 0x10), (.sra, 0x11), (.srl, 0x12), (.shrr, 0x13), (.andV, 0x18), (.orV, 0x19), (.xorV, 0x1A),
   (.cmpeq, 0x20), (.cmpne, 0x21), (.cmplt, 0x22), (.cmple, 0x23), (.sel, 0x24)]

/-- The function units with their OP codes (Table 4-8). -/
def functionUnits : List ((CoreId → Instr) × Nat) :=
  [(.exp2, 0x40), (.log2, 0x41), (.rcp, 0x42), (.rsqrt, 0x43), (.sqrt, 0x44), (.tanh, 0x45), (.sigm, 0x46), (.erf, 0x47)]

/-- The reductions with their OP codes (R118). -/
def reductions : List ((CoreId → Instr) × Nat) :=
  [(.sum, 0x30), (.sumsq, 0x31), (.rmax, 0x32), (.rmin, 0x33), (.amax, 0x34)]

/-- Element `i` of an elementwise instruction, from the codes of its sources and, for FMA, its old destination. -/
def State.elementOf (s : State) (g : Nat) (e : VEntry) (f : Fmt) (i x y old m : Nat) : Nat :=
  let w := e.word
  let mode := (Round.ofBits (vRnd w)).getD .rne
  let r := if mode = .sr then s.vxeRand g e i else 0
  if f = .fp32 then fpOp (vOp w) (vSat w) mode r x y old m else intOp (vOp w) f (vSat w) mode r x y m

/-! ### The matrix engine -/

/-- The instruction `e` at the head of core `g`'s XFE→MXE galley may reach the MXE (R75) and is legal by itself (R76). -/
structure MxeTakes (s : State) (g : Nat) (e : MEntry) : Prop where
  live : s.live g = true
  frozen : (s.core g).mxeFrozen = false
  head : s.mxeHead g = some e
  legal : mLegal e.word = true
  clean : s.clean

/-- The group of core `g` with identifier `a`. -/
def State.group (s : State) (g a : Nat) : Option Group := (s.core g).groups.find? fun x => x.id == a

/-! ### The transfer engine -/

/-- Core `g` runs for context `c` and its transfer engine has nothing under way: no active descriptor, no held request
and no chain member waiting, and neither the context's streams nor an ended request waits for the engine. -/
structure XferIdle (s : State) (g c : Nat) : Prop where
  occupant : s.occupant g = some c
  act : (s.core g).act = []
  slots : (s.core g).slots = []
  waits : (s.core g).waits = []
  chain : (s.core g).chainWait = []
  streams : (s.ctx c).streams = []
  ended : s.ended = []

/-- The same, but chain members may wait. -/
structure XferQuiet (s : State) (g c : Nat) : Prop where
  occupant : s.occupant g = some c
  act : (s.core g).act = []
  slots : (s.core g).slots = []
  waits : (s.core g).waits = []
  streams : (s.ctx c).streams = []
  ended : s.ended = []

/-- Descriptor `a` is the only one that core `g` works on for context `c`, and all its data has moved: no request is
left to issue or to land. It ends no chain and marks no region. -/
structure XferDone (s : State) (g c : Nat) (a : Active) : Prop where
  occupant : s.occupant g = some c
  act : (s.core g).act = [a]
  slots : (s.core g).slots = []
  waits : (s.core g).waits = []
  chain : (s.core g).chainWait = []
  streams : (s.ctx c).streams = []
  ended : s.ended = []
  good : a.failed = false
  first : a.refetch = false
  moved : a.rows ≤ a.row
  galley : a.gq = 0
  link : dField a.d.words 0 27 26 = 0
  region : dField a.d.words 7 61 52 = 0

/-! ### Events, registers and commands in hand -/

/-- The saturating counter field `f` has been raised by one. -/
def Bumped (s u : State) (f : Fld) : Prop := u.fget f = satAdd (2 ^ (f.hi - f.lo + 1) - 1) (s.fget f) 1

/-- What an event record says (Table 13-9): its code, its context, its unit and its data. -/
def Event.says (e : Event) : Nat × Option Nat × Nat × List Nat := (e.code, e.ctx, e.unit, e.data)

/-- The event queue of `u` is that of `s`, followed by records that say `l`. -/
def Raises (s u : State) (l : List (Nat × Option Nat × Nat × List Nat)) : Prop :=
  u.evq.map Event.says = s.evq.map Event.says ++ l

/-- The event queue has room for `n` more records (R25). -/
def State.eventRoom (s : State) (n : Nat) : Prop := s.evq.length + s.evFlying + n ≤ 4096

/-- No control-space register differs but those at the offsets `l`. -/
def SameRegsBut (s u : State) (l : List Nat) : Prop := ∀ o, o ∉ l → u.rget o = s.rget o

/-- Nothing differs but control-space registers and the event queue with what records it. -/
def OnlyRegsEvents (s u : State) : Prop :=
  u = { s with regs := u.regs, evq := u.evq, evSeq := u.evSeq, evLog := u.evLog, lastEvent := u.lastEvent }

/-- Memory, the cores, the dies and the contexts are as they were. -/
def SameCompute (s u : State) : Prop := u.mem = s.mem ∧ u.cores = s.cores ∧ u.dies = s.dies ∧ u.ctxs = s.ctxs

/-- Command `k` of ring `r` of context `c`, with operation `opc`, has been taken and acts (R209): the management plane is
up (R26), no transient state holds it (R210), and the context's state accepts it (Table 7-2). -/
structure CommandActs (s : State) (c r opc : Nat) (k : Cmd) : Prop where
  cur : (s.ring c r).cur = some k
  op : k.opc = opc
  stage : k.stage = .taken
  up : s.fget F.MGT_PLANE_STAT_MGMT_DOWN = 0
  state : opc = 8 ∨ opc = 10 ∨ transientState (s.ctxState c) = false
  accepted : acceptedIn opc (s.ctxState c) (s.fget (F.CTX_STAT_IMAGE c) == 1) = true

/-- Command `k` of ring `r` completes: the ring has no command in hand, and the completion record (Table 13-7) joins the
context's backlog. -/
def Completes (s u : State) (c r : Nat) (k : Cmd) (status detail value : Nat) : Prop :=
  (u.ring c r).cur = none
    ∧ (u.ctx c).backlog = (s.ctx c).backlog ++ [⟨1, k.opc, r, status, k.tag, 0, detail, 0, s.tick, value⟩]

/-- Command `k` of ring `r` is under way: it completes later. -/
def UnderWay (s u : State) (c r : Nat) (k : Cmd) : Prop :=
  (u.ring c r).cur = some { k with stage := .active, since := s.timeUs }

/-- No core is context `c`'s. -/
def NoCores (u : State) (c : Nat) : Prop := ∀ g : CoreId, u.occupant g ≠ some c

/-- Every context but `c` is FREE and has nothing pending at a tick; with `c` above 7, every context. -/
def OnlyContext (s : State) (c : Nat) : Prop :=
  ∀ d : CtxId, d.val ≠ c → s.ctxState d = ctxFree ∧ (s.ctx d).faultStop = false

/-! ### Cells -/

/-- A data cell at the front of port `p` passes R250: its source is a VALID peer, its flow needs no RESYNC that it lacks,
its check value holds for landing address `land` and the SEQ expected, its epoch is this module's, and it holds no reserved
encoding (R11). -/
structure DataPasses (s : State) (c : Cell) (raw : List Byte) (land : Nat) : Prop where
  peer : s.peerValid c.src = true
  flow : c.resync = true ∨ (s.rxFlow c.src c.tc).resync = false
  check : checkPasses (foldOf (s.fget F.FAB_SELF_FAB) land (if c.resync then c.seq else (s.rxFlow c.src c.tc).seq)) raw = true
  epoch : foldOf (s.fget F.FAB_SELF_FAB) land (if c.resync then c.seq else (s.rxFlow c.src c.tc).seq) ^^^ leAt raw 276 4
    = s.rget R.FAB_MEMB_EPOCH
  ok : c.ok = true

/-- A control cell at the front of a port passes R250 and holds no reserved encoding (R11). -/
def ControlPasses (s : State) (raw : List Byte) : Prop :=
  checkPasses (foldOf (s.fget F.FAB_SELF_FAB) 0 0) raw = true ∧ leAt raw 276 4 = foldOf (s.fget F.FAB_SELF_FAB) 0 0
    ∧ (Cell.parse raw).ok = true

/-- Bytes may be landed at [a, a+n) without an upset, and no sum block of the OC stands there (R74). -/
def LandsClean (s : State) (a : Nat) : Prop := s.clean ∧ s.memOk ∧ ∀ g, place a = .oc g → (s.core g).sums = []

/-- The bytes at [a, a+n) are `l`, and every other byte is as before. -/
def Stored (s u : State) (a : Nat) (l : List Byte) : Prop :=
  u.bytes a l.length = l ∧ ∀ b, b < a ∨ a + l.length ≤ b → u.byte b = s.byte b

/-! ### Detectors -/

/-- No migrating context has a stopped background task, which would go on where the migration fails (R230, R341). -/
def State.noneResumes (s : State) : Prop :=
  ∀ c : CtxId, s.ctxState c = ctxMigrating → ∀ t ∈ (s.coll c).tasks, t.kind = .migrate

/-- The firmware runs, no reset and no capture is under way, a colophon slot is free, no request has just ended and no
task resumes: a detector that fires begins a capture (R361, R371). -/
structure MayDetect (s : State) : Prop where
  up : s.running = true
  running : s.rst.running = []
  capture : s.rst.capture = none
  slot : s.captureSlot.isSome = true
  ended : s.ended = []
  room : s.eventRoom 1
  tasks : s.noneResumes

/-- Detector `det` has fired on `unit`: its bit and event 0x0901 are set, and a capture that waits to apply `act` has
begun (R361, R371). -/
def Fires (u : State) (det unit : Nat) (act : ResetAct) : Prop :=
  bit (u.fget F.MGT_HANG_STAT_DET) (det - 1) = true ∧ (∃ e ∈ u.evq, e.says = (0x0901, none, unit, [det]))
    ∧ u.fget F.MGT_RST_STAT_RSTATE = 1
    ∧ ∃ k, u.rst.capture = some k ∧ k.act = act ∧ k.record.detectors = 2 ^ det ∧ k.since = u.timeUs

/-! ### Collectives -/

/-- Bucket `k` of context `c` is the first that an operation may serve, its layout is `l`, a ring's (R272), and its
segment `w`, of one block, begins here: it is this member's to encode in direction `dir`, its slot has started, and the
next member can be reached. Nothing has an upset. -/
structure SegmentBegins (s : State) (c : Nat) (k : Bucket) (l : Lay) (w : SegWork) (dir : Nat) : Prop where
  serving : (s.serving c k.idx).head? = some k
  entry : s.bucket? c k.idx k.iepoch = some k
  lay : s.lay c k.idx k.iepoch = some l
  ring : l.d.kind ≠ 3
  started : s.slotStarted c k.idx 0 dir [0] (k.iepoch != s.curEpoch c) = true
  work : k.work.find? (fun w => w.dir == dir && !w.reduced && l.hop w.seg dir == 0) = some w
  block : (l.span w.seg dir).2 = 1
  empty : w.pack = []
  part : w.whole = false
  next : l.dist w.seg dir ≠ 0
  peer : s.peerValid (l.fab (l.next dir)) = true
  port : (s.portFor (l.fab (l.next dir)) 4).isSome = true
  clean : s.clean
  ended : s.ended = []

/-! ### What is sent -/

/-- Nothing differs but what has been sent: `l` has, by channel `c`, unit `n`. -/
def Sends (s u : State) (c : Chan) (n : Nat) (l : List Byte) : Prop := u = { s with out := s.out ++ [⟨c, n, l⟩] }

/-- Nothing but the host port's own state, the event queue and registers differs, and what is sent joins the record. -/
def SameButHost (s u : State) : Prop :=
  u = { s with hpt := u.hpt, out := u.out, regs := u.regs, evq := u.evq, evSeq := u.evSeq, evLog := u.evLog,
               lastEvent := u.lastEvent, free := u.free }

/-- What the host port sends on priority `p` leaves at once: no pause holds it, and nothing of the priority waits (R379). -/
def State.prioFree (s : State) (p : Nat) : Prop := s.pausedAt p = false ∧ ∀ x ∈ s.hpt.held, x.1 ≠ p

/-- A request over queue pair `n` with PSN `p` is in sequence: the pair `q` is connected, it and its plane are up and its packets
leave at once, and the packet passes the port's filters (R379) with no congestion mark. -/
structure InSequence (s : State) (n p : Nat) (q : HostQp) (h : FrameHead) : Prop where
  pair : s.qp? n = some q
  live : q.err = false
  up : s.hostUp = true
  running : s.running = true
  psn : p = q.hostPsn
  plane : s.planeUp q.kind = true
  frame : s.frameIn true h = true
  free : s.prioFree (s.qpPrio q)
  mark : h.ce = false
  ended : s.ended = []

/-- An answer `l` to `x` is sent in the packets of R438 by MCTP channel `c`, followed by the in-band interrupt where interrupts
are enabled (R437), and nothing else differs. -/
def Answers (s u : State) (c : Chan) (x : MctpHead) (l : List Byte) : Prop :=
  u = { s with out := s.out ++ (mctpPkts s.side.eid x l).map (⟨c, 0, ·⟩)
    ++ if s.side.ibi = true then [⟨.i3c, 1, leBytes 1 2⟩] else [] }

/-- The request `m` of `n` with code `code` reaches the SPDM responder of transport `t`, whose negotiation stands at `p`. -/
structure SpdmAsks (s : State) (t : Nat) (n : SpdmPeer) (m : List Byte) (code : Nat) (p : Spdm) : Prop where
  asks : leAt m 1 1 = code
  long : 4 ≤ m.length
  short : m.length ≤ 4096
  up : s.spdmUp t n = true
  version : code = 0x84 ∨ leAt m 0 1 = 0x12
  state : s.spdm t = p
  two : s.sec.spdm.length = 2

/-- The responder of transport `t` answers requester `n` with `r`, its negotiation then standing at `p`; nothing else
differs but free values used. -/
def SpdmAnswers (s u : State) (t : Nat) (n : SpdmPeer) (r : List Byte) (p : Spdm) : Prop :=
  u.spdm t = p ∧ u = { s.answerSpdm t n r with sec := { s.sec with spdm := u.sec.spdm }, free := u.free }

/-! ### Cells and units -/

/-- A cell whose fields have the widths of Table 8-3, its payload 256 bytes of which those beyond VALID are 0 (R244). -/
structure Cell.Fits (c : Cell) : Prop where
  type : c.type < 16
  tc : c.tc < 8
  dst : c.dst < 2 ^ 24
  src : c.src < 2 ^ 24
  seq : c.seq < 2 ^ 24
  ctx : c.ctx < 8
  valid : c.valid < 4
  addr : c.addr < 2 ^ 42
  payload : c.payload.length = 256
  rest : ∀ b ∈ c.payload.drop (64 * (c.valid + 1)), b = 0

/-- A BS8 block that Table 2-6 can carry: 64 values of 8 bits, or of 16 with ESCAPE, zeros where it is poisoned. -/
structure Block.Fits (b : Block) : Prop where
  exp : 1 ≤ b.exp ∧ b.exp ≤ 254
  count : b.vals.length = 64
  poison : b.poison = true → b.vals = List.replicate 64 0
  range : ∀ v ∈ b.vals, if b.escape = true then -32768 ≤ v ∧ v < 32768 else -128 ≤ v ∧ v < 128

/-- A unit whose fields have the widths of Table 9-6; only the last unit of a segment carries a trailer, and a MISSING
unit carries no block. -/
structure RUnit.Fits (u : RUnit) : Prop where
  tag : u.tag < 2 ^ 64
  first : u.first < 2 ^ 16
  hop : u.hop < 4096
  n : u.n ≤ 30
  flags : u.uflags < 16
  trailer : u.last = false → u.tr = Trailer.zero
  widths : u.tr.flags < 64 ∧ u.tr.origin < 2 ^ 16 ∧ u.tr.slackRank < 2 ^ 16 ∧ u.tr.slack < 2 ^ 16 ∧ u.tr.ssLocal < 2 ^ 32
    ∧ u.tr.ssRed < 2 ^ 32
  needs : u.obs.length = u.n ∧ ∀ x ∈ u.obs, x < 256
  blocks : u.blocks.length = if u.missing = true then 0 else u.n
  fit : ∀ b ∈ u.blocks, b.Fits
  gap : u.missing = true → ∀ x ∈ u.obs, x = 0
  some_ : u.n ≠ 0 ∨ u.last = true ∨ u.missing = true

end Sys2Proof.Machine
end

