-- ==== Sys2Proof/WellFormed.lean ====
section
/-!
DEFINITION. Which commands can occur: the values that come from outside have the sizes that their carriers give them
(a link frame is 288 bytes, R239 to R244; an RDMA payload fits the largest path MTU, R385; an address has the length of
its family; a sample has one value per sensor, Table 15-1). `exec` is total and does not rest on these checks.
-/

namespace Sys2Proof

/-- Every value of a list fits `n` bits. -/
def fits (n : Nat) (l : List Nat) : Bool := l.all fun x => decide (x < 2 ^ n)

/-- The size checks on the values that a command carries. -/
def Instr.wellFormed : Instr → Bool
  | .linkFrame _ frame _ _ => frame.length == 288
  | .rdmaWrite _ _ _ _ data _ => decide (data.length ≤ 4096)
  | .rdmaReadResponse _ data _ => decide (data.length ≤ 4096)
  | .sendMsg _ _ len _ => decide (len ≤ 4096)
  | .connect src _ => src.addr.length == 16 || src.addr.length == 4
  | .pfcFrame _ quanta => quanta.length == 8 && fits 16 quanta
  | .arp smac sip tip => smac.length == 6 && sip.length == 4 && tip.val.length == 4
  | .neighborDiscovery src target => src.length == 16 && target.val.length == 16
  | .icmpEcho src dst _ => src.length == 4 && dst.length == 4
  | .icmpv6Echo src dst _ => src.length == 16 && dst.length == 16
  | .moduleReady absent mhz => mhz.length == 4 && fits 16 mhz && absent.all fun x => decide (x < 256)
  | .warmRecoveryDone absent mhz => mhz.length == 4 && fits 16 mhz && absent.all fun x => decide (x < 256)
  | .tftpData n _ => decide (n < 2 ^ 16)
  | .thermalSample tj edge stk => tj.length == 4 && edge.length == 2 && stk.length == 12
  | .floorPowerExceeded _ rail => rail.length == 4
  | _ => true

end Sys2Proof
end

