-- ==== Sys2Proof/Certificates/Slice0/Obligations.lean ====
section
/-!
DEFINITION. The statements about the KW8: each is a proposition for the provers. They are grouped by the chapters of
spec/, and each completion statement says that `exec` answers a next state and what that state holds.
-/

open Sys2Proof Sys2Proof.Machine

/-! ### The queue of commands -/

/-- A step takes the command at the front of the queue and answers what `exec` answers for it on the state with the
queue's rest. On an empty queue a step lets a microsecond pass and answers a next state in which no register, no memory
byte and no context differs, and what waited at the host port for a pause that is over by then has gone out (the model's
own choice, assumption 1). -/
def Obligations.StepRunsFrontCommand : Prop :=
  (∀ (i : Instr) (r : List Instr) (s : State), step { s with pending := i :: r } = exec i { s with pending := r })
  ∧ ∀ s : State, s.pending = [] → ∃ t, step s = .next t ∧ t.timeUs = s.timeUs + 1 ∧ t.regs = s.regs ∧ t.mem = s.mem
    ∧ t.ctxs = s.ctxs ∧ t.evq = s.evq ∧ t.pending = []
    ∧ t.out = s.out ++ (s.hpt.held.filter fun x => decide (s.hpt.paused.getD x.1 0 ≤ s.timeUs + 1)).map (·.2)

/-! ### The control core (spec/04) -/

/-- R104, R110, Table 4-3: ALU computes the 64-bit function that FUNC selects, ADDI adds the sign-extended immediate,
ORSH shifts left by 16 and ORs the zero-extended immediate; each goes to the next word and changes no other register,
core, memory byte or control-space register. -/
def Obligations.ScalarArithmeticResults : Prop :=
  ∀ (g : CoreId) (s : State) (t w p : Nat), CtcIssues s g t w p →
    let done := fun (i : Instr) (v : BitVec 64) => ∃ u, exec i s = .next u ∧ u.reg64 g t (wSd w) = v
      ∧ (u.thread g t).pc = (s.thread g t).pc + 4 ∧ OnlyReg s u g t (wSd w) ∧ OnlyCore s u g
    (wOpc w = 1 → done (.alu g) (aluWord (wFunc w) (s.reg64 g t (wSa w)) (s.reg64 g t (wSb w))))
    ∧ (wOpc w = 2 → done (.addi g) (s.reg64 g t (wSa w) + (BitVec.ofNat 16 w).signExtend 64))
    ∧ (wOpc w = 3 → done (.orsh g) (s.reg64 g t (wSa w) <<< 16 ||| (BitVec.ofNat 16 w).zeroExtend 64))

/-- R110, R134: LD reads the 64-bit little-endian word at the 8-byte aligned local-store offset SA + IMM16 × 8, ST writes
it there; nothing else differs but the issuing thread's program counter. -/
def Obligations.ScalarLoadAndStore : Prop :=
  ∀ (g : CoreId) (s : State) (t w p : Nat), CtcIssues s g t w p → s.memOk → s.ldOff g t w % 8 = 0 →
    s.lsOk g (s.ldOff g t w) 8 = true →
    (wOpc w = 4 → ∃ u, exec (.ld g) s = .next u
      ∧ u.reg64 g t (wSd w) = BitVec.ofNat 64 (s.le (lsBase g + s.ldOff g t w) 8)
      ∧ (u.thread g t).pc = (s.thread g t).pc + 4 ∧ OnlyReg s u g t (wSd w) ∧ OnlyCore s u g)
    ∧ (wOpc w = 5 → ∃ u, exec (.st g) s = .next u
      ∧ u.le (lsBase g + s.ldOff g t w) 8 = (s.reg64 g t (wSd w)).toNat
      ∧ (∀ a, a < lsBase g + s.ldOff g t w ∨ lsBase g + s.ldOff g t w + 8 ≤ a → u.byte a = s.byte a)
      ∧ (u.thread g t).pc = (s.thread g t).pc + 4 ∧ SameRegs s u g t ∧ OnlyCoreMem s u g)

/-- R110: a taken branch goes to its own word's offset plus OFFS16 words, one not taken to the next word; JMPR goes to
SA + IMM16 × 4 and leaves the offset of the next word in SD. -/
def Obligations.ScalarBranches : Prop :=
  ∀ (g : CoreId) (s : State) (t w p : Nat), CtcIssues s g t w p →
    let pc := (s.thread g t).pc
    let a := s.reg64 g t (wSd w)
    let b := s.reg64 g t (wSa w)
    let goes := fun (i : Instr) (taken : Bool) => ∃ u, exec i s = .next u ∧ SameRegs s u g t ∧ OnlyCore s u g
      ∧ (u.thread g t).pc = if taken then wrap 64 ((pc : Int) + 4 * wImm w) else pc + 4
    (wOpc w = 6 → goes (.beq g) (a == b)) ∧ (wOpc w = 7 → goes (.bne g) (a != b))
    ∧ (wOpc w = 8 → goes (.blt g) (a.slt b))
    ∧ (wOpc w = 9 → wrap 64 (b.toNat + 4 * wImm w) % 4 = 0 → ∃ u, exec (.jmpr g) s = .next u
        ∧ u.reg64 g t (wSd w) = BitVec.ofNat 64 (pc + 4) ∧ (u.thread g t).pc = wrap 64 (b.toNat + 4 * wImm w)
        ∧ OnlyReg s u g t (wSd w) ∧ OnlyCore s u g)

/-- R110, R152, R153: on a quoin the context owns, QADD adds the sign-extended immediate modulo 2^32, QREAD reads the
counter, and QWAIT goes on when the counter is at least SB[31:0] and waits in WAIT_Q otherwise; the null quoin reads 0
and keeps nothing. GPEEK reads the head of the MXE→VXE galley without removing it, or waits in WAIT_PEEK. -/
def Obligations.ScalarQuoinOperations : Prop :=
  ∀ (g : CoreId) (s : State) (t w p : Nat), CtcIssues s g t w p →
    let q := (s.reg64 g t (wSa w)).toNat % 1024
    let v := (s.reg64 g t (wSb w)).toNat % 2 ^ 32
    (wOpc w = 10 → s.quoinOwned g q = true → ∃ u, exec (.qadd g) s = .next u
      ∧ u.quoin g q = (if q = 0 then 0 else wrap 32 ((s.quoin g q : Int) + wImm w)) ∧ u.mem = s.mem ∧ u.regs = s.regs
      ∧ (u.thread g t).pc = (s.thread g t).pc + 4)
    ∧ (wOpc w = 11 → s.quoinOwned g q = true → ∃ u, exec (.qwait g) s = .next u ∧ OnlyCore s u g
      ∧ (u.thread g t).st = (if v ≤ s.quoin g q then ThrSt.run else ThrSt.waitQ) ∧ u.quoin g q = s.quoin g q
      ∧ (u.thread g t).pc = (s.thread g t).pc + 4)
    ∧ (wOpc w = 12 → s.quoinOwned g q = true → ∃ u, exec (.qread g) s = .next u
      ∧ u.reg64 g t (wSd w) = BitVec.ofNat 64 (s.quoin g q) ∧ OnlyReg s u g t (wSd w) ∧ OnlyCore s u g)
    ∧ (wOpc w = 13 → ∃ u, exec (.gpeek g) s = .next u ∧ OnlyCore s u g ∧ (u.core g).mv = (s.core g).mv
      ∧ (match (s.core g).mv with
         | [] => (u.thread g t).st = ThrSt.waitPeek
         | e :: _ => (u.thread g t).st = ThrSt.run ∧ u.reg64 g t (wSd w) = BitVec.ofNat 64 e))

/-- R75, R109, R111, R113, R155, R106, R110: ISSUE puts the instruction of its payload at the end of the unit's queue
with the issuing thread (for the VXE with the scalars it names, for the XFE the descriptor's eight words); ENDI ends the
thread; FENCE lets it go on at once when nothing it issued is outstanding. -/
def Obligations.IssueEndAndFence : Prop :=
  ∀ (g : CoreId) (s : State) (t w p : Nat), CtcIssues s g t w p →
    let pc := (s.thread g t).pc + 4 + 4 * payloadLen w
    let o := (s.reg64 g t p).toNat
    (wOpc w = 14 → wUnit w = 0 → ∃ u e, exec (.issueMxe g) s = .next u ∧ (u.core g).xm = (s.core g).xm ++ [e]
      ∧ e.word = p ∧ e.thread = t ∧ (u.thread g t).pc = pc ∧ OnlyCore s u g)
    ∧ (wOpc w = 14 → wUnit w = 1 → ∃ u, exec (.issueVxe g) s = .next u
      ∧ (u.core g).vq = (s.core g).vq ++ [⟨p, t, (s.reg64 g t (bits p 35 31)).toNat, (s.reg64 g t (bits p 30 26)).toNat,
          (s.reg64 g t (bits p 25 21)).toNat, (s.reg64 g t (bits p 20 16)).toNat, (s.reg64 g t (bits p 15 11)).toNat⟩]
      ∧ (u.thread g t).pc = pc ∧ OnlyCore s u g)
    ∧ (wOpc w = 14 → wUnit w = 2 → p < 32 → o % 64 = 0 → o + 64 ≤ 0x400000 → s.lsOk g o 64 = true →
        descLegal g (s.descWords g o) = true → (descQuoins (s.descWords g o)).all (s.quoinOwned g) = true →
        ∃ u d, exec (.issueXfe g) s = .next u ∧ (u.core g).xq = (s.core g).xq ++ [d] ∧ d.words = s.descWords g o
          ∧ d.thread = t ∧ d.addr = o ∧ (u.thread g t).pc = pc ∧ OnlyCore s u g)
    ∧ (wOpc w = 15 → ∃ u, exec (.endi g) s = .next u ∧ (u.thread g t).st = ThrSt.ended ∧ SameRegs s u g t ∧ OnlyCore s u g)
    ∧ (wOpc w = 16 → s.outstanding g t = false → ∃ u, exec (.fence g) s = .next u ∧ (u.thread g t).st = ThrSt.run
        ∧ (u.thread g t).pc = pc ∧ SameRegs s u g t ∧ OnlyCore s u g)

/-- R134, R217: a word that is illegal by itself (R110) of a core of a RUNNING context raises event 0x0205 and then the
context fault's 0x0421, freezes every thread of every core of the context, and records the fault in CTX_FAULTn. That every
CTC command does so, whichever instruction it names, is the model's choice (assumption 13). -/
def Obligations.IllegalWordFaultsContext : Prop :=
  ∀ (g : CoreId) (s : State) (t w p c : Nat) (i : Instr), s.live g = true → s.occupant g = some c → s.ctxState c = ctxRunning →
    s.ctcPick g = some t → s.ctcFetch g (s.thread g t).pc = some (w, p) → ctcLegal w = false → s.eventRoom 2 →
    i ∈ [Instr.alu g, .addi g, .orsh g, .ld g, .st g, .beq g, .bne g, .blt g, .jmpr g, .qadd g, .qwait g, .qread g,
      .gpeek g, .issueMxe g, .issueVxe g, .issueXfe g, .endi g, .fence g] →
    ∃ u, exec i s = .next u ∧ u.evq.map (·.code) = s.evq.map (·.code) ++ [0x0205, 0x0421] ∧ u.mem = s.mem
      ∧ (∀ h : CoreId, s.occupant h = some c → ∀ x ∈ (u.core h).thr, x.st = .frozen) ∧ u.fget (F.CTX_FAULT_VALID c) = 1
      ∧ u.fget (F.CTX_FAULT_CORE c) = g ∧ u.fget (F.CTX_FAULT_EVENT c) = 0x0205 ∧ (u.ctx c).faultStop = true

/-! ### The vector engine (spec/04) -/

/-- R112, R115 to R117, Table 4-7: each elementwise operation writes, for every element, the result of its row of the
table at the destination stream, and the instruction leaves the queue. No other byte differs where no sum block stands
over the destination. -/
def Obligations.VectorElementwiseResults : Prop :=
  ∀ q ∈ elementwise, ∀ (g : CoreId) (s v : State) (e : VEntry) (f : Fmt) (a : List Nat) (sa : Option Strm) (d : Strm),
    VexIssues s g e → s.memOk → vOp e.word = q.2 → Fmt.ofCode (vFmtS e.word) = some f → Fmt.ofCode (vFmtD e.word) = some f →
    s.vexSource g e f = some (v, a, sa) → StreamsOk v g e f sa d → (v.core g).sums = [] →
    let b := v.srcB g e f
    let old := v.streamCodes f e.count (some d)
    let m := v.streamCodes f e.count (v.strm g e.sx (f.bytes e.count) false)
    ∃ u, exec (q.1 g) s = .next u
      ∧ u.bytes d.addr d.len = f.pack ((List.range e.count).map fun i =>
          v.elementOf g e f i (a.getD i 0) (b.getD i 0) (if q.2 = 4 then old.getD i 0 else 0)
            (if q.2 = 0x24 then m.getD i 0 else 0))
      ∧ (∀ x, x < d.addr ∨ d.addr + d.len ≤ x → u.byte x = s.byte x)
      ∧ (u.core g).vq = (s.core g).vq.tail ∧ OnlyCoreMem s u g

/-- R116, R118: what the integer rows of Table 4-7 compute on two's complement values x and y of W bits: with SAT the exact
sum, difference or product clamped to ±(2^(W-1) - 1), without it the same modulo 2^W; a right shift rounds toward minus
infinity; a comparison gives all ones or 0. An integer SUM is the exact sum of the elements' values modulo 2^64, RMAX and
RMIN are the largest and the smallest value, AMAX the largest magnitude. -/
def Obligations.IntegerElementResults : Prop :=
  (∀ (f : Fmt) (mode : Round) (r a b m : Nat), f ∈ [Fmt.int8, Fmt.int16, Fmt.int32] → a < 2 ^ f.width → b < 2 ^ f.width →
    let x := sext f.width a
    let y := sext f.width b
    let lim : Int := 2 ^ (f.width - 1) - 1
    let clamp := fun v : Int => max (-lim) (min lim v)
    let val := fun op sat => sext f.width (intOp op f sat mode r a b m)
    val 1 true = clamp (x + y) ∧ val 2 true = clamp (x - y) ∧ val 3 true = clamp (x * y)
    ∧ val 8 true = clamp (-x) ∧ val 7 true = clamp |x|
    ∧ (intOp 1 f false mode r a b m : Int) = (x + y) % 2 ^ f.width
    ∧ (intOp 2 f false mode r a b m : Int) = (x - y) % 2 ^ f.width
    ∧ (intOp 3 f false mode r a b m : Int) = (x * y) % 2 ^ f.width
    ∧ val 5 false = max x y ∧ val 6 false = min x y
    ∧ (0 ≤ y → y < f.width → val 0x11 false = x / 2 ^ y.toNat)
    ∧ val 0x22 false = (if x < y then -1 else 0) ∧ val 0x23 false = (if x ≤ y then -1 else 0))
  ∧ (∀ (f : Fmt) (sat : Bool) (a : Nat) (l : List Nat), f ∈ [Fmt.int8, Fmt.int16, Fmt.int32] →
    let v := (a :: l).map (sext f.width)
    (reduceOp 0x30 f sat (a :: l) : Int) = v.sum % 2 ^ 64
    ∧ sext 64 (reduceOp 0x32 f sat (a :: l)) = v.tail.foldl max (v.headD 0)
    ∧ sext 64 (reduceOp 0x33 f sat (a :: l)) = v.tail.foldl min (v.headD 0)
    ∧ sext 64 (reduceOp 0x34 f sat (a :: l)) = (v.map abs).foldl max 0)

/-- R119, Table 4-8: each function unit writes its value of every element at the destination stream, and the instruction
leaves the queue. -/
def Obligations.VectorFunctionResults : Prop :=
  ∀ q ∈ functionUnits, ∀ (g : CoreId) (s v : State) (e : VEntry) (a : List Nat) (sa : Option Strm) (d : Strm),
    VexIssues s g e → s.memOk → vOp e.word = q.2 → s.vexSource g e .fp32 = some (v, a, sa) → StreamsOk v g e .fp32 sa d →
    (v.core g).sums = [] →
    ∃ u, exec (q.1 g) s = .next u
      ∧ u.bytes d.addr d.len = Fmt.fp32.pack ((List.range e.count).map fun i => fpFunc q.2 (vSat e.word) (a.getD i 0))
      ∧ (∀ x, x < d.addr ∨ d.addr + d.len ≤ x → u.byte x = s.byte x)
      ∧ (u.core g).vq = (s.core g).vq.tail ∧ OnlyCoreMem s u g

/-- R119: what Table 4-8 fixes of the function units whatever the free values are: every special input of the table, and
SQRT as the RNE rounding of the square root. -/
def Obligations.FunctionUnitSpecials : Prop :=
  ∀ (sat : Bool), (∀ q ∈ functionUnits, ∀ x, fpFP32.decode x = .nan → fpFunc q.2 sat x = 0x7FC00000)
    ∧ fpFunc 0x40 sat 0x7F800000 = 0x7F800000 ∧ fpFunc 0x40 sat 0xFF800000 = 0
    ∧ (∀ x, 0x43000000 ≤ x → x < 0x7F800000 → fpFunc 0x40 sat x = if sat = true then 0x7F7FFFFF else 0x7F800000)
    ∧ (∀ op ∈ [0x41, 0x43, 0x44], ∀ x, 0x80000000 < x → x ≤ 0xFF800000 → fpFunc op sat x = 0x7FC00000)
    ∧ fpFunc 0x41 sat 0x7F800000 = 0x7F800000 ∧ fpFunc 0x41 sat 0 = 0xFF800000 ∧ fpFunc 0x41 sat 0x80000000 = 0xFF800000
    ∧ fpFunc 0x42 sat 0 = 0x7F800000 ∧ fpFunc 0x42 sat 0x80000000 = 0xFF800000
    ∧ fpFunc 0x42 sat 0x7F800000 = 0 ∧ fpFunc 0x42 sat 0xFF800000 = 0x80000000
    ∧ fpFunc 0x43 sat 0 = 0x7F800000 ∧ fpFunc 0x43 sat 0x80000000 = 0xFF800000 ∧ fpFunc 0x43 sat 0x7F800000 = 0
    ∧ fpFunc 0x44 sat 0 = 0 ∧ fpFunc 0x44 sat 0x80000000 = 0x80000000 ∧ fpFunc 0x44 sat 0x7F800000 = 0x7F800000
    ∧ (∀ x, x < 0x7F800000 → fpFunc 0x44 sat x = (fpFP32.round .rne false 0 (fpFP32.decode x).sqrt).code)
    ∧ fpFunc 0x44 sat 0x40800000 = 0x40000000
    ∧ fpFunc 0x45 sat 0x7F800000 = 0x3F800000 ∧ fpFunc 0x45 sat 0xFF800000 = 0xBF800000
    ∧ fpFunc 0x46 sat 0xFF800000 = 0 ∧ fpFunc 0x46 sat 0x7F800000 = 0x3F800000
    ∧ fpFunc 0x47 sat 0x7F800000 = 0x3F800000 ∧ fpFunc 0x47 sat 0xFF800000 = 0xBF800000

/-- R118: a reduction to a scalar register writes its 64-bit result there, and one to memory writes it as
eight little-endian bytes; the instruction leaves the queue. -/
def Obligations.VectorReductionResults : Prop :=
  ∀ q ∈ reductions, ∀ (g : CoreId) (s v : State) (e : VEntry) (f : Fmt) (a : List Nat) (sa : Option Strm),
    VexIssues s g e → s.memOk → vOp e.word = q.2 → Fmt.ofCode (vFmtS e.word) = some f → s.vexSource g e f = some (v, a, sa) →
    (vDsel e.word = 1 → e.thread < (s.core g).thr.length →
        ((s.thread g e.thread).st = .waitPeek → (s.thread g e.thread).arg ≠ bits e.word 25 21) →
        ∃ u, exec (q.1 g) s = .next u ∧ u.mem = s.mem
      ∧ u.reg64 g e.thread (bits e.word 25 21) = BitVec.ofNat 64 (reduceOp q.2 f (vSat e.word) a)
      ∧ (u.core g).vq = (s.core g).vq.tail ∧ OnlyCore s u g)
    ∧ (∀ d, vDsel e.word = 0 → v.strm g e.sd 8 true = some d → d.sumk = 0 →
        (∀ y, sa = some y → overlapOk d y 64 f.width = true) → (v.core g).sums = [] →
        ∃ u, exec (q.1 g) s = .next u ∧ u.le d.addr 8 = reduceOp q.2 f (vSat e.word) a % 2 ^ 64
          ∧ (∀ x, x < d.addr ∨ d.addr + 8 ≤ x → u.byte x = s.byte x)
          ∧ (u.core g).vq = (s.core g).vq.tail ∧ OnlyCoreMem s u g)

/-- R121, R122, R124: CVT writes the converted codes of a stream between two formats with scale records, RSC the rescaled
ones of INT32 accumulators, and MFLUSH sends the counter set to its home die and clears it; each leaves the queue. -/
def Obligations.ConversionsAndMonitorFlush : Prop :=
  (∀ (g : CoreId) (s v : State) (e : VEntry) (fs fd : Fmt) (a : List Nat) (sa : Option Strm) (d : Strm) (rs rd : ScaleRec),
    VexIssues s g e → s.memOk → Fmt.ofCode (vFmtS e.word) = some fs → Fmt.ofCode (vFmtD e.word) = some fd →
    s.vexSource g e fs = some (v, a, sa) → v.vxeScale g (bits e.sx 18 0) fs.code = some rs →
    v.vxeScale g (bits e.sx 37 19) fd.code = some rd → v.strm g e.sd (fd.bytes e.count) true = some d → d.sumk = 0 →
    (∀ y, sa = some y → overlapOk d y fd.width fs.width = true) → (v.core g).sums = [] →
    let w := e.word
    let mode := (Round.ofBits (vRnd w)).getD .rne
    let r := fun i => if mode = .sr then v.vxeRand g e i else 0
    let writes := fun (i : Instr) (code : Nat → Nat) => ∃ u, exec i s = .next u
      ∧ u.bytes d.addr d.len = fd.pack ((List.range e.count).map code)
      ∧ (∀ x, x < d.addr ∨ d.addr + d.len ≤ x → u.byte x = s.byte x) ∧ (u.core g).vq = (s.core g).vq.tail
    (vOp w = 0x60 → writes (.cvt g) fun i => (convert fs fd rs.zp rd.zp (vSh w) mode (vSat w) (r i) (a.getD i 0)).code)
    ∧ (vOp w = 0x61 → vBsel w = 1 → rescaleOk (e.sb % 2 ^ 32) = true →
        writes (.rsc g) fun i => (rescale fd rd.zp mode (r i) (e.sb % 2 ^ 32) (sext 32 (a.getD i 0))).code))
  ∧ (∀ (g : CoreId) (s : State) (e : VEntry) (c : Nat), VexIssues s g e → vOp e.word = 0x70 → s.occupant g = some c →
      (s.monRec c (bits e.sx 9 8) (bits e.sx 5 0)).isSome = true → bits e.sx 63 10 = 0 → bits e.sx 7 6 = 0 →
      ∃ u, exec (.mflush g) s = .next u
        ∧ (u.die (bits e.sx 9 8)).flushes = (s.die (bits e.sx 9 8)).flushes
            ++ [⟨g, e.thread, bits e.sx 5 0, (s.core g).mon.getD (vMc e.word) MonSet.zero⟩]
        ∧ (u.core g).mon = listSet (s.core g).mon (vMc e.word) MonSet.zero
        ∧ (u.core g).vq = (s.core g).vq.tail ∧ u.mem = s.mem ∧ u.regs = s.regs)

/-! ### The matrix engine (spec/03) -/

/-- R457, R76, R78: LDW puts the B block at OPD into bank WB with its sums; OPEN opens a group with zero accumulators in
the lowest free slot; MMA puts the tile of its operands into a work slot. Each leaves the galley. -/
def Obligations.MatrixLoadOpenAndMultiply : Prop :=
  ∀ (g : CoreId) (s : State) (e : MEntry), MxeTakes s g e →
    let w := e.word
    (∀ (f : Fmt) (v : State), mOp w = 1 → Fmt.ofCode (mFmtB w) = some f → sumkFmtOk 2 f = true → f ≠ .uint8 →
        let h := s.sumHead g (mSum w)
        let len := f.bytes ((if h.2.2.2.2 then 256 else 128) * 128)
        s.mxeOperand g w len = (v, true) → h.1 = 2 → h.2.1 = f.code → h.2.2.2.1 = true →
        (h.2.2.2.2 = true → f = .int4) →
        ∃ u b, exec (.ldw g) s = .next u ∧ (if mWb w = 0 then (u.core g).bank0 else (u.core g).bank1) = some b
          ∧ b.line = mOpd w ∧ b.fmt = f ∧ b.k256 = h.2.2.2.2 ∧ b.cells = memCells s.mem (ocBase g + 64 * mOpd w) len
          ∧ (∀ j, j < 128 → b.sums.getD j 0 = s.le (ocBase g + 64 * mSum w + 64 + 4 * j) 4)
          ∧ (u.core g).xm = (s.core g).mxeRest ∧ (u.core g).mx = none ∧ OnlyCore s u g)
    ∧ (∀ (a b : Fmt) (k i : Nat), mOp w = 2 → pairOf w = some (a, b, k) → (s.core g).freeSlot = some i →
        s.group g (mAg w) = none → (a = .uint8 → s.lsOk g (8 * mZrec w) 8 = true ∧
          (ScaleRec.read (s.le (lsBase g + 8 * mZrec w) 8)).isSome = true) →
        ∃ u x, exec (.openGroup g) s = .next u ∧ (u.core g).groups = (s.core g).groups ++ [x] ∧ x.id = mAg w
          ∧ x.st = .opened ∧ x.slot = i ∧ x.fmtA = a ∧ x.fmtB = b ∧ x.kacc = 0 ∧ x.ovf = false
          ∧ x.acc = List.replicate 16384 0 ∧ (u.core g).xm = (s.core g).mxeRest ∧ (u.core g).mx = none ∧ OnlyCore s u g)
    ∧ (∀ (a b : Fmt) (k : Nat) (x : Group) (bank : Bank) (v : State), mOp w = 3 → pairOf w = some (a, b, k) →
        s.group g (mAg w) = some x → x.st = .opened → x.fmtA = a → x.fmtB = b → mKused w < k →
        (if mWb w = 0 then (s.core g).bank0 else (s.core g).bank1) = some bank → bank.fmt = b → bank.tileK = k →
        (s.core g).tiles.length < 2 → (s.core g).shadowIn = [] → s.mxeOperand g w (a.bytes ((mRows w + 1) * k)) = (v, true) →
        (let h := s.sumHead g (mSum w)
         h.1 = 1 ∧ h.2.1 = a.code ∧ h.2.2.1 = mRows w ∧ h.2.2.2.1 = true ∧ h.2.2.2.2 = decide (k = 256)) →
        ∃ u t, exec (.mma g) s = .next u ∧ (u.core g).tiles = (s.core g).tiles ++ [t] ∧ t.grp = mAg w
          ∧ t.rows = mRows w + 1 ∧ t.kused = mKused w + 1
          ∧ t.inc = increments a.isFp (s.aRows g a (mOpd w) (mRows w + 1) k) bank.rows
          ∧ (u.core g).xm = (s.core g).mxeRest ∧ (u.core g).mx = none ∧ OnlyCore s u g)

/-- R75, R78, R81, R89: PARK, RESUME and ABORT move a group whose tiles have retired to PARKED, to OPEN and out of its
slot; DRAIN of a group whose accumulators pass their check, or that has overflowed, puts it into DRAINING, one entry for
the VXE pending. Each leaves the galley. While a tile of the group is in flight, PARK, DRAIN and ABORT leave the galley and
wait at the engine. -/
def Obligations.MatrixGroupStates : Prop :=
  ∀ (g : CoreId) (s : State) (e : MEntry) (x : Group), MxeTakes s g e → s.group g (mAg e.word) = some x →
    let w := e.word
    let idle := (s.core g).inFlight x.id = false
    let now := fun (u : State) (st : AgSt) => u.group g (mAg w) = some { x with st := st }
      ∧ (u.core g).xm = (s.core g).mxeRest ∧ (u.core g).mx = none ∧ u.mem = s.mem
    (mOp w = 4 → x.st = .opened → idle → ∃ u, exec (.park g) s = .next u ∧ now u .parked ∧ OnlyCore s u g)
    ∧ (mOp w = 5 → x.st = .parked → ∃ u, exec (.resume g) s = .next u ∧ now u .opened ∧ OnlyCore s u g)
    ∧ (mOp w = 7 → x.st = .opened ∨ x.st = .parked → idle → ∃ u, exec (.abort g) s = .next u
        ∧ u.group g (mAg w) = none ∧ (u.core g).xm = (s.core g).mxeRest ∧ (u.core g).mx = none ∧ OnlyCore s u g)
    ∧ (mOp w = 6 → x.st = .opened ∨ x.st = .parked → idle →
        x.ovf = true ∨ (x.drainCheck (s.fget (F.MXE_CHK_CTRL_TOL_EXP g))).1 = 0 →
        ∃ u d, exec (.drain g) s = .next u ∧ now u .draining ∧ (u.core g).drains = (s.core g).drains ++ [d]
          ∧ d.grp = x.id ∧ d.tag = mTag w ∧ d.blk = 0 ∧ d.suspect = false)
    ∧ (∀ q ∈ [(4, Instr.park g), (6, .drain g), (7, .abort g)], mOp w = q.1 → x.st = .opened → (s.core g).inFlight x.id = true →
        ∃ u, exec q.2 s = .next u ∧ (u.core g).mx = some e ∧ (u.core g).xm = (s.core g).mxeRest
          ∧ (u.core g).groups = (s.core g).groups ∧ OnlyCore s u g)

/-- R83, R86 to R88: the oldest tile, when its columns all pass, leaves its work slot and is added element by element into
its group, with KACC raised by KUSED and OVF set where KACC passes the limit of the pair; one with a failing column raises
TILE_CNT, sets TILE_MISS, raises event 0x0101 and is formed again behind the other tile. -/
def Obligations.TileRetiresOrReplays : Prop :=
  ∀ (g : CoreId) (s : State) (t : Tile) (r : List Tile) (x : Group), s.mxeRuns g = true → s.clean → (s.core g).tiles = t :: r →
    s.group g t.grp = some x →
    let bad := (checkColumns t.fmtA.isFp (s.fget (F.MXE_CHK_CTRL_TOL_EXP g)) t.inc t.expect t.mags).1
    (bad = 0 → ∃ u y, exec (.tileVerdict g) s = .next u
        ∧ (u.core g).tiles = r ∧ u.group g t.grp = some y ∧ y.st = x.st ∧ y.kacc = (x.kacc + t.kused) % 2 ^ 32
        ∧ y.ovf = (x.ovf || decide (pairMaxK x.fmtA x.fmtB < x.kacc + t.kused))
        ∧ y.acc = (x.acc.zip t.inc).map (fun p => accAdd t.fmtA.isFp y.ovf p.1 p.2) ∧ u.mem = s.mem
        ∧ u.fget (F.MXE_TILE_CNT_TILES g) = (s.fget (F.MXE_TILE_CNT_TILES g) + 1) % 2 ^ 32)
    ∧ (bad ≠ 0 → s.eventRoom 1 → ∃ u, exec (.tileVerdict g) s = .next u ∧ (u.core g).tiles = r ++ [s.reformTile g t]
        ∧ u.group g t.grp = some x ∧ (∃ v, u.evq.take (s.evq.length + 1) = s.evq ++ [v] ∧ v.code = 0x0101) ∧ u.mem = s.mem
        ∧ Bumped s u (F.MXE_CHK_CNT_TILE_CNT g) ∧ u.fget (F.MXE_CHK_STAT_TILE_MISS g) = 1)

/-- R81: a drain pushes its next 16-row entry, which says the group, tag, block, slot, KACC and flags, while the MXE→VXE
galley has room, and after the eighth no entry is left of it. R91: the partner forms the tile it was sent in a free work
slot and returns the tile's CRC to the owner. R92: the owner drops the pair when the CRCs agree; otherwise both cores count
the mismatch and show it, and event 0x0103 is raised. A frozen engine does none of these (R217). -/
def Obligations.DrainsAndShadowTiles : Prop :=
  (∀ (g : CoreId) (s : State) (d : Drain) (r : List Drain) (x : Group), s.mxeRuns g = true → (s.core g).drains = d :: r →
    s.group g d.grp = some x → (s.core g).mv.length < (s.galley g).mv → d.blk < 8 → d.grp < 16 → d.tag < 256 → x.slot < 8 →
    x.kacc < 2 ^ 32 →
    ∃ u h, exec (.drainEntry g) s = .next u ∧ (u.core g).mv = (s.core g).mv ++ [h] ∧ bits h 63 60 = d.grp ∧ bits h 59 52 = d.tag
      ∧ bits h 51 49 = d.blk ∧ bit h 48 = x.fmtA.isFp ∧ bit h 47 = x.ovf ∧ bit h 46 = d.suspect ∧ bit h 45 = decide (d.blk = 7)
      ∧ bits h 34 32 = x.slot ∧ bits h 31 0 = x.kacc
      ∧ (u.core g).drains = (if d.blk = 7 then r else { d with blk := d.blk + 1 } :: r) ∧ OnlyCore s u g)
  ∧ (∀ (g : CoreId) (s : State) (sh : Shadow) (r : List Shadow), s.mxeRuns g = true → s.clean →
    (s.core g).shadowIn = sh :: r → (s.core g).tiles.length < 2 → sh.owner ≠ g → ∃ u, exec (.shadowTile g) s = .next u
      ∧ (u.core g).shadowIn = r
      ∧ (u.core sh.owner).shadowBack = (s.core sh.owner).shadowBack
          ++ [{ sh with crc := (s.reformTile sh.owner sh.tile).crc }]
      ∧ (∀ h, h ≠ g.val → h ≠ sh.owner → u.core h = s.core h) ∧ u = { s with cores := u.cores })
  ∧ (∀ (g : CoreId) (s : State) (b x : Shadow) (r : List Shadow), s.mxeRuns g = true → (s.core g).shadowBack = b :: r →
    ((s.core g).shadowWait.find? fun y => y.tile.num == b.tile.num) = some x → s.eventRoom 1 → b.partner ≠ g → b.partner < 128 →
    ∃ u, exec (.shadowCrcReturn g) s = .next u ∧ (u.core g).shadowBack = r
      ∧ (∀ y ∈ (u.core g).shadowWait, y.tile.num ≠ b.tile.num) ∧ u.mem = s.mem
      ∧ (x.crc = b.crc → OnlyCore s u g)
      ∧ (x.crc ≠ b.crc → (∀ h, h = g.val ∨ h = b.partner → Bumped s u (F.MXE_CHK_CNT_SHD_CNT h)
          ∧ u.fget (F.MXE_CHK_STAT_SHD_MISS h) = 1) ∧ ∃ v ∈ u.evq, v.code = 0x0103 ∧ v.unit = g))
  ∧ (∀ (g : CoreId) (s : State), (s.core g).mxeFrozen = true → ∀ i ∈ [Instr.tileVerdict g, .drainEntry g, .shadowTile g,
      .shadowCrcReturn g], exec i s = .next s)

/-- R95, R96, R124: a flush that reaches its home entry before the entry's verdict adds its counts and leaves the die's
queue; an entry whose producers have all flushed within both thresholds PASSes, which sets its verdict quoin to 1 and
decides the entry. Neither happens while a capture has clock-stopped the die (R371). -/
def Obligations.RangeMonitorFlushAndVerdict : Prop :=
  (∀ (d : DieId) (s : State) (f : Flush) (r : List Flush), (s.die d).flushes = f :: r → s.clockStopped (some d.val) = false →
    let m := (s.die d).mon.get MonEntry.zero f.entry
    m.decided = false → ∃ u n, exec (.monitorFlushArrival d) s = .next u ∧ (u.die d).flushes = r
      ∧ (u.die d).mon.find f.entry = some n ∧ n.elem = satAdd (2 ^ 48 - 1) m.elem f.set.elem
      ∧ n.sat = satAdd (2 ^ 48 - 1) m.sat f.set.sat ∧ n.zl = satAdd (2 ^ 48 - 1) m.zl f.set.zl
      ∧ n.flushes = m.flushes + 1 ∧ n.decided = false ∧ u.mem = s.mem ∧ u.regs = s.regs)
  ∧ (∀ (d : DieId) (e : Fin 64) (s : State) (c : Nat) (mr : MonRec),
    (s.formes.findSome? fun p => (p.2.mons.find? fun m => m.die == d.val && m.entry == e.val).map fun m => (p.1, m)) = some (c, mr) →
    let m := (s.die d).mon.get MonEntry.zero e
    m.decided = false → mr.prod ≤ m.flushes → 512 ≤ mr.vq →
    m.sat * 2 ^ s.fget (F.CD_RM_THRESH_TSAT_EXP d) ≤ m.elem → m.zl * 256 ≤ s.fget (F.CD_RM_THRESH_TUF_NUM d) * m.nz →
    s.clockStopped (some d.val) = false → s.eventRoom 1 →
    ∃ u n, exec (.rangeVerdict d e) s = .next u ∧ u.quoin (32 * d) mr.vq = 1
      ∧ (u.die d).mon.find e = some n ∧ n.decided = true ∧ u.mem = s.mem ∧ u.regs = s.regs)
  ∧ (∀ (d : DieId) (e : Fin 64) (s : State), s.clockStopped (some d.val) = true →
    exec (.monitorFlushArrival d) s = .next s ∧ exec (.rangeVerdict d e) s = .next s)

/-! ### The transfer engine (spec/05) -/

/-- R155 to R158, R161: with nothing else active on the core, a ready COPY or ZERO descriptor of one row of at most
2 KiB between its core's own memories starts: it leaves the queue, becomes active, and its one request holds a slot with
the source bytes, or zeros. -/
def Obligations.DescriptorsStartTheirRequests : Prop :=
  ∀ (g : CoreId) (s : State) (c op : Nat) (d : Desc), XferIdle s g c → s.xfeLive g = true →
    (s.core g).xq.find? (fun d => d.ready && dField d.words 0 63 60 == op && s.canStart g d.words) = some d →
    let l := d.words
    let src := dField l 1 47 0
    let dst := dField l 2 47 0
    let n := 64 * (dField l 3 63 46 + 1)
    dField l 0 24 24 = 0 → dField l 0 56 56 = 0 → dField l 0 55 55 = 0 → dField l 0 54 52 = 0 → dField l 0 25 25 = 0 →
    dField l 3 45 30 = 0 → dField l 7 21 6 = 0 → n ≤ 2048 → isMem dst = false →
    (op = 1 → isMem src = false ∧ s.xfeReach c false src n = true) → s.xfeReach c true dst n = true →
    let starts := fun (i : Instr) (k : ReqKind) (data : List Byte) => ∃ u x a, exec i s = .next u
      ∧ (u.core g).slots = [x] ∧ x.req.kind = k ∧ x.req.dst = dst ∧ x.req.len = n ∧ x.data = data
      ∧ (u.core g).act = [a] ∧ a.d = d ∧ (u.core g).xq = (s.core g).xq.erase d ∧ OnlyCore s u g
    (op = 1 → starts (.copy g) .copy (s.bytes src n)) ∧ (op = 2 → starts (.zero g) .zero (List.replicate n 0))

/-- R155, R156: QSET moves nothing and becomes active at once; HINT rewrites class and next use of the die-cache lines its
shape covers; and the completion of a descriptor whose data has moved adds its increment to CQ, or for QSET sets CQ to
DSTRIDE, and ends it. -/
def Obligations.QsetHintAndCompletion : Prop :=
  (∀ (g : CoreId) (s : State) (c : Nat) (d : Desc), XferIdle s g c → s.xfeLive g = true →
    dField d.words 0 24 24 = 0 → dField d.words 0 25 25 = 0 → dField d.words 7 21 6 = 0 →
    (s.core g).xq.find? (fun e => e.ready && dField e.words 0 63 60 == 3 && s.canStart g e.words) = some d →
    dField d.words 0 63 60 = 3 → ∃ u a, exec (.qset g) s = .next u ∧ (u.core g).act = [a] ∧ a.d = d ∧ a.issued = true
      ∧ (u.core g).xq = (s.core g).xq.erase d ∧ OnlyCore s u g)
  ∧ (∀ (g : CoreId) (s : State) (c : Nat) (d : Desc), XferIdle s g c → s.xfeLive g = true →
    dField d.words 0 24 24 = 0 → dField d.words 0 25 25 = 0 → dField d.words 7 21 6 = 0 →
    (s.core g).xq.find? (fun e => e.ready && dField e.words 0 63 60 == 4 && s.canStart g e.words) = some d →
    dField d.words 0 63 60 = 4 →
    let l := d.words
    let row := fun r => dField l 1 47 0 + r * dField l 4 63 32
    let n := 64 * (dField l 3 63 46 + 1)
    (∀ r, r ≤ dField l 3 45 30 → s.rowReach c false (n / 0x40000 + 2) (row r) n = true) →
    ∃ u, exec (.hint g) s = .next u ∧ u.mem = s.mem ∧ (u.core g).xq = (s.core g).xq.erase d
      ∧ (u.die (g / 32)).lines = (s.die (g / 32)).lines.map fun x =>
          if (List.range (dField l 3 45 30 + 1)).any (fun r => decide (row r < 128 * x.line + 128 ∧ 128 * x.line < row r + n))
          then { x with cls := dField l 0 59 57, next := dField l 0 39 28 } else x)
  ∧ (∀ (g : CoreId) (i : Fin 16) (s : State) (c : Nat) (a : Active), XferDone s g c a → (s.core g).act[i.val]? = some a →
    s.xfeLive g = true → dField a.d.words 6 47 38 ≠ 0 →
    ∃ u, exec (.descriptorComplete g i) s = .next u ∧ (u.core g).act = [] ∧ u.mem = s.mem ∧ u.regs = s.regs
      ∧ u.quoin g (dField a.d.words 6 47 38) = (if a.op = 3 then dField a.d.words 4 31 0
          else wrap 32 ((s.quoin g (dField a.d.words 6 47 38) : Int) + sext 16 (dField a.d.words 6 37 22))))

/-- R156 step 4, R161: the last request of the only active descriptor, served by this module's memory (whose controllers no
capture has clock-stopped, R371), writes its bytes at its destination and frees its slot; no other byte differs where no sum block stands over the destination. -/
def Obligations.LandedRequestWritesItsBytes : Prop :=
  ∀ (g : CoreId) (i : Fin 48) (s : State) (c : Nat) (a : Active) (x : Slot), s.occupant g = some c → s.xfeLive g = true →
    s.clean → s.memOk → s.ended = [] → (s.ctx c).streams = [] → (s.core g).slots = [x] → i.val = 0 → x.queued.isSome = true →
    (s.core g).act = [a] → (s.core g).waits = [] → (∀ h, place x.req.dst = .oc h → (s.core h).sums = []) → a.failed = false → a.rows ≤ a.row →
    a.d.id = x.req.desc → x.req.desc < streamDesc → dField a.d.words 0 54 52 = 0 → x.data.length = x.req.len →
    x.req.kind = .copy ∨ x.req.kind = .zero → s.heldBehind x = false → s.bankStopped x.req.bank = false →
    s.bankStopped x.req.bank2 = false →
    ∃ u, exec (.requestLanded g i) s = .next u ∧ u.bytes x.req.dst x.req.len = x.data
      ∧ (∀ b, b < x.req.dst ∨ x.req.dst + x.req.len ≤ b → u.byte b = s.byte b) ∧ (u.core g).slots = [] ∧ u.memOk

/-- R157, R164, Table 5-8: a QSET at its turn in a chain whose WQ has been reached becomes active; a COPY or ZERO whose
buffer failed its check is fetched again once its generation is even; a request held for more than 4 µs is aged; one that
has waited in its bank's controller queue for more than 100 µs is recorded against its HBM or LPDDR5X bank with event
0x0305. The event's UNIT, the stack's number or 0x100 and the device's, is the model's choice (assumption 31). -/
def Obligations.ChainsRefetchesAndAging : Prop :=
  (∀ (g : CoreId) (s : State) (c : Nat) (d : Desc), XferQuiet s g c → s.xfeLive g = true → (s.core g).chainWait = [d] →
    d.words ≠ [] → d.ready = true → dField d.words 0 63 60 = 3 → dField d.words 0 24 24 = 0 → dField d.words 0 25 25 = 0 →
    dField d.words 7 21 6 = 0 →
    ∃ u a, exec (.descriptorChainNext g) s = .next u ∧ (u.core g).chainWait = [] ∧ (u.core g).act = [a] ∧ a.d = d
      ∧ OnlyCore s u g)
  ∧ (∀ (g : CoreId) (s : State) (c : Nat) (r : Refetch), XferIdle s g c → s.xfeLive g = true → s.clean →
    (s.core g).refetch = [r] → r.done = false → s.quoin g r.fill.gq % 2 = 0 → r.fill.desc + 64 ≤ 0x400000 →
    s.lsOk g r.fill.desc 64 = true →
    let l := s.descWords g r.fill.desc
    descLegal g l = true → (descQuoins l).all (s.quoinOwned g) = true → dField l 0 24 24 = 0 → dField l 0 54 52 = 0 →
    dField l 0 56 56 = 0 → dField l 0 55 55 = 0 → dField l 0 63 60 = 1 ∨ dField l 0 63 60 = 2 →
    ∃ u a, exec (.xfeRefetch g) s = .next u ∧ (u.core g).act = [a] ∧ a.refetch = true ∧ a.d.words = l
      ∧ a.d.addr = r.fill.desc ∧ u.mem = s.mem)
  ∧ (∀ (g : CoreId) (i : Fin 48) (s : State) (x : Slot), (s.core g).slots[i.val]? = some x →
    (x.since + 4 < s.timeUs → x.aged = false → ∃ u, exec (.requestAged g i) s = .next u
      ∧ (u.core g).slots = listSet (s.core g).slots i { x with aged := true } ∧ u.fget (F.XFE_STAT_AGED_SEEN g) = 1
      ∧ u.mem = s.mem)
    ∧ (∀ q, x.queued = some q → q + 100 < s.timeUs → x.req.kind.isLocal = true → x.req.bank ≠ 0x20000 →
        x.req.bank2 = 0x20000 ∨ x.req.bank2 = x.req.bank → s.lastEvent.find (2 ^ 40 + x.req.bank) = none → s.eventRoom 1 →
        ∃ u v, exec (.memBankDegraded g i) s = .next u ∧ u.evq = s.evq ++ [v] ∧ v.code = 0x0305 ∧ u.mem = s.mem
          ∧ (x.req.bank < 6144 →
              let d := x.req.bank / 512 / 3
              let k := x.req.bank / 512 % 3
              v.unit = x.req.bank / 512 ∧ Bumped s u (F.HBM_BANK_DEG_DEG_CNT d k)
              ∧ u.fget (F.HBM_BANK_DEG_BANK d k) = x.req.bank % 16 ∧ u.fget (F.HBM_BANK_DEG_PC d k) = x.req.bank / 16 % 32)
          ∧ (∀ b, x.req.bank = 0x10000 + b → b < 256 →
              v.unit = 0x100 + b / 16 ∧ Bumped s u (F.LPX_BANK_DEG_DEG_CNT (b / 16 / 8) (b / 16 % 8))
              ∧ u.fget (F.LPX_BANK_DEG_BANK (b / 16 / 8) (b / 16 % 8)) = b % 16)))

/-- R143, R166 to R168: a scrubber that is enabled passes over a good block or word and changes nothing; it corrects a
correctable one in place and counts it. It leaves an uncorrectable block of memory, counts it, records its address and
raises event 0x0303, followed by 0x0309 where the block's segment has a wrong tag. An uncorrectable SRAM word raises event
0x0304 and faults the context that owns it, or is rewritten with zero where none does; in a die cache it invalidates its
line. -/
def Obligations.ScrubbersCorrectOrRecord : Prop :=
  ∀ (addr : BitVec 48) (s : State),
    (let a := addr.toNat / 64 * 64
     isMem a = true → s.inService a 64 = true → s.scrubOn a = true →
      (s.segBad a = false → s.ecc.find a = none → exec (.patrolScrub addr) s = .next s)
      ∧ (∀ m, s.segBad a = false → s.ecc.find a = some m → correctable a m = true →
          ∃ u, exec (.patrolScrub addr) s = .next u ∧ u.ecc = s.ecc.erase a ∧ u.mem = s.mem
            ∧ (∀ d, place a = .hbm d → Bumped s u (F.HBM_ECC_CNT_CE_CNT d ((s.hbmBank a).1 % 3)))
            ∧ (∀ e, place a = .lpx e → Bumped s u (F.LPX_ECC_CNT_CE_CNT e ((s.lpxSeg a).1 % 8))))
      ∧ (s.segBad a = true ∨ (∃ m, s.ecc.find a = some m ∧ correctable a m = false) → s.eventRoom 2 →
          ∃ u, exec (.patrolScrub addr) s = .next u ∧ u.ecc = s.ecc ∧ u.mem = s.mem
            ∧ u.evq.map (·.code) = s.evq.map (·.code) ++ (if s.segBad a = true then [0x0303, 0x0309] else [0x0303])
            ∧ (∀ d, place a = .hbm d → let k := (s.hbmBank a).1 % 3
                Bumped s u (F.HBM_ECC_CNT_UE_CNT d k) ∧ u.fget (F.HBM_ERR_ADDR_HI_VALID d k) = 1
                ∧ u.fget (F.HBM_ERR_ADDR_HI_SCRUB d k) = 1 ∧ u.rget (R.HBM_ERR_ADDR_LO d k) = a % 2 ^ 32)
            ∧ (∀ e, place a = .lpx e → let k := (s.lpxSeg a).1 % 8
                Bumped s u (F.LPX_ECC_CNT_UE_CNT e k) ∧ u.fget (F.LPX_ERR_ADDR_HI_VALID e k) = 1
                ∧ u.fget (F.LPX_ERR_ADDR_HI_SCRUB e k) = 1 ∧ u.rget (R.LPX_ERR_ADDR_LO e k) = a % 2 ^ 32)))
    ∧ (let a := addr.toNat / 8 * 8
       isMem a = false → s.scrubOn a = true →
      (s.ecc.find a = none → exec (.sramScrub addr) s = .next s)
      ∧ (∀ m w, s.ecc.find a = some m → correctable a m = true → sramOf a = some w →
          ∃ u, exec (.sramScrub addr) s = .next u ∧ u.mem = s.mem ∧ u.ecc = s.ecc.erase a
            ∧ Bumped s u (F.DC_ECC_CNT_CE_CNT w.die))
      ∧ (∀ m g, s.ecc.find a = some m → correctable a m = false → sramOf a = some (.core g) → s.eventRoom 1 →
          (s.occupant g = none → ∃ u v, exec (.sramScrub addr) s = .next u ∧ u.mem = memClear s.mem a 8 ∧ u.ecc = s.ecc.erase a
            ∧ u.evq = s.evq ++ [v] ∧ v.code = 0x0304)
          ∧ (∀ c, s.occupant g = some c → s.ctxState c = ctxRunning → ∃ u v, exec (.sramScrub addr) s = .next u ∧ u.mem = s.mem
            ∧ u.ecc = s.ecc ∧ u.evq.take (s.evq.length + 1) = s.evq ++ [v] ∧ v.code = 0x0304
            ∧ u.fget (F.CTX_FAULT_EVENT c) = 0x0304 ∧ (u.ctx c).faultStop = true))
      ∧ (∀ m d w x, s.ecc.find a = some m → correctable a m = false → sramOf a = some (.line d w x) →
          ∃ u, exec (.sramScrub addr) s = .next u ∧ u.mem = s.mem ∧ u.evq = s.evq
            ∧ (∀ l ∈ (u.die d).lines, ¬ (l.way = w ∧ l.set = x)) ∧ u.ecc.find a = none))

/-! ### Contexts and their commands (spec/07, spec/13) -/

/-- R209, R210, R213, R219, R393: the commands that act at once. LOAD_FORME asks the host for its image; ADMIT makes the context IDLE
with its operands and completes; RUN_STEPS adds its count and completes, and from IDLE takes the cores of the chases and
awaits the launch tick; PREEMPT and SAVE leave a pending stop; TEARDOWN enters TEARING. -/
def Obligations.ContextCommandsAct : Prop :=
  ∀ (c : CtxId) (r : RingId) (s : State) (k : Cmd),
    (∀ q, CommandActs s c r 1 k → (s.ctx c).loading = none → (s.ctx c).crQp.bind s.qp? = some q → q.err = false →
      k.arg 20 8 ≠ 0 → ∃ u p x, exec (.loadForme c r) s = .next u ∧ UnderWay s u c r k
        ∧ (u.ctx c).loading = some ⟨r, [], k.arg 20 8, false, s.nextLoadSeq⟩
        ∧ u.qp? q.num = some p ∧ p.sent = q.sent ++ [x] ∧ x.read = true ∧ x.vaddr = k.arg 8 8 ∧ x.rkey = k.arg 16 4
        ∧ x.len = k.arg 20 8 ∧ u.mem = s.mem ∧ u.cores = s.cores ∧ u.regs = s.regs)
    ∧ (∀ f, CommandActs s c r 2 k → (s.ctx c).forme = some f → ∃ u, exec (.admitForme c r) s = .next u
        ∧ Completes s u c r k stOk 0 0 ∧ u.ctxState c = ctxIdle ∧ (u.ctx c).srSeed = k.arg 8 8 ∧ (u.ctx c).step = 0
        ∧ u.fget (F.CTX_CFG_TICK_GROUP c) = k.arg 16 2 ∧ u.fget (F.CTX_CFG_PEER_TO_MS c) = (if k.arg 20 4 = 0 then 100
          else k.arg 20 4 % 2 ^ 14) ∧ u.mem = s.mem)
    ∧ (CommandActs s c r 3 k → s.ctxState c = ctxRunning → ∃ u, exec (.runSteps c r) s = .next u
        ∧ Completes s u c r k stOk 0 (s.stepsLeft c + k.arg 8 4) ∧ (u.ctx c).counts = (s.ctx c).counts ++ [⟨r, k.tag, k.arg 8 4⟩]
        ∧ u.ctxState c = ctxRunning ∧ u.mem = s.mem ∧ u.cores = s.cores)
    ∧ (CommandActs s c r 3 k → s.ctxState c = ctxIdle → s.impositionFits c = true → s.coresFree c = true →
        (∀ g ∈ s.chaseCoresOf c, g < 128) → ∃ u, exec (.runSteps c r) s = .next u
        ∧ Completes s u c r k stOk 0 (s.stepsLeft c + k.arg 8 4) ∧ u.ctxState c = ctxRunning
        ∧ (u.ctx c).launch = some ⟨false, r, none, s.timeUs⟩ ∧ (∀ g ∈ s.chaseCoresOf c, u.occupant g = some c.val)
        ∧ u.mem = s.mem ∧ u.cores = s.cores)
    ∧ (CommandActs s c r 4 k → (s.ctx c).stop = none → ∃ u, exec (.preempt c r) s = .next u ∧ UnderWay s u c r k
        ∧ (u.ctx c).stop = some ⟨some k.atTick, false⟩ ∧ u.fget (F.CTX_STAT_STOP_PENDING c) = 1
        ∧ u.ctxState c = s.ctxState c ∧ u.mem = s.mem ∧ u.cores = s.cores)
    ∧ (CommandActs s c r 5 k → (s.ctx c).stop = none → ∃ u, exec (.saveCmd c r) s = .next u ∧ UnderWay s u c r k
        ∧ (u.ctx c).stop = some ⟨none, true⟩ ∧ u.fget (F.CTX_STAT_STOP_PENDING c) = 1
        ∧ u.ctxState c = s.ctxState c ∧ u.mem = s.mem ∧ u.cores = s.cores)
    ∧ (CommandActs s c r 8 k → s.ctxState c ≠ ctxTearing → (s.ctx c).coll.order = none →
        (∀ l, (s.ctx c).loading = some l → l.ring ≠ r) → ∃ u,
        exec (.teardownCmd c r) s = .next u ∧ UnderWay s u c r k ∧ u.ctxState c = ctxTearing ∧ (u.ctx c).stop = none
        ∧ (u.ctx c).launch = none ∧ (u.ctx c).loading = none ∧ u.fget (F.CTX_STAT_STOP_PENDING c) = 0 ∧ u.mem = s.mem
        ∧ u.cores = s.cores)

/-- R209: a command in a state that Table 7-2 does not accept completes with BAD_STATE and changes no state of the
context; R210: in a transient state a command other than TEARDOWN and QUERY is held. -/
def Obligations.CommandsRefusedAndHeld : Prop :=
  ∀ (c : CtxId) (r : RingId) (s : State) (k : Cmd), ∀ p ∈ [((1 : Nat), Instr.loadForme c r), (2, .admitForme c r), (3, .runSteps c r),
      (4, .preempt c r), (5, .saveCmd c r), (6, .restore c r), (7, .migrate c r), (9, .setImposition c r)],
    (s.ring c r).cur = some k → k.opc = p.1 → k.stage = .taken → s.fget F.MGT_PLANE_STAT_MGMT_DOWN = 0 → s.ended = [] →
    (transientState (s.ctxState c) = true → ∃ u, exec p.2 s = .next u
      ∧ (u.ring c r).cur = some { k with stage := .heldTransient } ∧ u.mem = s.mem ∧ u.regs = s.regs ∧ u.cores = s.cores)
    ∧ (transientState (s.ctxState c) = false →
        acceptedIn p.1 (s.ctxState c) (s.fget (F.CTX_STAT_IMAGE c) == 1) = false → ∃ u, exec p.2 s = .next u
          ∧ Completes s u c r k stBadState 0 0 ∧ u.ctxState c = s.ctxState c ∧ u.mem = s.mem ∧ u.cores = s.cores)

/-- R223, R213, R229, R311: RESTORE of a context with an image waits for its cores, one of a context saved without an image
takes them and raises event 0x0424; MIGRATE writes the context header and enters MIGRATING with the copy of the WRITE
windows, the save areas, the landing buffer and the header started; SET_IMPOSITION that has passed its checks is pending
until its step, and one that fails a check is refused with its code. Where the copy's pieces and header stand at the target,
the event 0x0424 of a restore without an image and the DATA of event 0x0702 are the model's choices (assumptions 49, 50 and
31). -/
def Obligations.RestoreMigrateAndImpose : Prop :=
  ∀ (c : CtxId) (r : RingId) (s : State) (k : Cmd),
    (CommandActs s c r 6 k → s.impositionFits c = true → (s.ctx c).launch = none → s.fget (F.CTX_STAT_IMAGE c) = 1 →
      ∃ u, exec (.restore c r) s = .next u ∧ (u.ctx c).launch = some ⟨true, r, k.atTick, s.timeUs⟩
        ∧ (u.ring c r).cur = some { k with stage := .waitCores, since := s.timeUs } ∧ u.ctxState c = ctxSaved
        ∧ u.mem = s.mem ∧ u.regs = s.regs ∧ u.cores = s.cores)
    ∧ (CommandActs s c r 6 k → s.impositionFits c = true → (s.ctx c).launch = none → s.fget (F.CTX_STAT_IMAGE c) = 0 →
        s.coresFree c = true → (∀ g ∈ s.chaseCoresOf c, g < 128) → s.clean → (s.ctx c).landing = [] → s.eventRoom 1 → ∃ u,
        exec (.restore c r) s = .next u
        ∧ UnderWay s u c r k ∧ u.ctxState c = ctxRestoring ∧ (∀ g ∈ s.chaseCoresOf c, u.occupant g = some c.val)
        ∧ Raises s u [(0x0424, some c.val, 0, [])] ∧ u.mem = s.mem ∧ u.cores = s.cores)
    ∧ (∀ f, CommandActs s c r 7 k → (s.ctx c).forme = some f → s.spans c = false ∨ k.arg 11 1 = c → s.ended = [] → s.memOk →
        s.clean → s.peers.length < 4096 → ∃ u t,
        exec (.migrate c r) s = .next u ∧ u.ctxState c = ctxMigrating ∧ u.copyTask c = some t ∧ t.gen = k.arg 11 1
        ∧ t.pieces = (f.windows.filter (·.write)).map (fun w => Piece.mk (k.arg 8 3) w.base (.mem w.base w.len))
            ++ ((List.range f.ownAreas.length).zip f.ownAreas).map
              (fun p => Piece.mk (k.arg 8 3) (migrationAt p.1) (.mem p.2.base p.2.len))
        ∧ (u.peer (k.arg 8 3)).isSome = true ∧ u.cores = s.cores
        ∧ ∀ a, a < f.header.base ∨ f.header.base + f.header.len ≤ a → u.byte a = s.byte a)
    ∧ (∀ f i v, CommandActs s c r 9 k → (s.ctx c).forme = some f → (s.coll c).pend = none → s.ended = [] → s.clean →
        s.checkImposition c f (k.arg 8 8) (k.arg 16 8) (k.arg 24 4) = (v, 0, some i) →
        s.atBoundary c = false ∨ s.ctxState c = ctxRunning → ∃ u, exec (.setImposition c r) s = .next u
        ∧ UnderWay s u c r k ∧ (u.coll c).pend = some ⟨i, k.arg 24 4, r, false⟩ ∧ u.fget (F.TRN_IMP_STAT_PENDING c) = 1
        ∧ u.fget (F.TRN_IMP_STAT_PEND_EPOCH c) = i.iepoch % 65536 ∧ u.mem = s.mem ∧ u.cores = s.cores)
    ∧ (∀ f i v code, CommandActs s c r 9 k → (s.ctx c).forme = some f → (s.coll c).pend = none → s.ended = [] →
        s.checkImposition c f (k.arg 8 8) (k.arg 16 8) (k.arg 24 4) = (v, code, i) → code ≠ 0 → v.eventRoom 2 → s.clean →
        ∃ u, exec (.setImposition c r) s = .next u ∧ Completes s u c r k stRefused code 0 ∧ (u.coll c).pend = none
        ∧ (∃ e ∈ u.evq, e.says = (0x0702, some c.val, 0, [code])) ∧ u.mem = s.mem)

/-- R394: a QUERY of a context or of the capabilities sends the words of the registers, one of a kept colophon the record,
and one of a FAULTED context that is held the frozen state of its core, at most LEN bytes; the QUERY is under way until
the write is acknowledged. A colophon or a core that is not there completes the QUERY at once. -/
def Obligations.QueriesSendState : Prop :=
  ∀ (c : CtxId) (r : RingId) (s : State) (k : Cmd) (q : HostQp), CommandActs s c r 10 k →
    (s.ctx c).crQp.bind s.qp? = some q → q.err = false →
    let sends := fun (i : Instr) (b : List Byte) (size : Nat) => ∃ u p x, exec i s = .next u ∧ UnderWay s u c r k
      ∧ u.qp? q.num = some p ∧ p.sent = q.sent ++ [x] ∧ x.read = false ∧ x.vaddr = k.arg 16 8 ∧ x.rkey = k.arg 24 4
      ∧ x.data = b.take (k.arg 28 4) ∧ x.own = .query c r size ∧ u.mem = s.mem ∧ u.regs = s.regs ∧ u.cores = s.cores
    (k.arg 8 1 = 0 → sends (.queryContext c r) (s.regBytes ((List.range 7).map fun i => R.CTX_STAT c + 4 * i)) 28)
    ∧ (k.arg 8 1 = 3 → sends (.queryCapability c r) (s.regBytes ([R.MGT_CAP_SUM, R.MGT_CAP_LPX]
        ++ ((List.range 4).map fun d => R.MGT_CAP_CORE d) ++ ((List.range 4).map fun d => R.MGT_CAP_DIE d))) 40)
    ∧ (∀ x, k.arg 8 1 = 1 → s.colFind (k.arg 12 4) = some x → sends (.queryColophon c r) x.bytes x.size)
    ∧ (k.arg 8 1 = 1 → s.colFind (k.arg 12 4) = none → ∃ u, exec (.queryColophon c r) s = .next u
        ∧ Completes s u c r k stNotFound 0 0 ∧ u.mem = s.mem ∧ u.cores = s.cores)
    ∧ (k.arg 8 1 = 2 → s.ctxState c = ctxFaulted → s.fget (F.CTX_CFG_HOLD_ON_FAULT c) = 1 → s.occupant (k.arg 12 4) = some c.val →
        ∃ u p x, exec (.queryFrozenState c r) s = .next u ∧ UnderWay s u c r k ∧ u.qp? q.num = some p
        ∧ p.sent = q.sent ++ [x] ∧ x.data.length ≤ k.arg 28 4 ∧ u.free = s.free + 1 ∧ u.mem = s.mem ∧ u.cores = s.cores)
    ∧ (k.arg 8 1 = 2 → s.ctxState c ≠ ctxFaulted → ∃ u, exec (.queryFrozenState c r) s = .next u
        ∧ Completes s u c r k stBadState 0 0 ∧ u.mem = s.mem ∧ u.cores = s.cores)

/-- R178, R179, R209: a complete image, the first to arrive of those waiting, that passes its checks is installed: its bytes
stand in the forme area, a FREE context is LOADED and one in another state stays in it, and LOAD_FORME completes; one that
fails raises event 0x0401 with the check's code (in DATA by the model's choice, assumption 31), and completes REFUSED with
it, the context as it was. -/
def Obligations.ProofPassInstallsOrRefuses : Prop :=
  ∀ (c : CtxId) (s : State) (l : Loading) (k : Cmd), (s.ctx c).loading = some l → l.complete = true →
    (∀ d : CtxId, ∀ m, (s.ctx d).loading = some m → l.seq ≤ m.seq) → (s.ring c l.ring).cur = some k →
    k.stage = .active → s.eventRoom 2 →
    (∀ f, s.proofPass c l.image = (0, some f) → s.clean → s.memOk →
      ∃ u, exec (.proofPass c) s = .next u ∧ (u.ctx c).forme = some f
        ∧ u.ctxState c = (if s.ctxState c = ctxFree then ctxLoaded else s.ctxState c) ∧ (u.ctx c).loading = none
        ∧ Completes s u c l.ring k stOk 0 0 ∧ Stored s u f.area.base l.image ∧ u.cores = s.cores)
    ∧ (∀ code, s.proofPass c l.image = (code, none) → ∃ u, exec (.proofPass c) s = .next u
        ∧ (u.ctx c).forme = (s.ctx c).forme ∧ u.ctxState c = s.ctxState c ∧ (u.ctx c).loading = none
        ∧ Completes s u c l.ring k stRefused code 0 ∧ (∃ e ∈ u.evq, e.says = (0x0401, some c.val, 0, [code]))
        ∧ u.mem = s.mem ∧ u.cores = s.cores)

/-- R213, R222, R223, R231: the last image of a SAVING context makes it SAVED with no core of its own; a core of a restore
is taken and holds its saved state, the first only while the management plane is up (R26); the last core's restore raises
event 0x0424 and clears IMAGE; a wait of 2 ms for cores ends in CORES_BUSY, a context that waited to be restored staying
SAVED; and a teardown whose tick has come, and whose cores no capture holds, ends with the slot FREE, without forme and cores.
That RESTORING begins with the first core and IMAGE clears with the last is the model's choice (assumption 50). -/
def Obligations.SavesRestoresAndTeardownsEnd : Prop :=
  ∀ (c : CtxId) (s : State),
    (∀ f, (s.ctx c).forme = some f → s.ctxState c = ctxSaving → (s.ctx c).faultStop = false → s.clean → s.ended = [] →
      s.eventRoom 3 → ∃ u, exec (.saveComplete c) s = .next u ∧ u.ctxState c = ctxSaved
        ∧ u.fget (F.CTX_STAT_IMAGE c) = 1 ∧ NoCores u c ∧ (u.ctx c).saved.map (·.core) = (s.ctx c).saved.map (·.core) ++ s.occupied c
        ∧ (∃ e ∈ u.evq, e.says = (0x0423, some c.val, 0, [])))
    ∧ (∀ (g : CoreId) f l sv, (s.ctx c).forme = some f → (s.ctx c).launch = some l → l.restore = true →
        f.coreList.contains g.val = true → s.occupant g = none →
        s.ctxState c = ctxRestoring ∨ (s.ctxState c = ctxSaved ∧ s.fget F.MGT_PLANE_STAT_MGMT_DOWN = 0) → (s.ctx c).faultStop = false → (s.ctx c).saved.find? (fun x => x.core == g.val) = some sv → s.digestOk (f.imageAt g) sv = true → s.clean →
        ∃ u, exec (.restoreCoreStart c g) s = .next u ∧ u.occupant g = some c.val ∧ u.ctxState c = ctxRestoring
          ∧ u.core g =
            { sv.small with stopped := true, restored := false, mxeMiss := (s.core g).mxeMiss, vxeMiss := (s.core g).vxeMiss, vxeUpset := (s.core g).vxeUpset })
    ∧ (∀ g : CoreId, s.ctxState c = ctxRestoring → s.occupant g = some c.val → (∃ x ∈ (s.ctx c).saved, x.core = g.val) →
        (s.ctx c).faultStop = false → (s.ctx c).landing = [] → s.ended = [] → s.clean → s.eventRoom 1 →
        (∀ h ∈ s.chaseCoresOf c, s.occupant h = some c.val ∧ (h = g.val ∨ (s.core h).restored = true)) →
        ∃ u, exec (.coreRestoreDone c g) s = .next u ∧ (u.core g).restored = true ∧ u.fget (F.CTX_STAT_IMAGE c) = 0
          ∧ Raises s u [(0x0424, some c.val, 0, [])] ∧ (∀ x ∈ (u.ctx c).saved, x.core ≠ g.val) ∧ u.mem = s.mem)
    ∧ (∀ (r : RingId) k, (s.ring c r).cur = some k → k.stage = .waitCores → k.opc = 3 → k.since + 2000 ≤ s.timeUs →
        s.coresFree c = false → ∃ u, exec (.coresBusyTimeout c r) s = .next u ∧ Completes s u c r k stCoresBusy 0 0
          ∧ u.mem = s.mem ∧ u.cores = s.cores)
    ∧ (∀ (r : RingId) k f, (s.ctx c).forme = some f → (s.ring c r).cur = some k → k.stage = .waitCores → k.opc = 6 →
        k.since + 2000 ≤ s.timeUs → s.coresFree c = false → s.occupied c = [] → ∃ u, exec (.coresBusyTimeout c r) s = .next u
          ∧ Completes s u c r k stCoresBusy 0 0 ∧ u.ctxState c = ctxSaved ∧ (u.ctx c).launch = none ∧ u.mem = s.mem)
    ∧ (s.ctxState c = ctxTearing → (s.ctx c).tearing ≠ none → s.fget F.MGT_PLANE_STAT_MGMT_DOWN = 0 → s.captureOn c = false →
        ∃ u, exec (.teardownDone c) s = .next u ∧ u.ctxState c = ctxFree ∧ (u.ctx c).forme = none ∧ NoCores u c)

/-- R229, R230, R228, R251: the target's confirmation of a whole copy ends a migration at the source with the slot FREE; a
failure of a copy that is the context's one task returns it to SAVED with event 0x0428 and its cause; a request that met
BUSY is sent again after 2 µs; the one outstanding request, without an answer for 50 µs since its last cell left, is sent
again under its own SEQs, and a quoin update that has been sent again fails with event 0x0507; and BUSY for the peer timeout
raises event 0x0426. That a request sent again keeps its SEQs, and the peer in the DATA of events 0x0507 and 0x0426, are the
model's choices (assumptions 36 and 31). -/
def Obligations.MigrationsAndRequestTimersEnd : Prop :=
  ∀ (c : CtxId) (s : State),
    (∀ t, s.ctxState c = ctxMigrating → s.copyTask c = some t → t.out = false → t.todo = [] → t.fails = 0 → ∃ u,
      exec (.migrateConfirm c) s = .next u ∧ u.ctxState c = ctxFree ∧ (u.ctx c).forme = none ∧ NoCores u c)
    ∧ (∀ (t : Task) (cause : Fin 4), s.ctxState c = ctxMigrating → (s.coll c).tasks = [t] → t.kind = .migrate → cause.val ≠ 0 →
        cause.val ≠ 1 ∨ t.fails ≠ 0 → s.ended = [] → s.eventRoom 2 → ∃ u, exec (.migrateFailure c cause) s = .next u
        ∧ u.ctxState c = ctxSaved ∧ u.copyTask c = none ∧ (∃ e ∈ u.evq, e.says = (0x0428, some c.val, 0, [cause.val]))
        ∧ u.mem = s.mem ∧ u.cores = s.cores)
    ∧ (∀ (x : Nat) (y : Xfer), s.xfer? x = some y → y.busy = true → y.sentAt + 2 ≤ s.timeUs → s.ended = [] →
        s.peerValid y.fab = true → (s.portFor y.fab y.tc).isSome = true →
        ∃ u z, exec (.busyRetry x) s = .next u ∧ u.xfer? x = some z ∧ z.busy = false ∧ z.sentAt = s.timeUs
          ∧ z.busySince = y.busySince ∧ z.data = y.data ∧ u.mem = s.mem ∧ u.cores = s.cores)
    ∧ (∀ (x : Nat) (y : Xfer), s.xfer? x = some y → y.busy = false → s.waitsAtPort y = false → y.sentAt + 50 ≤ s.timeUs →
        s.ended = [] → (y.resent = true → y.owner = .quoin → s.eventRoom 1 → ∃ u, exec (.requestTimeout x) s = .next u
          ∧ u.xfer? x = none ∧ Raises s u [(0x0507, some y.ctx, 0, [y.fab])] ∧ u.mem = s.mem ∧ u.cores = s.cores)
        ∧ (y.resent = false → (s.portFor y.fab y.tc).isSome = true → s.xfers = [y] → ∃ u z,
            exec (.requestTimeout x) s = .next u ∧ u.xfers = [z] ∧ z.resent = true ∧ z.seq = y.seq ∧ z.sentAt = s.timeUs
            ∧ u.mem = s.mem ∧ u.cores = s.cores))
    ∧ (∀ (x : Nat) (y : Xfer) (t : Nat), s.xfer? x = some y → y.busySince = some t →
        t + 1000 * s.fget (F.CTX_CFG_PEER_TO_MS y.ctx) ≤ s.timeUs → (s.coll y.ctx).told.contains (2 ^ 41 + y.fab) = false →
        s.eventRoom 2 → ∃ u, exec (.peerTimeout x) s = .next u
          ∧ (∃ e ∈ u.evq, e.says = (0x0426, some y.ctx, 0, [y.fab])) ∧ u.mem = s.mem ∧ u.cores = s.cores)

/-! ### Ticks (spec/06, spec/07) -/

/-- R24, R198, R209, R212: the tick unit fires: TICK counts up and, for a unit that keeps its own time, the next tick is a
period on; a context with no steps left becomes IDLE and frees its cores; one whose impression has not ended slips a tick
where its group slips. The work of the step boundary comes before IDLE; where it is done already (R336), no byte changes. -/
def Obligations.TickAdvancesContexts : Prop :=
  ∀ (s : State), s.tickDue = true → s.ended = [] → (∀ d : CtxId, (s.coll d).repair = none) →
    (OnlyContext s 8 → ∃ u, exec .impressionTick s = .next u ∧ u.tick = s.nextTick ∧ u.mem = s.mem ∧ u.cores = s.cores
      ∧ (s.follows = false → s.tck.change = none → u.tck.nextNs = s.tck.nextNs + 1000 * s.periodUs))
    ∧ ∀ c : CtxId, OnlyContext s c → s.ctxState c = ctxRunning → (s.ctx c).faultStop = false → (s.coll c).lost = false →
      (s.coll c).weights = false →
      ((s.ctx c).pos.inStep = false → (s.coll c).pend = none → s.clean → s.stepsLeft c = 0 → ∃ u, exec .impressionTick s = .next u
        ∧ u.ctxState c = ctxIdle ∧ NoCores u c ∧ u.tick = s.nextTick ∧ ((s.coll c).bound = .done → u.mem = s.mem))
      ∧ ((s.ctx c).pos.inStep = true → (s.ctx c).posted = false → s.impEnded c = false → s.slips c s.nextTick = true →
          (s.ctx c).preemptDue s.nextTick = false → ∃ u, exec .impressionTick s = .next u
          ∧ (u.ctx c).slipTicks = (s.ctx c).slipTicks + 1 ∧ (u.ctx c).pos = (s.ctx c).pos ∧ u.ctxState c = ctxRunning
          ∧ u.tick = s.nextTick ∧ u.mem = s.mem ∧ u.cores = s.cores)

/-- R194, R177, R106, R197: a ramp group's cores start, with the impression's threads where nothing was restored; a core
that has finished its impression while another has not is marked so; and at the cutoff an impression that has not ended
is an overrun, with event 0x0402, its count and a slip request of its group. That the masters gather the requests, and that a
primary sends its own to the standby, is the model's choice (assumption 56), and so is the DATA of event 0x0402 (31). -/
def Obligations.ImpressionsStartAndEnd : Prop :=
  (∀ (c : CtxId) (k : Fin 8) (s : State) (f : Forme), s.ctxState c = ctxRunning → (s.ctx c).ran = true →
    (s.ctx c).launchAt + 2 * k ≤ s.timeUs → (s.ctx c).forme = some f → (s.ctx c).streams = [] → s.ended = [] →
    (∀ g ∈ f.coreList, s.occupant g = some c.val ∧ (s.core g).act = [] ∧ (s.core g).waits = []) → ∃ u, exec (.rampStart c k) s = .next u
      ∧ (∀ g ∈ f.coreList, g % 8 = k → (u.core g).stopped = false)
      ∧ (∀ g ∈ f.coreList, ∀ r, g % 8 = k → (s.core g).stopped = true → (s.core g).restored = false →
          s.impRec c = some r → (u.core g).started
            = (List.range 8).filter fun t => (f.startsOf r g).getD t 0xFFFFFFFF != 0xFFFFFFFF)
      ∧ (∀ g, g ∉ f.coreList → u.core g = s.core g) ∧ u.mem = s.mem ∧ u.regs = s.regs)
  ∧ (∀ (g : CoreId) (s : State) (c h : Nat), s.occupant g = some c → s.live g = true → (s.ctx c).pos.inStep = true →
    (s.core g).impDone = false → s.coreDone g = true → h ∈ s.chaseCoresOf c → h ≠ g → (s.core h).impDone = false →
    ∃ u, exec (.impressionEnd g) s = .next u ∧ (u.core g).impDone = true ∧ OnlyCore s u g)
  ∧ (∀ (c : CtxId) (s : State), s.cutoffDue = true → OnlyContext s c → s.ctxState c = ctxRunning →
    (s.ctx c).pos.inStep = true → (s.ctx c).posted = false → s.impEnded c = false → (s.ctx c).overrun = false →
    s.eventRoom 1 →
    let n := s.nextTick
    let g := s.fget (F.CTX_CFG_TICK_GROUP c)
    let flags := b2n (s.ctx c).retryWant + 2
    ∃ u, exec .slipCutoff s = .next u ∧ (u.ctx c).overrun = true ∧ u.tck.cut = n ∧ Bumped s u F.TCK_OVR_CNT_OVERRUNS
      ∧ (∃ e ∈ u.evq, e.says = (0x0402, some c.val, 0, [(s.ctx c).pos.imp, s.overrunCause c]))
      ∧ u.mem = s.mem ∧ u.cores = s.cores
      ∧ (s.tckRole = roleStandalone → u.tck.alone = s.tck.alone ++ [(g, flags)])
      ∧ (s.tckRole = rolePrimary ∨ s.tckRole = roleStandby → u.tck.gather = (s.tck.gathered n g flags).gather)
      ∧ (∀ f, s.tckRole ≠ roleStandalone → s.masters = [f] →
          u.out = (s.sendControl tySlipReq 7 f (leBytes 6 n ++ leBytes 2 g ++ leBytes 1 flags)).out))

/-- R190, R192, R420: a write of TCK_PERIOD announces its values for the 16th tick from now, where they take effect;
enabling a unit sets its role and its state, disabling it turns it OFF; and a LOCKED follower whose source in use has sent no
cell for more than two periods switches to the other master where its cells arrive, else holds over, and is LOST after
HOLD_MAX. The 16th tick exactly, more than two periods, and the switch back from the standby are the model's choices
(assumptions 55 and 57). -/
def Obligations.TickUnitParametersAndStates : Prop :=
  ∀ (s : State),
    (∀ w : Word, s.tckRole = rolePrimary ∨ s.tckRole = roleStandalone → s.tck.change = none →
      50 ≤ bits w.toNat 13 0 → bits w.toNat 13 0 ≤ 10000 → 4 ≤ bits w.toNat 31 24 → bits w.toNat 31 24 ≤ 32 → ∃ u,
        exec (.tckPeriodWrite w) s = .next u ∧ u.mem = s.mem ∧ u.cores = s.cores ∧ u.dies = s.dies
          ∧ ((∀ x ∈ s.formes, x.2.fits (bits w.toNat 13 0) (bits w.toNat 31 24) = true) → u.ctxs = s.ctxs)
          ∧ u.tck.change = some ((s.tick + 16) % 2 ^ 48, bits w.toNat 13 0, bits w.toNat 31 24))
    ∧ (∀ k p t, s.tickDue = true → s.tck.change = some (k, p, t) → k ≤ s.nextTick → p < 2 ^ 14 → t < 2 ^ 8 → ∃ u,
        exec .periodChangeApply s = .next u ∧ u.periodUs = p ∧ u.cutUs = t ∧ u.tck.change = none ∧ SameCompute s u
          ∧ SameRegsBut s u [R.TCK_PERIOD])
    ∧ (∀ w : Word, s.fget F.TCK_CTRL_EN = 0 → bit w.toNat 31 = true → s.fget F.MGT_CAP_SUM_STANDALONE = 0 ∨
        bits w.toNat 27 26 = roleStandalone → ∃ u, exec (.tickUnitEnable w) s = .next u ∧ u.tckRole = bits w.toNat 27 26
          ∧ u.fget F.TCK_CTRL_EN = 1 ∧ SameCompute s u
          ∧ (if bits w.toNat 27 26 = roleFollower ∨ bits w.toNat 27 26 = roleStandby then u.tckState = tckAcquiring
            else u.tckState = tckLocked ∧ u.tck.nextNs = s.nowNs + 1000 * s.periodUs))
    ∧ (∀ w : Word, s.fget F.TCK_CTRL_EN = 1 → bit w.toNat 31 = false → ∃ u, exec (.tickUnitEnable w) s = .next u
        ∧ u.tckState = tckOff ∧ u.fget F.TCK_CTRL_EN = 0 ∧ u.tckRole = s.tckRole ∧ SameCompute s u)
    ∧ (let src := s.fget F.TCK_STAT_SRC
       let mine := if src = 0 then s.tck.lastAt else s.tck.stbAt
       let other := if src = 0 then s.tck.stbAt else s.tck.lastAt
       let back := s.tckRole = roleFollower ∧ s.fget F.TCK_STB_FAB_FAB ≠ 0 ∧ other ≠ 0 ∧ s.timeUs ≤ other + 2 * s.periodUs
       s.tckState = tckLocked → s.follows = true → mine + 2 * s.periodUs < s.timeUs → s.eventRoom 1 →
        ∃ u, exec .tickHoldover s = .next u ∧ SameCompute s u
          ∧ (¬ back → u.tckState = tckHoldover ∧ u.tck.hold = s.timeUs ∧ Raises s u [(0x0406, none, 0, [])])
          ∧ (back → u.tckState = tckLocked ∧ u.fget F.TCK_STAT_SRC = 1 - src ∧ Raises s u [(0x0405, none, 0, [])]))
    ∧ (s.tckState = tckHoldover → s.tck.hold + 1000 * s.fget F.TCK_HOLD_HOLD_MAX ≤ s.timeUs → s.eventRoom 1 → ∃ u,
        exec .tickLost s = .next u ∧ u.tckState = tckLost ∧ Raises s u [(0x0407, none, 0, [])] ∧ SameCompute s u)

/-- R187, R188, R190, R191, R257: a master closes the list of the next tick and sends its cells; a follower measures its
path; a tick cell from the source in use disciplines an ACQUIRING unit; a master notes who asks and answers; an answer
gives the port's delay; and a slip request for an open list joins it, one too late is counted. -/
def Obligations.TickCellsDiscipline : Prop :=
  ∀ (s : State),
    (∀ f t, s.closeDue = true → s.tck.followers = [(f, t)] → s.tick ≤ t + 64 →
      let gs := ((s.tck.gather.filter fun x => x.1 == s.nextTick).map (·.2.1)).dedup
      gs.length ≤ 112 → ∃ u, exec .tickCellSend s = .next u ∧ u.tck.closed = s.nextTick
        ∧ u.out = (s.sendControl tyTick 7 f (s.tickPayload s.nextTick gs false)).out ∧ SameCompute s u)
    ∧ (∀ f, s.tckState ≠ tckOff → s.follows = true → s.tck.delayAt = none → s.masters = [f] → ∃ u,
      exec .delayMeasurement s = .next u ∧ u.tck.delayAt = some s.timeUs ∧ u.tck.delayPorts = [s.portFor f 7]
        ∧ SameCompute s u ∧ ∃ n, s.nowNs ≤ n ∧ n < s.nowNs + 1000 ∧ u.out = (s.sendControl tyDelayReq 7 f (leBytes 8 n)).out)
    ∧ ∀ (p : PortId) (at_ : Nat) (c : Cell) (raw : List Byte), ControlPasses s raw →
      (s.front p tyTick = some (c, raw) → s.tckState = tckAcquiring → s.follows = true → s.fget F.TCK_STAT_SRC = 0 →
        c.src = s.fget F.TCK_PRI_FAB_FAB → s.tck.lists = [] → leAt c.payload 6 1 = 0 →
        ∃ u, exec (.tickCell p at_) s = .next u ∧ u.tick = (leAt c.payload 0 6 + 2 ^ 48 - 1) % 2 ^ 48
          ∧ u.tck.nextNs = ((at_ : Int) + 500 * leAt c.payload 18 1 - s.tck.delays.get 0 p).toNat
          ∧ u.periodUs = leAt c.payload 16 2 % 2 ^ 14 ∧ u.cutUs = leAt c.payload 18 1 ∧ u.tck.lastAt = s.timeUs
          ∧ (u.link p).rxq = (s.link p).rxq.tail ∧ SameCompute s u)
      ∧ (s.front p tyDelayReq = some (c, raw) → s.tckState ≠ tckOff → s.tckRole = rolePrimary ∨ s.tckRole = roleStandby → ∃ u,
        exec (.delayReq p at_) s = .next u ∧ (c.src, s.tick) ∈ u.tck.followers ∧ SameCompute s u
          ∧ ∃ n, s.nowNs ≤ n ∧ n < s.nowNs + 1000 ∧ u.out = ((s.pop p).sendControl tyDelayResp 7 c.src
              (slice c.payload 0 8 ++ leBytes 8 at_ ++ leBytes 8 (Nat.max at_ n))).out)
      ∧ (s.front p tyDelayResp = some (c, raw) → s.tckState ≠ tckOff → s.follows = true →
        let d : Int := (((at_ : Int) - leAt c.payload 0 8) - ((leAt c.payload 16 8 : Int) - leAt c.payload 8 8)) / 2
          + sext 16 (s.fget (F.TCK_ASYM_ASYM_NS p))
        ∃ u, exec (.delayResp p at_) s = .next u ∧ u.tck.delays.get 0 p = d ∧ SameCompute s u
          ∧ (500 * (s.cutUs : Int) - 500 < d → u.fget F.TCK_STAT_PATH_LONG = 1))
      ∧ (s.front p tySlipReq = some (c, raw) → s.tckState ≠ tckOff → s.tckRole = rolePrimary ∨ s.tckRole = roleStandby →
        let n := leAt c.payload 0 6
        let want := bits (leAt c.payload 8 1) 1 0
        (s.tick < n → n ≠ s.tck.closed → ∃ u, exec (.slipReq p) s = .next u ∧ SameCompute s u ∧ u.regs = s.regs
          ∧ ∃ fl, (n, leAt c.payload 6 2, fl) ∈ u.tck.gather ∧ fl ||| want = fl)
        ∧ (n ≤ s.tick ∨ n = s.tck.closed → ∃ u, exec (.slipReq p) s = .next u ∧ u.tck = s.tck ∧ SameCompute s u
          ∧ u.fget F.TCK_OVR_CNT_LATE = satAdd 0xFFF (s.fget F.TCK_OVR_CNT_LATE) 1))

/-! ### The fabric ports and their links (spec/08) -/

/-- R237, R238, R239, R243, R255: enabling a port starts its training and disabling it ends what it does; a port whose
training ends is ACTIVE, or SPARE where it is marked so or has failed before; training that lasts 300 ms, a lost lane and a
link that goes down fail it, with event 0x0501; a failed port trains again by command, or by itself up to three times; the
lowest-numbered SPARE port of its edge die, else of the other, that has not lost the role before takes an ACTIVE port's role,
or event 0x0504 says that there is none; and a degraded port stays as it is. The UNIT and DATA of these events are the model's
choice (assumption 31). -/
def Obligations.PortStates : Prop :=
  ∀ (p : PortId) (s : State),
    let e := p.val / 24
    let j := p.val % 24
    let quiet := (s.link p).waiting = [] ∧ s.ended = []
    (∀ w : Word, s.fget (F.FAB_PORT_CTRL_EN e j) = 0 → bit w.toNat 31 = true → ∃ u, exec (.portEnable p w) s = .next u
      ∧ u.portState p = portTraining ∧ u.fget (F.FAB_PORT_CTRL_EN e j) = 1 ∧ u.fget (F.FAB_PORT_CTRL_SPARE e j) = bits w.toNat 30 30
      ∧ (u.link p).failedAt = s.timeUs ∧ SameCompute s u)
    ∧ (∀ w : Word, s.fget (F.FAB_PORT_CTRL_EN e j) = 1 → bit w.toNat 31 = false → quiet → ∃ u, exec (.portEnable p w) s = .next u
      ∧ u.portState p = portDisabled ∧ u.fget (F.FAB_PORT_CTRL_EN e j) = 0 ∧ SameCompute s u)
    ∧ (∀ w : Word, bit w.toNat 29 = true → s.portState p = portFailed → s.fget (F.FAB_PORT_CTRL_EN e j) = 1 → ∃ u,
      exec (.portRetrain p w) s = .next u ∧ u.portState p = portTraining ∧ SameCompute s u)
    ∧ (s.portState p = portTraining → s.eventRoom 1 → ∃ u, exec (.portTrained p) s = .next u
      ∧ u.portState p = (if (s.link p).failedOnce = true ∨ s.fget (F.FAB_PORT_CTRL_SPARE e j) = 1 then portSpare else portActive)
      ∧ u.fget (F.FAB_PORT_STAT_LANE_LOCK e j) = 0xFF ∧ Raises s u [(0x0502, none, p.val, [])] ∧ SameCompute s u)
    ∧ (s.portState p = portTraining → (s.link p).failedAt + 300000 ≤ s.timeUs → quiet → s.eventRoom 1 → ∃ u,
      exec (.portTrainTimeout p) s = .next u ∧ u.portState p = portFailed ∧ (u.link p).retrains = (s.link p).retrains
      ∧ Raises s u [(0x0501, none, p.val, [])] ∧ SameCompute s u)
    ∧ (s.portState p = portFailed → (s.link p).retrains < 3 → (s.link p).failedAt + 1000000 ≤ s.timeUs → ∃ u,
      exec (.portRetrainTimer p) s = .next u ∧ u.portState p = portTraining ∧ (u.link p).retrains = (s.link p).retrains + 1
      ∧ SameCompute s u)
    ∧ (∀ lane : Fin 8, s.portState p = portSpare ∨ s.portState p = portHold → quiet → s.eventRoom 1 → ∃ u,
      exec (.laneLockLoss p lane) s = .next u ∧ u.portState p = portFailed ∧ bit (u.fget (F.FAB_PORT_STAT_LANE_LOCK e j)) lane = false
      ∧ Raises s u [(0x0501, none, p.val, [])] ∧ SameCompute s u)
    ∧ (∀ (lane : Fin 8), ∀ i ∈ [Instr.linkDownWord p, .laneLockLoss p lane], s.portState p = portActive → quiet → s.eventRoom 2 →
      let unlocked := fun (u : State) => i = .laneLockLoss p lane → bit (u.fget (F.FAB_PORT_STAT_LANE_LOCK e j)) lane = false
      (let role := (s.standsFor p).getD p
       role < 48 → (∀ q : PortId, s.portState q = portSpare → (s.link q).lostRoles.contains role = true) → ∃ u,
        exec i s = .next u ∧ u.portState p = portFailed ∧ (u.link p).replay = [] ∧ SameCompute s u ∧ unlocked u
        ∧ Raises s u [(0x0501, none, p.val, []), (0x0504, none, role, [])])
      ∧ (let fit := fun q : PortId => s.portState q = portSpare ∧ (s.link q).lostRoles.contains p.val = false
         ∀ q : PortId, s.standsFor p = none → fit q →
          (∀ r : PortId, fit r → r.val / 24 = q.val / 24 → q.val ≤ r.val) → (∀ r : PortId, fit r → r.val / 24 = e → q.val / 24 = e) →
          ∃ u, exec i s = .next u ∧ u.portState p = portFailed ∧ u.portState q = portActive ∧ u.standsFor q = some p.val
            ∧ Raises s u [(0x0501, none, p.val, []), (0x0503, none, q.val, [p.val])] ∧ SameCompute s u ∧ unlocked u))
    ∧ (s.linkUp p = true → s.timeUs < (s.link p).uncAt + 1000000 → s.fget F.FAB_FEC_DEG_THRESH < (s.link p).uncMark →
      s.lastEvent.find (0x0505 * 65536 + p) = none → s.eventRoom 1 → ∃ u,
      exec (.portFecDegraded p) s = .next u ∧ u.portState p = s.portState p ∧ Raises s u [(0x0505, none, p.val, [])]
      ∧ SameCompute s u ∧ u.regs = s.regs)

/-- R240 to R242: a good frame in sequence is accepted: its cell waits for the command that takes it and the next LSEQ is
expected; one that fails its LCRC, or holds an uncorrectable codeword, is counted in LCRC_FAIL, dropped and answered with one
NAK; an ACK frees the frames up to its LSEQ; a NAK, and 4 µs without an answer, send the frames that are left again; and frames
owed an ACK get one. Cells that wait for a credit or for room leave after them (assumption 35). -/
def Obligations.LinkFramesAndReplay : Prop :=
  ∀ (p : PortId) (s : State),
    (∀ (c : Cell) (cell : List Byte) (credit corrected : Nat), cell.length = 280 → Cell.parse cell = c →
      typeOk c.type c.tc = true → s.portState p = portActive → (s.link p).rxSeq < 4096 → credit < 65536 →
      (s.link p).waiting = [] → ∃ u,
        exec (.linkFrame p (frameBytes cell (s.link p).rxSeq credit) corrected 0) s = .next u
        ∧ (u.link p).rxq = (s.link p).rxq ++ [cell] ∧ (u.link p).rxSeq = ((s.link p).rxSeq + 1) % 4096
        ∧ (u.link p).nakked = false ∧ SameCompute s u)
    ∧ (∀ (frame : List Byte) (corrected unc : Nat), s.linkUp p = true → frame.length = 288 →
        0 < unc ∨ crc32 (frame.take 280 ++ leBytes 4 (leAt frame 284 4)) ≠ leAt frame 280 4 → ∃ u,
        exec (.linkFrame p frame corrected unc) s = .next u ∧ (u.link p).rxq = (s.link p).rxq
        ∧ (u.link p).rxSeq = (s.link p).rxSeq ∧ (u.link p).nakked = true
        ∧ Bumped s u (F.FAB_LINK_RPL_LCRC_FAIL (p / 24) (p % 24))
        ∧ u.out = s.out ++ (if (s.link p).nakked = true then []
            else [⟨.word, p, leBytes 1 wordNak ++ leBytes 2 (s.link p).rxSeq⟩]) ∧ SameCompute s u)
    ∧ (∀ (n : Fin 4096) (f : Frame) (r : List Frame), (s.link p).replay = f :: r → f.lseq = n → (s.link p).waiting = [] → ∃ u,
        exec (.linkAck p n) s = .next u ∧ (u.link p).replay = r ∧ u.regs = s.regs ∧ SameCompute s u)
    ∧ (∀ (n : Fin 4096) (f : Frame) (r : List Frame), (s.link p).replay = f :: r → f.lseq = n → s.linkUp p = true →
        (s.link p).waiting = [] → s.ended = [] → (∀ x ∈ f :: r, x.tries < 9) → ∃ u, exec (.linkNak p n) s = .next u
          ∧ (u.link p).replay = (f :: r).map (fun x => { x with tries := x.tries + 1 })
          ∧ u.out.length = s.out.length + (r.length + 1) ∧ SameCompute s u)
    ∧ (∀ (f : Frame) (r : List Frame), (s.link p).replay = f :: r → s.linkUp p = true →
        (s.link p).quietAt + 4 ≤ s.timeUs → s.ended = [] → (∀ x ∈ f :: r, x.tries < 9) → ∃ u,
        exec (.linkReplayTimeout p) s = .next u ∧ (u.link p).replay = (f :: r).map (fun x => { x with tries := x.tries + 1 })
          ∧ u.out.length = s.out.length + (r.length + 1) ∧ SameCompute s u)
    ∧ (∀ (f : Frame) (r : List Frame), (s.link p).replay = f :: r → s.linkUp p = true → (s.link p).quietAt + 4 ≤ s.timeUs →
        9 ≤ f.tries → (s.link p).waiting = [] → s.ended = [] → ∃ u, exec (.linkReplayTimeout p) s = .next u ∧ u.portState p = portFailed ∧ (u.link p).replay = [] ∧ SameCompute s u)
    ∧ ((s.link p).owed ≠ 0 → ∃ u, exec (.linkAckTimer p) s = .next u ∧ (u.link p).owed = 0 ∧ u.regs = s.regs
        ∧ u.out = s.out ++ [⟨.word, p, leBytes 1 wordAck ++ leBytes 2 (((s.link p).rxSeq + 4095) % 4096)⟩] ∧ SameCompute s u)

/-! ### Cells (spec/08) -/

/-- R246, R250, R251, R218: what an arriving data cell does once it has passed the checks of R250: a cell of a WRITE that is
not its last joins what has come of the request, each landing behind the one before, and lands nothing; the last, or the only
one, lands the request's bytes and only them, a fingerprint record of TC0 at its own place in its line (that a request lands
whole, and the record's place, are the model's choices, assumptions 38 and 96); a READ_REQ is answered with READ_DATA in sequence; READ_DATA lands when the response is whole; an ACK ends
its request; a QUPD adds to its quoin once; a BUCKET unit that Table 9-7 admits stands in its frame; and a cell whose source is
no peer changes nothing but its count, whichever command takes it. -/
def Obligations.DataCellsTakeEffect : Prop :=
  ∀ (p : PortId) (s : State) (c : Cell) (raw : List Byte), s.ended = [] →
    let taken := fun (u : State) => (u.link p).rxq = (s.link p).rxq.tail
    (∀ (start : Nat) (got : List Byte),
      (let old := if c.resync = true then none else (s.rxFlow c.src c.tc).req
       (old = none ∧ start = 64 * c.addr ∧ got = []) ∨ old = some ⟨0, false, start, got⟩) →
      s.front p tyWrite = some (c, raw) → DataPasses s c raw (start + got.length) →
      let l := got ++ c.used
      let x := if c.tc = 0 then s.fpLanding c.ctx start l else (start, l)
      (c.last = false → ∃ u, exec (.writeCell p) s = .next u ∧ taken u ∧ SameCompute s u
        ∧ (u.rxFlow c.src c.tc).req = some ⟨0, false, start, l⟩)
      ∧ (c.last = true → s.arrival c.ctx true start l.length = .land → LandsClean s x.1 → (s.ctx c.ctx).streams = [] → ∃ u,
        exec (.writeCell p) s = .next u ∧ taken u ∧ Stored s u x.1 x.2 ∧ (∀ g, u.core g = s.core g) ∧ u.ctxs = s.ctxs))
    ∧ (let n := 64 * (leAt c.payload 6 1 + 1)
       s.front p tyReadReq = some (c, raw) → DataPasses s c raw (64 * c.addr) → s.arrival c.ctx false (64 * c.addr) n = .land →
       s.clean → ∃ u, exec (.readReqCell p) s = .next u ∧ taken u ∧ SameCompute s u ∧ ∀ x, s.peer c.src = some x →
        ∃ y, u.peer c.src = some y
          ∧ (y.tx.get TxFlow.new c.tc).seq = ((x.tx.get TxFlow.new c.tc).seq + (n + 255) / 256) % 2 ^ 24)
    ∧ (∀ x idx unit k, s.front p tyReadData = some (c, raw) → DataPasses s c raw (64 * c.addr) → s.ctxState c.ctx = ctxRunning →
      s.xfers.find? (fun x => x.kind == .read && x.fab == c.src && x.tc == c.tc && x.ctx == c.ctx
        && x.ret + x.got.length == 64 * c.addr) = some x →
      (x.got.length + c.used.length < x.len → c.last = false → ∃ u y, exec (.readDataCell p) s = .next u ∧ taken u
        ∧ SameCompute s u ∧ u.xfer? x.id = some y ∧ y.got = x.got ++ c.used)
      ∧ (x.len ≤ x.got.length + c.used.length → x.owner = .pull c.ctx idx unit k → (s.ctx c.ctx).streams = [] →
          isMem x.ret = true → s.xfeReach c.ctx true x.ret x.len = true → s.clean → s.memOk → ∃ u, exec (.readDataCell p) s = .next u ∧ taken u
          ∧ Stored s u x.ret ((x.got ++ c.used).take x.len) ∧ u.xfer? x.id = none ∧ u.cores = s.cores))
    ∧ (∀ x, s.front p tyAck = some (c, raw) → DataPasses s c raw 0 → leAt c.payload 3 1 = 0 →
      (s.xfers.filter fun y => y.fab == c.src && !y.busy).find?
        (fun y => (y.seq + y.cells - 1) % 2 ^ 24 == leAt c.payload 0 3) = some x → x.kind ≠ .read → x.owner = .quoin →
      ∃ u, exec (.ackCell p) s = .next u ∧ taken u ∧ u.xfers = s.xfers.filter (fun y => y.id != x.id) ∧ SameCompute s u)
    ∧ (s.front p tyQupd = some (c, raw) → DataPasses s c raw 0 →
      s.ctxState c.ctx ≠ ctxFree → s.ctxState c.ctx ≠ ctxTearing → s.ctxState c.ctx ≠ ctxFaulted →
      let q := leAt c.payload 0 2 % 1024
      let d := leAt c.payload 0 2 / 1024 % 4
      let id := leAt c.payload 4 2
      ((s.rxFlow c.src c.tc).upd ≠ some id → (∃ f, (s.ctx c.ctx).forme = some f
          ∧ (f.quoins.any fun r => r.die == d && r.num == q && r.remote) = true) → ∃ u, exec (.qupdCell p) s = .next u
        ∧ taken u ∧ u.quoin (32 * d) q = (s.quoin (32 * d) q + leAt c.payload 2 2) % 2 ^ 32
        ∧ (u.rxFlow c.src c.tc).upd = some id ∧ u.mem = s.mem)
      ∧ ((s.rxFlow c.src c.tc).upd = some id → ∃ u, exec (.qupdCell p) s = .next u ∧ taken u ∧ SameCompute s u))
    ∧ (∀ (r : RUnit) l, s.front p tyBucket = some (c, raw) → DataPasses s c raw (64 * c.addr) → c.last = true →
      c.resync = true ∨ (s.rxFlow c.src c.tc).req = none → s.ctxState c.ctx = ctxRunning →
      s.inStaging c.ctx (64 * c.addr) = true → RUnit.parse c.used = some r →
      s.lay c.ctx (bits r.tag 27 12) (bits r.tag 59 44) = some l → r.tag / 2 ^ 60 = c.ctx →
      bits r.tag 43 28 = (s.ctx c.ctx).step % 65536 → r.tag % 4096 < l.segCount → r.dir = 0 ∨ l.d.kind = 2 →
      (l.span (r.tag % 4096) r.dir).1 ≤ r.first →
      r.first + r.n ≤ (l.span (r.tag % 4096) r.dir).1 + (l.span (r.tag % 4096) r.dir).2 → l.inRange r = true → r.phase = 0 →
      (∀ f ∈ (s.coll c.ctx).frames, f.addr ≠ 64 * c.addr) → LandsClean s (64 * c.addr) →
      ∃ u, exec (.bucketCell p) s = .next u ∧ taken u ∧ Stored s u (64 * c.addr) c.used
        ∧ (u.coll c.ctx).frames = (s.coll c.ctx).frames ++ [⟨64 * c.addr, c.used.length, .arrived, c.used.take 64⟩])
    ∧ (∀ x ∈ [(Instr.writeCell p, tyWrite), (.readReqCell p, tyReadReq), (.readDataCell p, tyReadData), (.ackCell p, tyAck),
        (.qupdCell p, tyQupd), (.bucketCell p, tyBucket)], s.front p x.2 = some (c, raw) → s.peer c.src = none →
      ∃ u, exec x.1 s = .next u ∧ SameCompute s u ∧ taken u
        ∧ u.fget F.FAB_SRC_DROP_UNKNOWN = satAdd 0xFFFF (s.fget F.FAB_SRC_DROP_UNKNOWN) 1)

/-- R256: SPARE takes effect only while EN is 0: a write while EN is 1 leaves it as it is. -/
def Obligations.SpareTakesEffectOnlyWhileDisabled : Prop :=
  ∀ (p : PortId) (w : Word) (s : State), ∃ u, exec (.portEnable p w) s = .next u
    ∧ (s.fget (F.FAB_PORT_CTRL_EN (p / 24) (p % 24)) = 0 →
        u.fget (F.FAB_PORT_CTRL_SPARE (p / 24) (p % 24)) = bits w.toNat 30 30)
    ∧ (s.fget (F.FAB_PORT_CTRL_EN (p / 24) (p % 24)) = 1 →
        u.fget (F.FAB_PORT_CTRL_SPARE (p / 24) (p % 24)) = s.fget (F.FAB_PORT_CTRL_SPARE (p / 24) (p % 24)))

/-- R254, R259, R260, R262: a write of FAB_ROUTE_MHI commits the whole entry; a part of a membership epoch of which others are
missing is kept and changes nothing else; the epoch whose last part arrives, one of one part or of several, becomes this
module's epoch, makes the peers that its parts remove EVICTED, those that they add VALID, and those that had LEFT and are not
removed VALID again, their flows to start with RESYNC; it fences this module, whose waiting data cells are dropped, or lifts its
fence. LEAVING marks its sender LEFT, where it is not EVICTED, and raises event 0x050A. The DATA of events 0x0508, 0x0509 and
0x050A is the model's choice (assumption 31). -/
def Obligations.MembershipAndRoutes : Prop :=
  ∀ (s : State),
    (∀ (i : Fin 1024) (w : Word), ∃ u, exec (.routeCommit i w) s = .next u ∧ SameCompute s u
      ∧ u.routes.find i = some ⟨s.fget (F.FAB_ROUTE_K_VALID i) == 1, s.fget (F.FAB_ROUTE_K_LEN i), s.fget (F.FAB_ROUTE_K_PREFIX i),
          s.rget (R.FAB_ROUTE_MLO i) + 2 ^ 32 * bits w.toNat 15 0⟩
      ∧ ∀ j, j ≠ i.val → u.routes.find j = s.routes.find j)
    ∧ ∀ (p : PortId) (c : Cell) (raw : List Byte), ControlPasses s raw → s.ended = [] → s.xfers = [] →
      (∀ d : CtxId, (s.ctx d).streams = []) →
      (s.front p tyMembership = some (c, raw) → s.fget F.FAB_MGR_VALID = 1 → c.src = s.fget F.FAB_MGR_FAB →
        let e := leAt c.payload 0 4
        let me := s.fget F.FAB_SELF_FAB
        let part := leAt c.payload 4 1
        let m : MembPart := ⟨e, part, bit (leAt c.payload 5 1) 0, fabList c.payload 8 (leAt c.payload 6 1),
          fabList c.payload 128 (leAt c.payload 7 1)⟩
        let parts := s.parts.filter (fun x => !(x.epoch == e && x.part == part)) ++ [m]
        s.rget R.FAB_MEMB_EPOCH < e → s.eventRoom 2 →
        (wholeParts parts e 16 0 = none → ∃ u, exec (.membershipCell p) s = .next u ∧ u.parts = parts ∧ u.peers = s.peers
          ∧ u.regs = s.regs ∧ u.evq = s.evq ∧ SameCompute s u)
        ∧ ∀ l, wholeParts parts e 16 0 = some l →
          let removed := (l.map (·.removed)).flatten
          let added := (l.map (·.added)).flatten
          ∃ u, exec (.membershipCell p) s = .next u ∧ u.rget R.FAB_MEMB_EPOCH = e ∧ u.fget F.FAB_MEMB_STAT_VIEW = 1
          ∧ Raises s u ((0x0508, none, 0, [e]) :: if removed.contains me = true then [(0x0509, none, 0, [e])] else [])
          ∧ u.mem = s.mem ∧ u.cores = s.cores
          ∧ u.peers = s.peers.map (fun q => if removed.contains q.fab = true then { q with st := .evicted }
              else if added.contains q.fab = true ∨ q.st = .left then q.renewed else q)
          ∧ (removed.contains me = true → u.fget F.FAB_MEMB_STAT_FENCED = 1
              ∧ ∀ q : PortId, ∀ x ∈ (u.link q).waiting, isControl (Cell.parse x.2).type = true)
          ∧ (removed.contains me = false → added.contains me = true → u.fget F.FAB_MEMB_STAT_FENCED = 0))
      ∧ (s.front p tyLeaving = some (c, raw) → s.eventRoom 1 → ∃ u,
        exec (.leavingCell p) s = .next u ∧ u.mem = s.mem ∧ u.cores = s.cores ∧ Raises s u [(0x050A, none, 0, [c.src])]
          ∧ u.peers = s.peers.map fun q => if q.fab = c.src ∧ q.st ≠ .evicted then { q with st := .left } else q)

/-! ### The planes (spec/00, spec/13) -/

/-- R26, R27, R384: a silent management core leaves MGC_ALIVE and a heard one returns to it; without MGC2 and MGC3 but
with MGC0 or MGC1 the management plane is down, with event 0x0901, and the commands that wait for cores are held; with one of
them back, what was held proceeds; a command held for 100 ms completes with MGMT_UNAVAILABLE; and the heartbeat is sent with its
sequence number, as a datagram from MGMT_PORT to MGR_ADDR. That a command waiting for cores is held and one that the plane has
acted on is not, and the UNIT and DATA of event 0x0901, are the model's choices (assumptions 71 and 31). -/
def Obligations.PlanesGoDownAndReturn : Prop :=
  ∀ (s : State),
    (∀ m : MgcId, bit (s.fget F.MGT_PLANE_STAT_MGC_ALIVE) m = true → ∃ u, exec (.mgcHeartbeatSilent m) s = .next u
      ∧ u.fget F.MGT_PLANE_STAT_MGC_ALIVE = s.fget F.MGT_PLANE_STAT_MGC_ALIVE - 2 ^ m.val ∧ SameCompute s u
      ∧ SameRegsBut s u [R.MGT_PLANE_STAT])
    ∧ (∀ m : MgcId, s.running = true → s.fget F.MGT_PLANE_STAT_CTRL_DOWN = 0 → s.fget F.MGT_PLANE_STAT_MGMT_DOWN = 0 → ∃ u,
      exec (.mgcHeartbeatResumed m) s = .next u ∧ bit (u.fget F.MGT_PLANE_STAT_MGC_ALIVE) m = true ∧ SameCompute s u
      ∧ SameRegsBut s u [R.MGT_PLANE_STAT])
    ∧ (s.running = true → s.fget F.MGT_PLANE_STAT_MGC_ALIVE / 4 = 0 →
      s.fget F.MGT_PLANE_STAT_MGC_ALIVE % 4 ≠ 0 → s.fget F.MGT_PLANE_STAT_MGMT_DOWN = 0 → s.eventRoom 1 →
      ∃ u, exec .managementPlaneDown s = .next u ∧ u.fget F.MGT_PLANE_STAT_MGMT_DOWN = 1
      ∧ bit (u.fget F.MGT_HANG_STAT_DET) 10 = true ∧ Raises s u [(0x0901, none, 0, [11])] ∧ u.mem = s.mem ∧ u.cores = s.cores
      ∧ ∀ (c : CtxId) (r : RingId), u.ctxState c = s.ctxState c
        ∧ (∀ k, (s.ring c r).cur = some k → k.stage = .waitCores → transientState (s.ctxState c) = false →
          (u.ring c r).cur = some { k with stage := .heldMgmt })
        ∧ ((∀ k, (s.ring c r).cur = some k → k.stage = .waitCores → transientState (s.ctxState c) = true) →
          u.ring c r = s.ring c r))
    ∧ (∀ m : Fin 2, s.fget F.MGT_PLANE_STAT_MGMT_DOWN = 1 → ∃ u, exec (.managementPlaneReturn m) s = .next u
      ∧ u.fget F.MGT_PLANE_STAT_MGMT_DOWN = 0 ∧ u.fget F.MGT_PLANE_STAT_HELD_CMDS = 0 ∧ u.mem = s.mem ∧ u.cores = s.cores
      ∧ bit (u.fget F.MGT_PLANE_STAT_MGC_ALIVE) (2 + m) = true
      ∧ ∀ (c : CtxId) (r : RingId) (k : Cmd), (s.ring c r).cur = some k → k.stage = .heldMgmt → s.timeUs < k.since + 100000 →
        (u.ring c r).cur = some { k with stage := .taken })
    ∧ (∀ (c : CtxId) (r : RingId) (k : Cmd), (s.ring c r).cur = some k → k.stage = .heldMgmt → k.since + 100000 ≤ s.timeUs →
      ∃ u, exec (.heldCommandTimeout c r) s = .next u ∧ Completes s u c r k stMgmtUnavailable 0 0
        ∧ u.fget F.MGT_PLANE_STAT_HELD_CMDS = s.fget F.MGT_PLANE_STAT_HELD_CMDS - 1 ∧ u.mem = s.mem
        ∧ u.cores = s.cores)
    ∧ (s.running = true → s.fget F.MGT_PLANE_STAT_MGMT_DOWN = 0 →
      s.hpt.hbAt + 1000 * s.fget F.MGT_HANG_CTRL_HB_PERIOD_MS ≤ s.timeUs → s.prioFree 7 → ∃ u, exec .mgmtHeartbeat s = .next u
        ∧ u.out = s.out ++ [⟨.ether, 7, s.datagram s.hpt.cfg.mgrAddr s.hpt.cfg.mgmtPort s.heartbeat⟩] ∧ u.hpt.hbSeq = (s.hpt.hbSeq + 1) % 2 ^ 32 ∧ u.hpt.hbAt = s.timeUs
        ∧ u.regs = s.regs ∧ SameCompute s u)

/-! ### Hang detection, resets and the colophon (spec/12) -/

/-- Table 12-2, R202, R361, R371: each detector whose condition holds fires on its unit, and a capture begins that waits to
apply the detector's action: the core's reset for detectors 1, 2 and 6, the die's for 3 on an HBM bank, the context's
teardown for 4 and 5, a warm reset for 3 on an LPDDR5X bank and for 7 to 10 (while fewer than LIMIT warm decisions lie in the
window, R365). A copy whose banks are those of two dies has the second die's reset wait. What counts as a bridge's queued
traffic, and the banks of a copy, are the model's reading (assumption 103), as the UNIT and DATA of event 0x0901 (31). -/
def Obligations.DetectorsBeginCaptures : Prop :=
  ∀ (s : State), MayDetect s →
    (∀ (g : CoreId) (u : Fin 3), s.engineHung g u = true → ∃ t, exec (.engineWatchdog g u) s = .next t
      ∧ Fires t 1 g (.core g) ∧ t.mem = s.mem)
    ∧ (∀ (g : CoreId) (k : Fin 8), s.live g = true → s.thrCode g k = 1 →
      (s.core g).thrAt.getD k 0 + 1000 * s.fget F.MGT_HANG_CTRL_ENG_WDOG_MS ≤ s.timeUs → ∃ t,
        exec (.threadWatchdog g k) s = .next t ∧ Fires t 2 g (.core g) ∧ t.mem = s.mem)
    ∧ (∀ (g : CoreId) (i : Fin 4096) (x : Slot), ((s.core g).slots ++ (s.core g).waits)[i.val]? = some x →
      x.issued + 1000 * s.fget F.MGT_HANG_CTRL_XFER_TO_MS ≤ s.timeUs → s.live g = true →
      x.req.kind = .copy ∨ x.req.kind = .zero →
      (∀ d, (∃ b ∈ [x.req.bank, x.req.bank2], b < 0x20000) →
        (∀ b ∈ [x.req.bank, x.req.bank2], b < 0x20000 → b < 0x10000 ∧ b / 512 / 3 = d) →
        ∃ t, exec (.transferTimeout g i) s = .next t ∧ Fires t 3 g (.die d) ∧ t.mem = s.mem)
      ∧ (∀ d e, x.req.bank < 0x10000 → x.req.bank / 512 / 3 = d → x.req.bank2 < 0x10000 → x.req.bank2 / 512 / 3 = e → d ≠ e →
        ∃ t, exec (.transferTimeout g i) s = .next t ∧ Fires t 3 g (.die d) ∧ t.rst.waiting = s.rst.waiting ++ [(.die e, 3)]
          ∧ t.mem = s.mem))
    ∧ (∀ (g : CoreId) (c : Nat) (r : Refetch), s.occupant g = some c → s.live g = true → r ∈ (s.core g).refetch → r.done = false →
      s.quoin g r.fill.gq % 2 = 1 → r.since + 1000 * s.fget F.MGT_HANG_CTRL_XFER_TO_MS ≤ s.timeUs → ∃ t,
        exec (.generationWait g) s = .next t ∧ Fires t 4 g (.ctxDown c) ∧ t.mem = s.mem)
    ∧ (∀ (c : CtxId), s.ctxState c = ctxRunning → (s.ctx c).faultStop = false → s.eventRoom 2 →
      1000 * s.fget F.TCK_OVR_LIMIT_LIMIT_MS < (s.ctx c).slipTicks * s.periodUs → ∃ t, exec (.overrunLimit c) s = .next t
        ∧ Fires t 5 c (.ctxDown c) ∧ (∃ e ∈ t.evq, e.says = (0x0403, some c.val, 0, [(s.ctx c).pos.imp])) ∧ t.mem = s.mem)
    ∧ (∀ (c : CtxId) (g n : Nat), s.ctxState c = ctxTearing → (s.ctx c).tearing = some n → s.occupied c = [g] →
      n + 300 ≤ s.timeUs → ∃ t, exec (.teardownTimeout c) s = .next t ∧ Fires t 6 g (.core g)
        ∧ t.mem = s.mem)
    ∧ (s.countWarm.2 = .warm →
      (∀ (g : CoreId) (i : Fin 4096) (x : Slot), ((s.core g).slots ++ (s.core g).waits)[i.val]? = some x →
        x.issued + 1000 * s.fget F.MGT_HANG_CTRL_XFER_TO_MS ≤ s.timeUs → s.live g = true →
        x.req.kind = .copy ∨ x.req.kind = .zero → (∃ b ∈ [x.req.bank, x.req.bank2], 0x10000 ≤ b ∧ b < 0x20000) → ∃ t,
          exec (.transferTimeout g i) s = .next t ∧ Fires t 3 g .warm ∧ t.mem = s.mem)
      ∧ (∀ u : Fin 22, s.edgeEngineHung u (1000 * s.fget F.MGT_HANG_CTRL_ENG_WDOG_MS) = true → ∃ t,
          exec (.edgeEngineWatchdog u) s = .next t ∧ Fires t 7 u .warm ∧ t.mem = s.mem)
      ∧ (∀ b : Fin 12, s.bridgeStalled b = true → ∃ t, exec (.bridgeStall b) s = .next t
          ∧ Fires t 8 b .warm ∧ t.mem = s.mem)
      ∧ (s.phase ≠ .recovering → s.fget F.MGT_PLANE_STAT_MGC_ALIVE % 4 = 0 → s.fget F.MGT_PLANE_STAT_MGC_ALIVE / 4 ≠ 0 →
          s.fget F.MGT_PLANE_STAT_MGMT_DOWN = 0 → s.fget F.MGT_PLANE_STAT_CTRL_DOWN = 0 → ∃ t,
          exec .controlPlaneDown s = .next t ∧ Fires t 9 0 .warm ∧ t.fget F.MGT_PLANE_STAT_CTRL_DOWN = 1 ∧ t.mem = s.mem)
      ∧ (s.fget F.MGT_PLANE_STAT_MGC_ALIVE = 0 → s.rst.silentAt + 990000 ≤ s.timeUs → ∃ t,
          exec .secWatchdog s = .next t ∧ Fires t 10 0 .warm ∧ t.mem = s.mem))

/-- R372, R373, R358: a scan unit that does not answer is listed; a capture whose sections are all read ends with its
record in colophon RAM, what the capture read of its units with it, and event 0x0907, and its reset is applied: a core's clears
its memory and its state. The DATA of events 0x0907 and 0x0902 is the model's choice (assumption 31). -/
def Obligations.CapturesEndAndResetsApply : Prop :=
  ∀ (s : State) (k : Capture Event Snap), s.rst.capture = some k →
    (∀ u : Fin 32768, k.since + 10 ≤ s.timeUs → k.record.unreach.contains u.val = false → ∃ t x,
      exec (.scanTimeout u) s = .next t ∧ t.rst.capture = some x ∧ x.record.unreach = k.record.unreach ++ [u.val]
        ∧ x.act = k.act ∧ t.regs = s.regs ∧ SameCompute s t)
    ∧ (∀ i : Fin 4, k.slot = some i.val → s.rst.ram.length = 4 → k.record.full = true → k.record.unreach = [] →
      s.rst.waiting = [] → s.rst.running = [] → s.ended = [] → s.eventRoom 2 →
      (∀ c, k.act = .ctxDown c → ∃ t r, exec (.captureEnd 0) s = .next t ∧ t.rst.capture = none
        ∧ t.rst.ram.getD i none = some r ∧ r.seq = k.record.seq ∧ r.sectMask = 0x7F ∧ r.events = s.evLog
        ∧ r.captureUs = s.timeUs - k.since ∧ r.snap = some (s.snapshot k.act) ∧ bit (t.fget F.COL_STAT_RAM_VALID) i = true
        ∧ t.fget F.MGT_RST_STAT_RSTATE = s.restRstate
        ∧ Raises s t [(0x0907, none, 0, [k.record.seq])] ∧ t.mem = s.mem ∧ t.cores = s.cores ∧ t.dies = s.dies)
      ∧ (∀ g : CoreId, k.act = .core g → s.occupant g = none → ∃ t, exec (.captureEnd 0) s = .next t
        ∧ t.rst.running = [(.core g, s.timeUs)] ∧ t.core g = Core.reset ∧ (∀ h, h ≠ g.val → t.core h = s.core h)
        ∧ (∀ a, place a = .ls g ∨ place a = .oc g → t.byte a = 0) ∧ t.fget F.MGT_RST_STAT_RSTATE = 2
        ∧ t.fget F.MGT_RST_STAT_LAST_DOMAIN = 1
        ∧ Raises s t [(0x0907, none, 0, [k.record.seq]), (0x0902, none, g.val, [s.rst.lastDet % 16])]))

/-- R363 to R369, R16, R449, Table 12-1: a core or die reset that ends leaves the list of those under way, with what it lost out
of the capability registers, a die whose last bridge to an edge die is lost as a whole; one that has missed its longest
duration is replaced by the next larger, with event 0x090D; an ordered warm reset clears memory and leaves the module in its
reset, a cold one boots it again; the first heartbeat of the verified firmware has a warm recovery go on, and its end makes the
module READY or leaves the code of an image that fails; and a recovery that has not reached READY in 6 s restarts. The UNIT and
DATA of events 0x090D and 0x0B01 are the model's choice (assumption 31). -/
def Obligations.ResetsAreOrderedAndEnd : Prop :=
  ∀ (s : State),
    (∀ (g : CoreId) (n : Nat), s.rst.running = [(.core g, n)] → s.rst.capture = none → ∃ u, exec (.coreResetDone g true) s = .next u
      ∧ u.rst.running = [] ∧ u.fget F.MGT_RST_STAT_RSTATE = s.restRstate ∧ SameRegsBut s u [R.MGT_RST_STAT] ∧ SameCompute s u)
    ∧ (∀ (d : DieId) (cores : BitVec 32) (hbm : BitVec 3) (bridges : BitVec 4) (n : Nat), s.rst.running = [(.die d, n)] →
      s.rst.capture = none → s.pwr.tripped.contains d.val = false →
      let left := fun i : Nat => bit (s.fget (F.MGT_CAP_DIE_BRIDGES d)) i && !bridges.getLsbD i
      let gone := (bridges.getLsbD 0 || bridges.getLsbD 1) && !left 0 && !left 1
      ∃ u, exec (.dieResetDone d cores ⟨hbm, bridges⟩) s = .next u ∧ u.rst.running = []
        ∧ u.fget F.MGT_RST_STAT_RSTATE = s.restRstate ∧ u.mem = s.mem ∧ u.cores = s.cores
        ∧ (∀ i : Fin 32, bit (u.fget (F.MGT_CAP_CORE_CORES d)) i
            = (bit (s.fget (F.MGT_CAP_CORE_CORES d)) i && !cores.getLsbD i && !gone))
        ∧ (∀ i : Fin 3, bit (u.fget (F.MGT_CAP_DIE_HBM d)) i = (bit (s.fget (F.MGT_CAP_DIE_HBM d)) i && !hbm.getLsbD i && !gone))
        ∧ (∀ i : Fin 4, bit (u.fget (F.MGT_CAP_DIE_BRIDGES d)) i = (left i && !gone))
        ∧ bit (u.fget F.MGT_CAP_SUM_CD_PRESENT) d = (bit (s.fget F.MGT_CAP_SUM_CD_PRESENT) d && !gone))
    ∧ (∀ (g : CoreId) (n : Nat), s.rst.running = [(.core g, n)] → n + 1000 ≤ s.timeUs → s.rst.capture = none → s.noneResumes →
      s.captureSlot.isSome = true → s.ended = [] → s.eventRoom 1 → ∃ u k, exec .resetEscalated s = .next u
        ∧ u.rst.running = [] ∧ u.rst.capture = some k ∧ k.act = .die (g.val / 32)
        ∧ (∃ e ∈ u.evq, e.says = (0x090D, none, g.val, [1])) ∧ u.mem = s.mem)
    ∧ (s.phase = .resetting ∨ s.phase = .recovering → s.rst.capture = none → s.rst.decided + 6000000 ≤ s.timeUs →
      s.countRestart.countWarm.2 = .warm → ∃ u, exec .recoveryRestarted s = .next u ∧ u.phase = .resetting
        ∧ u.rst.decided = s.timeUs ∧ u.rst.running = s.resetsAfter .warm ∧ u.evq.map Event.says = [(0x090E, none, 0, [])]
        ∧ u.mem = [])
    ∧ (∀ w : Word, bits w.toNat 31 16 = 0x574B → bit w.toNat 0 = true → bit w.toNat 1 = false → bit w.toNat 2 = false →
      s.phase = .starting ∨ s.phase = .ready → s.rst.capture = none → s.countWarm.2 = .warm → ∃ u, exec (.warm w) s = .next u
        ∧ u.phase = .resetting ∧ u.mem = [] ∧ (∀ g, u.core g = Core.reset) ∧ (∀ c, u.ctx c = Ctx.reset)
        ∧ u.rst.running = s.resetsAfter .warm ∧ u.fget F.MGT_RST_STAT_RSTATE = 2 ∧ u.fget F.MGT_RST_STAT_LAST_DET = 0)
    ∧ (s.running = true → ∃ u, exec .cold s = .next u ∧ u.mem = [] ∧ (∀ g, u.core g = Core.reset)
        ∧ (∀ c, u.ctx c = Ctx.reset) ∧ u.fget F.SEC_BOOT_STAT_RESULT = s.bootCheck
        ∧ u.phase = (if s.bootCheck = 0 ∧ s.fget F.SEC_BOOT_CTRL_NET_NEXT = 0 then .starting else .network))
    ∧ (s.phase = .resetting → s.rst.capture = none → s.bootCheck = 0 → s.eventRoom 1 → ∀ m : MgcId, ∃ u,
        exec (.mgcHeartbeatResumed m) s = .next u ∧ u.phase = .recovering ∧ u.fget F.MGT_PLANE_STAT_MGC_ALIVE = 15
        ∧ u.fget F.MGT_RST_STAT_RSTATE = 3 ∧ Raises s u [(0x0B01, none, 0, [0])] ∧ SameCompute s u)
    ∧ (∀ absent mhz, s.rst.capture = none →
        (s.phase = .resetting → s.bootCheck ≠ 0 → ∃ u, exec (.warmRecoveryDone absent mhz) s = .next u ∧ u.phase = .resetting
          ∧ u.fget F.SEC_BOOT_STAT_RESULT = s.bootCheck ∧ SameCompute s u)
        ∧ (s.phase = .recovering ∨ (s.phase = .resetting ∧ s.bootCheck = 0) →
          (s.warmStart.reportUnits absent mhz).serviceable = true → ∃ u, exec (.warmRecoveryDone absent mhz) s = .next u
            ∧ u.phase = .ready ∧ u.rst.running = s.rst.running.filter (fun p => p.1 != ResetAct.warm)
            ∧ u.fget F.MGT_RST_STAT_RSTATE = (if u.rst.running.isEmpty then 0 else 2) ∧ u.mem = s.mem))

/-- R375 to R377, Table 12-7: a persist begins with the measurement of the energy ½C(V² − V_min²), at the first one of a record and
at a repeated one, and writes a body to the next flash slot: the record at 12 J or more, below that its summary at 1.5 J or more
unless that is written already, and below 1.5 J nothing, with event 0x090A. It ends with the header and event 0x0908 or 0x0909;
a persist that an input failure meets goes on only where the energy, measured again, covers what is left, else the summary goes
to the next slot. PWR measures the bank capacitance after a reset. The two commands of a persist, the free number of bytes left
and the UNIT and DATA of the events are the model's choices (assumptions 70 and 31). -/
def Obligations.ColophonsPersist : Prop :=
  ∀ (s : State), s.rst.flash.length = 32 → s.rst.measuredAt.length = 4 →
    let next := s.rst.nextFlash % 32
    let waits := s.pwr.bad = true ∧ s.pwr.byPin = false ∧ s.level 0 = true
    (∀ (i : Instr) (mv : Nat) (k : Fin 4) (r : ColRecord), s.mayPersist = true → s.phase ≠ .off ∨ waits → s.rst.persist = none →
      s.rst.ram.getD k none = some r →
      (i = .colophonPersist mv ∧ s.pendingSlots.find? (fun j => s.rst.measuredAt.getD j 0 == 0) = some k.val)
        ∨ (i = .holdupRemeasure mv ∧ s.pendingSlots = [k.val] ∧ s.rst.measuredAt.getD k 0 ≠ 0
          ∧ s.rst.measuredAt.getD k 0 + (if bit (s.fget F.COL_STAT_SUM_DONE) k then 60000000 else 10000000) ≤ s.timeUs + 1) →
      let e := s.holdupE mv
      let again := bit (s.fget F.COL_STAT_SUM_DONE) k
      let measures := fun u : State => u.fget F.PWR_HOLDUP_ENERGY = Nat.min 0xFFF e ∧ u.fget F.PWR_HOLDUP_VALID = 1
        ∧ u.rst.measuredAt.getD k 0 = s.timeUs + 1 ∧ SameRegsBut s u [R.PWR_HOLDUP] ∧ SameCompute s u
      let begins := fun (x : ColRecord) => ∃ u, exec i s = .next u ∧ measures u ∧ u.evq = s.evq
        ∧ u.rst.flash.getD next none = some ⟨x, false, false⟩ ∧ u.rst.flash.getD ((next + 1) % 32) none = none
        ∧ u.rst.persist = some ⟨k, next, x.full, false⟩
      let none_ := fun l => ∃ u, exec i s = .next u ∧ measures u ∧ u.rst.flash = s.rst.flash ∧ u.rst.persist = none ∧ Raises s u l
      (r.full = true → 120 ≤ e → begins (if again = true then { r with flags := r.flags ||| 4 } else r))
      ∧ (15 ≤ e → (r.full = true → e < 120 ∧ again = false) → begins r.summary)
      ∧ (e < 15 → (r.full = true → again = false) → s.eventRoom 1 → none_ [(0x090A, none, k.val, [r.seq])])
      ∧ (e < 120 → r.full = true → again = true → none_ []))
    ∧ (∀ (mv : Nat) (k : Fin 4) (n : Fin 32) (full : Bool) x, s.mayPersist = true → s.phase ≠ .off ∨ waits →
        s.rst.persist = some ⟨k, n, full, false⟩ → s.rst.flash.getD n none = some x → s.eventRoom 1 → ∃ u,
        exec (.colophonPersist mv) s = .next u ∧ u.rst.persist = none
          ∧ u.rst.flash.getD n none = some { x with header := true, crcOk := true }
          ∧ (full = true → bit (u.fget F.COL_STAT_FULL_DONE) k = true) ∧ bit (u.fget F.COL_STAT_SUM_DONE) k = !full
          ∧ Raises s u [(if full = true then 0x0908 else 0x0909, none, k.val, [x.record.seq])]
          ∧ SameRegsBut s u [R.COL_STAT] ∧ SameCompute s u)
    ∧ (∀ (mv : Nat) (k : Fin 4) (n : Fin 32) x, s.mayPersist = true → s.phase = .off → waits →
        s.rst.persist = some ⟨k, n, true, true⟩ → s.rst.flash.getD n none = some x →
        let left := s.freeVal.2 % 0x100001
        (s.holdupCovers mv left = true → ∃ u, exec (.colophonPersist mv) s = .next u ∧ u.rst.persist = none
          ∧ u.rst.flash.getD n none = some { x with header := true, crcOk := true })
        ∧ (∀ r, s.holdupCovers mv left = false → s.rst.ram.getD k none = some r → 15 ≤ s.holdupE mv → ∃ u,
          exec (.colophonPersist mv) s = .next u ∧ u.rst.persist = some ⟨k, next, false, false⟩
            ∧ u.rst.flash.getD next none = some ⟨r.summary, false, false⟩))
    ∧ (∀ c : Nat, s.pwr.mgt = true → s.rst.capAt = 0 → ∃ u, exec (.capacitanceMeasure c) s = .next u
        ∧ u.fget F.PWR_HOLDUP_CAP = Nat.min 0xFFFF c ∧ u.rst.capAt = s.timeUs + 1 ∧ SameRegsBut s u [R.PWR_HOLDUP]
        ∧ SameCompute s u)

/-! ### Start-up and trust (spec/14) -/

/-- R404, R406, R412, R413: PWR_EN starts the module, held while MOD_RESET_N is asserted; a start whose units suffice
reaches READY with event 0x0B0A; and network recovery goes from Solicit to Request, takes the server's block size, writes
and acknowledges the blocks to the address of the URL, and repeats what is not answered. What the model writes of a frame is its
own choice (assumption 104). -/
def Obligations.StartAndNetworkRecovery : Prop :=
  ∀ (s : State),
    (∀ (rst thr : Bool), s.phase = .off → s.pwr.mgt = false → s.pwr.bad = false → s.pwr.pins.length = 3 →
      s.pin 0 = .low → ∃ u,
        exec (.coldStart rst thr) s = .next u ∧ u.pwr.mgt = true ∧ u.mem = [] ∧ u.level 0 = true
        ∧ u.phase = (if rst = false then .held
            else if s.bootCheck = 0 ∧ s.fget F.SEC_BOOT_CTRL_NET_NEXT = 0 then .starting else .network))
    ∧ (∀ absent mhz, s.phase = .starting → s.rst.capture = none → (s.reportUnits absent mhz).serviceable = true →
        (s.reportUnits absent mhz).eventRoom 2 → ∃ u, exec (.moduleReady absent mhz) s = .next u ∧ u.phase = .ready
          ∧ (∃ e ∈ u.evq, e.says = (0x0B0A, none, 0, []))
          ∧ u.fget F.MGT_RST_STAT_RSTATE = (if s.rst.running.isEmpty then 0 else 2) ∧ u.mem = s.mem)
    ∧ (∀ (m server : List Byte) (n : Net), s.netAt .solicit = some n → beNat (m.take 1) = 2 → beNat (slice m 1 3) = n.xid →
        dhcpFind 2 (m.length + 1) (m.drop 4) = some server → ∃ u x, exec (.dhcpv6Message m) s = .next u ∧ u.sec.net = some x
          ∧ x.step = .request ∧ x.server = server ∧ x.began = s.timeUs
          ∧ u.out = s.out ++ [⟨.ether, 7, s.netFrame dhcpServers (s.dhcpMessage 3 x)⟩]
          ∧ u.regs = s.regs ∧ SameCompute s u)
    ∧ (∀ n : Net, s.netAt .solicit = some n → n.since + 900 * n.interval ≤ s.timeUs → ∃ u x,
        exec .dhcpv6Retransmit s = .next u ∧ u.sec.net = some x ∧ x.interval = Nat.min 30000 (2 * n.interval) ∧ x.xid = n.xid
          ∧ u.out = s.out ++ [⟨.ether, 7, s.netFrame dhcpServers (s.dhcpMessage 1 n)⟩] ∧ u.regs = s.regs ∧ SameCompute s u)
    ∧ (∀ (b : Nat) (n : Net), s.netAt .readReq = some n → 1024 ≤ b → b ≤ 8192 → ∃ u x, exec (.tftpOack b) s = .next u
        ∧ u.sec.net = some x ∧ x.step = .data ∧ x.blksize = b ∧ x.block = 1 ∧ x.addr = n.addr
        ∧ u.out = s.out ++ [⟨.ether, 7, s.netFrame n.addr (beBytes 2 4 ++ beBytes 2 0)⟩]
        ∧ u.regs = s.regs ∧ SameCompute s u)
    ∧ (∀ (l : List Byte) (n : Net), s.netAt .data = some n → l.length = n.blksize → n.got.length + l.length ≤ 48 * 2 ^ 20 → ∃ u x,
        exec (.tftpData n.block l) s = .next u ∧ u.sec.image = n.got ++ l ∧ u.sec.net = some x ∧ x.got = n.got ++ l
          ∧ x.block = n.block + 1 ∧ u.out = s.out ++ [⟨.ether, 7, s.netFrame n.addr (beBytes 2 4 ++ beBytes 2 n.block)⟩] ∧ u.regs = s.regs
          ∧ SameCompute s u)
    ∧ (∀ n : Net, s.netAt .data = some n → n.since + 1000000 ≤ s.timeUs → n.repeats < 5 → ∃ u x,
        exec .tftpAckTimeout s = .next u ∧ u.sec.net = some x ∧ x.repeats = n.repeats + 1 ∧ x.block = n.block
          ∧ u.out = s.out ++ [⟨.ether, 7, s.netFrame n.addr (beBytes 2 4 ++ beBytes 2 (n.block - 1))⟩] ∧ u.regs = s.regs ∧ SameCompute s u)
    ∧ (∀ n : Net, s.netAt .retry = some n → n.since + 10000000 ≤ s.timeUs → ∃ u x, exec .netRecoveryRetry s = .next u
        ∧ u.sec.net = some x ∧ x.step = .solicit ∧ u.regs = s.regs ∧ SameCompute s u)

/-- R419: a submitted key record that the SEC accepts is applied, with its sequence number, and raises event 0x0B08; one
that it does not accept changes no key, sets KEYREC_ERR and raises event 0x0B09. -/
def Obligations.KeyRecordsApply : Prop :=
  ∀ p ∈ [((1 : Nat), Instr.setEntry), (2, .clearEntry), (3, .requireOn), (4, .requireOff), (5, .setOwner)], ∀ s : State,
    s.running = true → leAt s.keyRecord 8 1 = p.1 → s.eventRoom 1 → ∃ u, exec p.2 s = .next u ∧ SameCompute s u
      ∧ (s.keyRecordOk s.keyRecord = true → u.sec.keySeq = leAt s.keyRecord 4 4
          ∧ u.sec.keys = (if p.1 = 1 then listSet s.sec.keys (leAt s.keyRecord 9 1) (some (slice s.keyRecord 16 96))
              else if p.1 = 2 then listSet s.sec.keys (leAt s.keyRecord 9 1) none else s.sec.keys)
          ∧ u.sec.required = (if p.1 = 3 then true else if p.1 = 4 then false else s.sec.required)
          ∧ u.sec.ownerKey = (if p.1 = 5 then some (slice s.keyRecord 16 96) else s.sec.ownerKey)
          ∧ Raises s u [(0x0B08, none, 0, [])])
      ∧ (s.keyRecordOk s.keyRecord = false → u.sec = s.sec ∧ u.fget F.SEC_FKEY_STAT_KEYREC_ERR = 1
          ∧ Raises s u [(0x0B09, none, 0, [])])

/-! ### Power, thermal and pins (spec/15) -/

/-- R377, R423, R431 to R435: an input that leaves its range powers the module down, and one that returns starts it again once no
persist is due; a spent bank removes VDD_MGT; PWR_EN, MOD_RESET_N and THROTTLE_N take effect at their accepted changes, a change within a
window is only counted, a window ends, the change after the thousandth within 1 s makes its input faulty, and a faulty input
that has been steady for 10 s is good again. The UNIT of event 0x0C09 is the model's choice (assumption 31). -/
def Obligations.InputsAndPins : Prop :=
  ∀ (s : State), s.pwr.pins.length = 3 →
    let steady := fun (i : Nat) (v : Bool) => s.pin i = ⟨v, none, [], 0, v, false⟩
    (s.phase ≠ .off → s.level 0 = true → s.pwr.byPin = false → ∃ u, exec .inputPowerFault s = .next u ∧ u.phase = .off
      ∧ u.pwr.bad = true ∧ u.pwr.pgood = false ∧ u.mem = [] ∧ u.fget F.PWR_ALERT_INPUT = 1
      ∧ u.rst.persist = s.rst.persist.map fun p => { p with again := true })
    ∧ (s.pwr.bad = true → s.phase = .off → s.level 0 = true → s.pwr.byPin = false →
      (s.persistDue = false → s.level 1 = false → ∃ u,
        exec .inputReturn s = .next u ∧ u.phase = .held ∧ u.pwr.bad = false ∧ u.pwr.mgt = true ∧ u.mem = [])
      ∧ (s.persistDue = true → s.pwr.mgt = true →
        exec .inputReturn s = .next { s with pwr := { s.pwr with bad := false } }))
    ∧ (s.phase = .off → s.pwr.mgt = true → s.pwr.bad = true → ∃ u, exec .holdupBankSpent s = .next u ∧ u.phase = .off
      ∧ u.pwr.mgt = false ∧ u.pwr.alert = false ∧ u.mem = [])
    ∧ (steady 0 true → s.phase ≠ .off → s.pwr.bad = false → ∃ u, exec .pwrEnDeassert s = .next u
      ∧ u.phase = .off ∧ u.level 0 = false ∧ u.pwr.pgood = false ∧ u.mem = [])
    ∧ (steady 1 true → s.phase ≠ .off → s.phase ≠ .held → ∃ u, exec .modResetNAssert s = .next u ∧ u.phase = .held ∧ u.level 1 = false
      ∧ u.mem = [] ∧ (∀ g, u.core g = Core.reset))
    ∧ (steady 1 false → s.phase = .held → ∃ u, exec .modResetNDeassert s = .next u ∧ u.level 1 = true ∧ u.mem = []
      ∧ u.phase = (if s.bootCheck = 0 ∧ s.fget F.SEC_BOOT_CTRL_NET_NEXT = 0 then .starting else .network))
    ∧ (steady 2 true → s.phase = .ready → s.eventRoom 1 → ∃ u, exec .throttleAsserted s = .next u ∧ u.level 2 = false
      ∧ u.fget F.PWR_STAT_THROTTLED = 1 ∧ Raises s u [(0x0C07, none, 0, [])] ∧ SameCompute s u
      ∧ ∀ d : DieId, bit (s.fget F.MGT_CAP_SUM_CD_PRESENT) d = true → s.pwr.tripped.contains d.val = false →
        u.fget (F.PWR_DIE_CLK_MHZ d) = 1000)
    ∧ (steady 2 false → ∃ u, exec .throttleNDeassert s = .next u ∧ u.level 2 = true ∧ u.fget F.PWR_STAT_THROTTLED = 0
      ∧ SameCompute s u)
    ∧ (s.running = true → s.fget F.PWR_STAT_THROTTLED = 1 → s.pwr.throttleTold = false → s.pwr.throttleAt + 10000000 ≤ s.timeUs →
      s.eventRoom 1 → ∃ u, exec .throttleHeld s = .next u ∧ u.pwr.throttleTold = true ∧ u.fget F.PWR_ALERT_THROT = 1
        ∧ Raises s u [(0x0C08, none, 0, [])] ∧ SameCompute s u)
    ∧ (∀ (i : Fin 3) (t : Nat), (s.pin i).window = some t → s.ended = [] →
      (t ≤ s.timeUs → (s.pin i).level = s.level i → ∃ u, exec (.pinWindowEnd i) s = .next u ∧ (u.pin i).window = none
        ∧ u.regs = s.regs ∧ SameCompute s u)
      ∧ (s.timeUs < t → ((s.pin i).changes.filter fun x => decide (s.timeUs < x + 1000000)).length < 1000 → ∃ u,
        exec (.inputChangeInWindow i (!(s.pin i).level)) s = .next u ∧ (u.pin i).level = !(s.pin i).level
          ∧ (u.pin i).lastAt = s.timeUs ∧ (u.pin i).window = some t ∧ u.regs = s.regs ∧ SameCompute s u)
      ∧ (s.timeUs < t → ((s.pin i).changes.filter fun x => decide (s.timeUs < x + 1000000)).length = 1000 →
        s.pinFaulty i = false → (i.val = 1 → s.level 1 = true) → (i.val = 2 → s.level 2 = false) → s.eventRoom 1 → ∃ u,
        exec (.inputChangeInWindow i (!(s.pin i).level)) s = .next u ∧ u.pinFaulty i = true ∧ u.level i = s.level i
          ∧ bit (u.fget F.PWR_PIN_STAT_FAULTY) i = true ∧ u.fget F.PWR_ALERT_PIN = 1
          ∧ Raises s u [(0x0C09, none, i.val, [])] ∧ SameCompute s u))
    ∧ (∀ i : Fin 3, s.pinFaulty i = true → (s.pin i).lastAt + 10000000 ≤ s.timeUs → (s.pin i).level = s.level i → s.ended = [] →
      ∃ u, exec (.pinSteady i) s = .next u ∧ u.pinFaulty i = false ∧ u.level i = s.level i
        ∧ SameRegsBut s u [R.PWR_PIN_STAT] ∧ SameCompute s u)

/-- R424 to R429: a legal cap that the host writes is asked for, and takes effect with event 0x0C0A; the power manager keeps
the clock of every die between its floor and 3,000 MHz, lower where the cap, a warm die, a hot one or the limiter asks for it; the
limiter above 4,200 W takes every die down to its floor; an input above 3,600 W at the floors faults the contexts of the die that
exceeds its floor power the most, and none where no die exceeds it; and cool sensor samples are recorded. The clocks chosen are
free values within the bounds (assumption 73), and the DATA of events 0x0C0A and 0x0C04 is the model's choice (31). -/
def Obligations.PowerAndThermalControl : Prop :=
  ∀ (s : State),
    (∀ w : Word, s.running = true → Legal.capStep.ok (bits w.toNat 15 0) = true → ∃ u, exec (.hostCapWrite w) s = .next u
      ∧ u.fget F.PWR_CAP_HOST_CAP = bits w.toNat 15 0 ∧ u.capInForce = s.capInForce ∧ SameRegsBut s u [R.PWR_CAP]
      ∧ SameCompute s u)
    ∧ (s.running = true → s.pwr.capAt ≠ none → s.eventRoom 1 → ∃ u, exec .capChanged s = .next u ∧ u.capInForce = s.capWanted
      ∧ u.pwr.capAt = none ∧ Raises s u [(0x0C0A, none, 0, [s.capWanted])] ∧ SameRegsBut s u [R.PWR_STAT] ∧ SameCompute s u)
    ∧ (∀ vin iin avg : Nat, s.phase = .ready → s.fget F.MGT_PLANE_STAT_MGMT_DOWN = 0 → s.pwr.stepAt + 1000 ≤ s.timeUs → ∃ u,
      exec (.powerManagerStep vin iin avg) s = .next u ∧ u.fget F.PWR_INPUT_VIN = Nat.min 0xFFFF vin
        ∧ u.fget F.PWR_INPUT_PIN = Nat.min 0xFFFF avg ∧ u.pwr.iin = iin ∧ u.pwr.stepAt = s.timeUs ∧ SameCompute s u
        ∧ ∀ d : DieId, bit (s.fget F.MGT_CAP_SUM_CD_PRESENT) d = true → s.pwr.tripped.contains d.val = false →
          s.fget F.PWR_STAT_THROTTLED = 0 → s.floorMhz d ≤ 3000 →
          Nat.max 1000 (s.floorMhz d) ≤ u.fget (F.PWR_DIE_CLK_MHZ d) ∧ u.fget (F.PWR_DIE_CLK_MHZ d) ≤ 3000
          ∧ u.fget (F.PWR_DIE_CLK_MHZ d) ≤ Nat.max (Nat.max 1000 (s.floorMhz d)) (u.topClock d (s.fget (F.PWR_DIE_CLK_MHZ d))))
    ∧ (∀ w : Nat, s.running = true → 4200 < w → ∃ u, exec (.moduleLimiter w) s = .next u ∧ u.fget F.PWR_STAT_LIMITER = 1
        ∧ SameCompute s u ∧ ∀ d : DieId, u.fget (F.PWR_DIE_CLK_MHZ d)
          = Nat.min (s.fget (F.PWR_DIE_CLK_MHZ d)) (Nat.max 1000 (s.floorMhz d)))
    ∧ (∀ (w : Nat) (rail : List Nat), s.phase = .ready → 3600 < w → s.atFloor = true → s.ended = [] →
        s.pwr.floorAt = 0 ∨ s.pwr.floorAt + 2000 ≤ s.timeUs →
        (∀ d : DieId, s.dieBusy d = true → 0 < s.floorExcess rail d →
          (∀ e : DieId, s.dieBusy e = true → e ≠ d → s.floorExcess rail e < s.floorExcess rail d) → s.eventRoom 1 → ∃ u,
          exec (.floorPowerExceeded w rail) s = .next u ∧ u.pwr.floorAt = s.timeUs ∧ u.mem = s.mem ∧ u.cores = s.cores
            ∧ (∃ e ∈ u.evq, e.says = (0x0C04, none, d.val, [ctxMask ((s.runningOn d).map (·.1))]))
            ∧ ∀ c ∈ (s.runningOn d).map (·.1), (u.ctx c).faultStop = true)
        ∧ ((∀ d : DieId, s.dieBusy d = true → s.floorExcess rail d ≤ 0) → exec (.floorPowerExceeded w rail) s = .next s))
    ∧ (∀ tj edge stk : List Nat, s.phase ≠ .off → s.pwr.thermAt + 100 ≤ s.timeUs → s.pwr.tripped = [] → s.ended = [] →
        (∀ d, tj.getD d 0 < 105) → (∀ e, edge.getD e 0 < 115) → (∀ k, stk.getD k 0 < 95) → ∃ u,
        exec (.thermalSample tj edge stk) s = .next u ∧ u.pwr.thermAt = s.timeUs ∧ u.pwr.tripped = [] ∧ SameCompute s u
          ∧ ∀ d : DieId, u.fget (F.PWR_DIE_TJ_C d) = tj.getD d 0)

/-! ### Collectives, impositions and resilience -/

/-- R265, R272, R279, R283, R291, R298, R314: a waiting bucket whose contributions are ready enters its reduce phase; an
operation encodes a segment that begins here and sends its unit to the next member; a bucket without progress for the
peer timeout since a unit is due, no slip holding it, fails the collectives and names the straggler; a drain ends with the old
tables released; and a pending imposition takes effect at a step boundary and its command completes. The DATA of events 0x080A
and 0x0701 is the model's choice (assumption 31). -/
def Obligations.BucketsRunAndImpositionsTakeEffect : Prop :=
  ∀ (c : CtxId) (b : Fin 4096) (s : State), s.ended = [] →
    (∀ d k l, s.desc? c b = some d → s.bucket? c b (s.curEpoch c) = some k → k.st = .waiting → s.ctxState c = ctxRunning →
      s.fget (F.RDX_CTRL_EN d.rdx) = 1 → s.entries d.rdx < 64 → (s.coll c).drain = none → d.wq = 0 →
      s.lay c b (s.curEpoch c) = some l → ∃ u, exec (.bucketStart c b) s = .next u
        ∧ u.bucket? c b (u.curEpoch c) = some { k with st := .reduce, progress := s.timeUs } ∧ u.mem = s.mem
        ∧ u.cores = s.cores ∧ u.xfers = s.xfers)
    ∧ (∀ (dir : Fin 2) k l w, k.idx = b.val → SegmentBegins s c k l w dir → l.d.last = false →
        ∃ u k' x v, exec (.reduceOperation c b dir) s = .next u ∧ u.bucket? c b k.iepoch = some k'
          ∧ k'.progress = s.timeUs ∧ k'.work? w.seg w.dir = some v ∧ v.reduced = true ∧ u.mem = s.mem ∧ u.cores = s.cores
          ∧ x ∈ u.xfers ∧ x.id = s.nextXfer ∧ x.fab = l.fab (l.next dir) ∧ x.addr = s.reduceFrame c l k dir
          ∧ ∃ r : RUnit, x.data = r.bytes ∧ r.n = 1 ∧ r.hop = 0 ∧ r.last = true ∧ r.missing = false
            ∧ r.blocks = [(s.encodeLocal c l r.tag ((l.seg w.seg).1 + (l.span w.seg dir).1)).2.1])
    ∧ (∀ (dir : Fin 2) k l w f (r : RUnit) y o, (s.serving c b).head? = some k → s.bucket? c b k.iepoch = some k →
        s.lay c b k.iepoch = some l → l.d.kind ≠ 3 → l.d.last = false → (s.coll c).frames = [f] → f.src = .arrived →
        RUnit.parse (s.unitBytes f) = some r → r.tag = bucketTag c k.iepoch k.step k.idx w.seg → w.seg < 4096 →
        r.phase = 1 → r.dir = dir.val → r.last = false → r.missing = false → r.blocks = [y] → r.obs = [o] →
        s.slotStarted c b 1 dir (l.gatherSlot w.seg dir false) (k.iepoch != s.curEpoch c) = true →
        l.gatherNext w.seg dir = [] → k.work? w.seg dir = some w → w.whole = false →
        LandsClean s (l.d.out + 256 * ((l.seg w.seg).1 + r.first)) →
        ∃ u k' v, exec (.gatherHop c b dir) s = .next u ∧ u.bucket? c b k.iepoch = some k' ∧ (u.coll c).frames = []
          ∧ k'.progress = s.timeUs ∧ k'.work? w.seg dir = some v ∧ v.ranges = w.ranges ++ [(r.first, r.n)]
          ∧ Stored s u (l.d.out + 256 * ((l.seg w.seg).1 + r.first)) ((bsDecode y).1.map (leBytes 4 ·)).flatten)
    ∧ (∀ k f t, (s.coll c).buckets = [k] → k.idx = b.val → k.opened = true → s.unitDue c k = some (f, t) →
        let limit := 1000 * s.fget (F.CTX_CFG_PEER_TO_MS c)
        Nat.max k.progress (s.ctx c).slipEnd + limit ≤ s.timeUs → t + 1000 * limit ≤ 1000 * s.timeUs → s.bucketsRun c = true →
        (s.ctx c).slipping = false → f ∉ (s.coll c).told → s.eventRoom 1 → ∃ u, exec (.bucketStall c b) s = .next u
          ∧ (u.coll c).lost = true ∧ u.mem = s.mem ∧ u.cores = s.cores
          ∧ Raises s u [(0x080A, some c.val, 0, [f, c.val, s.fget (F.CTX_CFG_TICK_GROUP c)])])
    ∧ ((s.coll c).drain ≠ none → (∀ k ∈ (s.coll c).buckets, k.opened = true → k.iepoch = s.curEpoch c) → s.eventRoom 1 →
        ∃ u, exec (.epochDrained c) s = .next u ∧ (u.coll c).drain = none ∧ u.fget (F.RDX_DRAIN_DRAINING c) = 0
          ∧ (u.coll c).buckets = (s.coll c).buckets.filter (fun k => k.iepoch == s.curEpoch c)
          ∧ Raises s u [(0x0609, some c.val, 0, [])] ∧ u.mem = s.mem ∧ u.cores = s.cores)
    ∧ (∀ p k, s.atBoundary c = true → (s.coll c).pend = some p → p.effective = 0xFFFFFFFF ∨ p.effective = (s.ctx c).step
          ∨ p.held = true → (s.coll c).drain = none → s.repeatChecks c p.imp = 0 → (s.coll c).imp = none → p.imp.rmap = none →
        p.imp.iepoch < 65536 → (s.ring c p.ring).cur = some k → s.eventRoom 1 →
        ∃ u, exec (.impositionTakesEffect c) s = .next u ∧ (u.coll c).imp = some p.imp ∧ (u.coll c).pend = none
          ∧ u.fget (F.RDX_EPOCH_CUR_EPOCH c) = p.imp.iepoch ∧ u.fget (F.TRN_IMP_STAT_PENDING c) = 0
          ∧ Raises s u [(0x0701, some c.val, 0, [p.imp.iepoch])] ∧ Completes s u c p.ring k stOk 0 0
          ∧ u.mem = s.mem ∧ u.cores = s.cores)

/-- R323, R333, R337, R338, R339, R349, R351: a stream past its deadline pulls what it misses; a held LAST bucket starts
once its tasks are complete, and the generation held live is live no more; the outbox of a parity capture starts the
fragment writes; a repair ends with event 0x0806; an order begins where its record is legal, and ends with its result
registers and event. The DATA of events 0x0703 and 0x0807 is the model's choice (assumption 31). -/
def Obligations.StreamsGatesRepairsAndOrders : Prop :=
  ∀ (c : CtxId) (s : State), s.ended = [] →
    (∀ (i : Fin 4096) x r p n rank a, (s.ctx c).streams.find? (fun x => x.idx == i.val) = some x → x.late = false →
      s.streamRec c i = some r → 1000 * x.startedAt + r.deadline ≤ 1000 * s.timeUs → x.complete r = false →
      s.ctxState c = ctxRunning → (List.range r.units).filter (fun u => !x.has r u) = [n] →
      r.fallback.head? = some (rank, a) → rank ≠ 0xFFFF → (s.coll c).imp = some p → rank ≠ p.self →
      s.peerValid (p.ranks.getD rank 0) = true → (s.portFor (p.ranks.getD rank 0) 1).isSome = true →
      s.xfeReach c true (r.dst + 2048 * n) (r.unitLen n) = true → s.eventRoom 1 →
      ∃ u y z, exec (.streamDeadline c i) s = .next u ∧ (u.ctx c).streams.find? (fun x => x.idx == i.val) = some y
        ∧ y = { x with late := true } ∧ Raises s u [(0x0703, some c.val, 0, [i.val])] ∧ z ∈ u.xfers ∧ z.id = s.nextXfer
        ∧ z.kind = .read ∧ z.fab = p.ranks.getD rank 0 ∧ z.addr = a + 2048 * n ∧ z.ret = r.dst + 2048 * n
        ∧ z.len = r.unitLen n ∧ u.mem = s.mem ∧ u.cores = s.cores)
    ∧ (∀ k l w b, s.fget (F.RES_STAT_GATE_WAIT c) = 1 → (s.slotsSec c).buckets.findIdx? (fun d => d.last) = some b →
        b = k.idx → s.bucket? c b (s.curEpoch c) = some k → s.gateOpen c k.step = true → (s.coll c).lastStarted = false →
        SegmentBegins s c k l w 0 → l.d.last = true →
        ∃ u k', exec (.gateRelease c) s = .next u ∧ (u.coll c).lastStarted = true ∧ u.fget (F.RES_STAT_GATE_WAIT c) = 0
          ∧ u.fget (F.RES_STAT_LIVE_VALID c) = 0 ∧ u.bucket? c b k.iepoch = some k' ∧ k'.progress = s.timeUs ∧ u.mem = s.mem)
    ∧ (∀ r, (s.coll c).repair = some r → r.left = [] → s.eventRoom 1 → ∃ u, exec (.fpRepaired c) s = .next u
        ∧ (u.coll c).repair = none ∧ SameRegsBut s u [R.RES_CNT c] ∧ Raises s u [(0x0806, some c.val, 0, [])]
        ∧ u.mem = s.mem ∧ u.cores = s.cores)
    ∧ (∀ w : Word, w.getLsbD 31 = false → ∃ u, exec (.recover c w) s = .next u
        ∧ u = s.fset (F.RES_ORDER_HI_ADDR_HI c) w.toNat)
    ∧ (∀ (w : Word) (a : Nat) f p, w.getLsbD 31 = true →
        a = s.fget (F.RES_ORDER_LO_ADDR_LO c) + 2 ^ 32 * (w.toNat % 65536) → s.ctxState c = ctxIdle →
        (s.coll c).order = none → (s.ctx c).forme = some f → f.inRegionW a 64 = true → s.clean →
        leAt (s.bytes a 64) 0 1 = 1 → leAt (s.bytes a 64) 1 1 < 8 → bit (leAt (s.bytes a 64) 1 1) 0 = true →
        leAt (s.bytes a 64) 2 2 = 0xFFFF → (∀ i, 8 ≤ i ∧ i < 32 ∨ 40 ≤ i ∧ i < 64 → s.byte (a + i) = 0) → (s.coll c).imp = some p →
        (((s.latch c).readTable c).coll c).table ≠ [] → s.fget (F.RES_STAT_LIVE_VALID c) = 1 →
        s.fget (F.RES_LIVE_GEN_LIVE_GEN c) = leAt (s.bytes a 64) 4 4 →
        ∃ u o, exec (.recover c w) s = .next u ∧ u.fget (F.RES_STAT_ORDER c) = 1 ∧ (u.coll c).order = some o
          ∧ o.addr = a ∧ o.source = 1 ∧ o.result = some 0 ∧ o.want = leAt (s.bytes a 64) 4 4 ∧ u.mem = s.mem
          ∧ u.cores = s.cores)
    ∧ (∀ o f, (s.coll c).order = some o → o.result = some 0 → (s.ctx c).forme = some f → f.inRegionW o.addr 64 = true →
        LandsClean s (o.addr + 32) → o.source < 256 → o.want < 2 ^ 32 → s.eventRoom 1 →
        ∃ u, exec (.recoverDone c) s = .next u
          ∧ (u.coll c).order = none ∧ u.fget (F.RES_STAT_ORDER c) = 2 ∧ u.fget (F.RES_STAT_ORDER_STATUS c) = 0
          ∧ (u.ctx c).step = o.want ∧ u.fget (F.RES_STAT_LIVE_VALID c) = 1
          ∧ Stored s u (o.addr + 32) (leBytes 1 0 ++ leBytes 1 o.source ++ leBytes 2 0 ++ leBytes 4 o.want)
          ∧ Raises s u [(0x0807, some c.val, 0, [0, o.want])])
    ∧ (∀ t p, s.ctxState c ≠ ctxMigrating → (s.coll c).tasks = [t] → t.kind = .parityRead → (s.coll c).imp = some p → s.clean →
        (let grp := p.groups.getD (tPgroup (s.coll c).table) []
         let at_ := fun j => p.ranks.getD (grp.getD ((grp.idxOf p.self + j) % 10) 0) 0
         at_ 0 = s.fget F.FAB_SELF_FAB ∧ at_ 1 ≠ s.fget F.FAB_SELF_FAB ∧ s.peerValid (at_ 1) = true
           ∧ (s.portFor (at_ 1) 0).isSome = true) →
        ∃ u x, exec (.parityReadDone c) s = .next u ∧ (u.coll c).tasks = [x] ∧ x.kind = .parity ∧ x.gen = t.gen
          ∧ x.out = true ∧ x.fails = 0)

/-! ### The host port and the mailboxes -/

/-- R379 to R388, R393: a legal CONNECT to MGMT_PORT makes a queue pair with a free PSN and R_Key and is answered, one from
a requester that the record does not allow is refused with event 0x0A0A; a DISCONNECT frees it; RDMA requests in sequence
write or read device memory inside the windows, and SEND is discarded; a response extends the image that is loading;
acknowledgements, retries and congestion act on the pair; and a packet that the port does not accept, or over a pair that is
not up, has no effect. The packets' layout is the model's reading of the RoCEv2 standard (assumption 54), the filters' that
of entry 62, and the DATA of 0x0A0A and the UNIT of 0x0A06 are the model's choice (entry 31). -/
def Obligations.QueuePairsConnectAndTransfer : Prop :=
  ∀ (s : State) (h : FrameHead),
    (∀ src (sport dport : BitVec 16) m n, s.running = true → s.hostUp = true → s.frameIn true h = true → s.prioFree 7 →
      dport.toNat = s.hpt.cfg.mgmtPort → leAt m 0 4 = 0x4E43574B → leAt m 4 1 = 1 → s.allowed src = true →
      leAt m 5 1 < 2 → leAt m 6 1 < 8 → 3 ≤ leAt m 44 1 → leAt m 44 1 ≤ 5 → 45 ≤ m.length →
      (List.range 4096).find? (fun n => (s.qp? n).isNone) = some n →
      ∃ u q, exec (.connect ⟨src, sport⟩ ⟨⟨dport, m⟩, h⟩) s = .next u ∧ u.qp? n = some q ∧ q.kind = leAt m 5 1 ∧ q.ctx = leAt m 6 1
        ∧ q.hostQpn = leAt m 8 3 ∧ q.hostPsn = leAt m 12 3 ∧ q.gid = slice m 16 16 ∧ q.err = false ∧ q.sent = []
        ∧ u.out = s.out ++ [⟨.ether, 7, s.datagram src sport.toNat (connectAnswer m 3 0 n q.psn q.rkey)⟩] ∧ u.mem = s.mem
        ∧ u.cores = s.cores ∧ u.regs = s.regs)
    ∧ (∀ src (sport dport : BitVec 16) m, s.running = true → s.hostUp = true → s.frameIn true h = true → s.prioFree 7 →
      dport.toNat = s.hpt.cfg.mgmtPort → leAt m 0 4 = 0x4E43574B → leAt m 4 1 = 1 → s.allowed src = false → s.eventRoom 1 →
      ∃ u, exec (.connect ⟨src, sport⟩ ⟨⟨dport, m⟩, h⟩) s = .next u ∧ SameButHost s u ∧ u.hpt = s.hpt
        ∧ u.out = s.out ++ [⟨.ether, 7, s.datagram src sport.toNat (connectAnswer m 4 1 0 0 0)⟩]
        ∧ Raises s u [(0x0A0A, none, 0, [1])])
    ∧ (∀ (dport : BitVec 16) m q, s.running = true → s.hostUp = true → s.frameIn true h = true →
        dport.toNat = s.hpt.cfg.mgmtPort → leAt m 0 4 = 0x4E43574B → leAt m 4 1 = 2 →
        s.hpt.qps.find? (fun q => q.hostQpn == leAt m 8 3 && q.gid == slice m 16 16) = some q → s.qp? q.num = some q →
        q.sent = [] → ∃ u, exec (.disconnect ⟨⟨dport, m⟩, h⟩) s = .next u ∧ u.qp? q.num = none
        ∧ (∀ c : CtxId, (u.ctx c).crQp ≠ some q.num) ∧ u.mem = s.mem ∧ u.cores = s.cores ∧ u.regs = s.regs)
    ∧ (∀ (n : Fin 4096) (psn : BitVec 24) (v : BitVec 64) (key : Word) q, InSequence s n psn.toNat q h → q.kind = 1 →
        v.toNat / 2 ^ 48 = 1 →
        let taken := fun size => { q with hostPsn := (q.hostPsn + Nat.max 1 ((size + q.mtu - 1) / q.mtu)) % 2 ^ 24
                                          msn := (q.msn + 1) % 2 ^ 24 }
        (∀ l mute, key.toNat = q.rkey → s.inWindows q.ctx true (v.toNat % 2 ^ 48) l.length = true →
          LandsClean s (v.toNat % 2 ^ 48) → ∃ u, exec (.rdmaWrite n psn v key l ⟨mute, h⟩) s = .next u
          ∧ Stored s u (v.toNat % 2 ^ 48) l ∧ u.qp? n = some (taken l.length)
          ∧ u.out = s.out ++ qpPkts (taken l.length) .ack psn.toNat 0 0 0 [])
        ∧ (∀ l mute, key.toNat ≠ q.rkey → ∃ u, exec (.rdmaWrite n psn v key l ⟨mute, h⟩) s = .next u ∧ u.mem = s.mem
          ∧ u.cores = s.cores ∧ u.out = s.out ++ qpPkts (taken l.length) .nakAccess psn.toNat 0 0 0 [])
        ∧ (∀ (len : BitVec 32) mute, key.toNat = q.rkey → s.inWindows q.ctx false (v.toNat % 2 ^ 48) len.toNat = true → s.clean →
          ∃ u, exec (.rdmaRead n psn v key len ⟨mute, h⟩) s = .next u ∧ u.mem = s.mem ∧ u.cores = s.cores
          ∧ u.out = s.out ++ qpPkts (taken len.toNat) .readResp psn.toNat 0 0 len.toNat
              (s.bytes (v.toNat % 2 ^ 48) len.toNat)))
    ∧ (∀ (n : Fin 4096) (psn : BitVec 24) (len : Nat) q, InSequence s n psn.toNat q h →
        ∃ u p, exec (.sendMsg n psn len h) s = .next u ∧ SameButHost s u ∧ SameRegsBut s u [R.HPT_STAT]
        ∧ u.fget F.HPT_STAT_SEND_DISC = satAdd 0xFFFF (s.fget F.HPT_STAT_SEND_DISC) 1
        ∧ u.qp? n = some p ∧ u.out = s.out ++ qpPkts p .ack psn.toNat 0 0 0 []
        ∧ p = { q with hostPsn := (q.hostPsn + Nat.max 1 ((len + q.mtu - 1) / q.mtu)) % 2 ^ 24, msn := (q.msn + 1) % 2 ^ 24 })
    ∧ (∀ (n : Fin 4096) q (c : CtxId) l x r k, s.pair n h = some q → h.ce = false → q.sent = [r] →
        r.read = true → r.own = .image c k → (s.ctx c).loading = some x →
        ∃ u y, exec (.rdmaReadResponse n l h) s = .next u ∧ (u.ctx c).loading = some y
          ∧ y.image = (x.image ++ l).take x.want ∧ y.want = x.want ∧ (y.complete = true ↔ x.want ≤ y.image.length)
          ∧ u.mem = s.mem ∧ u.cores = s.cores)
    ∧ (∀ (n : Fin 4096) q, s.pair n h = some q → h.ce = false →
        (∀ (psn : BitVec 24) r, q.sent = [r] → r.read = false → psnLe (r.psn + r.n - 1) psn.toNat = true →
          (∀ c k z, r.own ≠ .query c k z) → ∃ u, exec (.roceAck n psn ⟨0, h⟩) s = .next u ∧ SameButHost s u
          ∧ u.qp? n = some { q with sent := [], tries := 0, since := s.timeUs } ∧ u.out = s.out)
        ∧ (∀ psn, q.sent = [] → s.eventRoom 1 → ∃ u, exec (.roceAck n psn ⟨2, h⟩) s = .next u ∧ SameButHost s u
          ∧ u.qp? n = some { q with err := true, sent := [], tries := 0 } ∧ Raises s u [(0x0A06, none, n.val, [])])
        ∧ (q.cutAt = none → ∃ u p, exec (.cnp ⟨n, h⟩) s = .next u ∧ SameButHost s u ∧ u.qp? n = some p
          ∧ p.rate = Nat.max (3 * q.rate / 4) rateMin ∧ p.cutAt = some s.timeUs))
    ∧ (∀ (n : Fin 4096) q, s.qp? n = some q → q.err = false → s.planeUp q.kind = true →
        (q.sent ≠ [] → q.since + 100 ≤ s.timeUs → q.tries < 7 → s.prioFree (s.qpPrio q) →
          ∃ u, exec (.rcRetransmitTimeout n) s = .next u
          ∧ SameButHost s u ∧ u.qp? n = some { q with tries := q.tries + 1, since := s.timeUs }
          ∧ u.out = s.out ++ (q.sent.map fun r =>
              qpPkts q (if r.read = true then .read else .write) r.psn r.vaddr r.rkey r.len r.data).flatten)
        ∧ (∀ e, (∃ r, q.sent = [r] ∧ r.own = .event e) → q.since + 100 ≤ s.timeUs → 7 ≤ q.tries → s.eventRoom 2 →
          ∃ u, exec (.qpRetryExhausted n) s = .next u ∧ SameButHost s u
          ∧ u.qp? n = some { q with err := true, sent := [], tries := 0 } ∧ u.evq.head? = some e)
        ∧ (q.riseAt + 55 ≤ s.timeUs → ∃ u, exec (.rateIncrease n) s = .next u ∧ SameButHost s u
          ∧ u.qp? n = some { q with rate := Nat.min rateMax (q.rate + rateStep), riseAt := s.timeUs }))
    ∧ (∀ (n : Fin 4096) (psn : BitVec 24) v key l mute (len : BitVec 32) k, s.pair n h = none → s.ended = [] →
        ∀ i ∈ [Instr.rdmaWrite n psn v key l ⟨mute, h⟩, .rdmaRead n psn v key len ⟨mute, h⟩, .sendMsg n psn k h,
          .rdmaReadResponse n l h, .roceAck n psn ⟨0, h⟩, .cnp ⟨n, h⟩], exec i s = .next s)

/-- R379, R383: a PTP message within 1 µs locks the clock and steers it to a free wall time, one beyond unlocks it and leaves the
wall time running, and each makes the port ask for its path's delay; the link's changes set LINK and raise their events; PFC
pauses, and what waited for a pause that is over is sent; and address resolution and echo requests for the port's own
addresses are answered. The filters and the layouts are those of assumption 62. -/
def Obligations.HostLinkServices : Prop :=
  ∀ (s : State) (h : FrameHead), s.hostUp = true →
    (∀ offset : Int, s.running = true → s.frameIn true h = true → s.prioFree 0 →
      (-1000 ≤ offset → offset ≤ 1000 → ∃ u, exec (.ptpMessage ⟨offset, h⟩) s = .next u ∧ SameButHost s u
        ∧ u.fget F.HPT_STAT_PTP_LOCK = 1 ∧ u.hpt.wallAt = s.timeUs ∧ u.evq = s.evq
        ∧ u.out = s.out ++ [⟨.ether, 0, s.ptpDelayReq⟩])
      ∧ (1000 < offset → s.fget F.HPT_STAT_PTP_LOCK = 1 → s.eventRoom 1 → ∃ u, exec (.ptpMessage ⟨offset, h⟩) s = .next u
        ∧ SameButHost s u ∧ u.fget F.HPT_STAT_PTP_LOCK = 0 ∧ u.hpt.wall = s.hpt.wall ∧ u.hpt.wallAt = s.hpt.wallAt
        ∧ u.out = s.out ++ [⟨.ether, 0, s.ptpDelayReq⟩] ∧ Raises s u [(0x0A09, none, 0, [])]))
    ∧ (s.running = true → s.eventRoom 1 → ∃ u, exec .hostLinkDown s = .next u ∧ OnlyRegsEvents s u
        ∧ SameRegsBut s u [R.HPT_STAT] ∧ u.fget F.HPT_STAT_LINK = 0 ∧ Raises s u [(0x0A07, none, 0, [])])
    ∧ (∀ v, v = s.fset F.HPT_STAT_LINK 0 → s.running = true → s.eventRoom 1 → ∃ u, exec .hostLinkUp v = .next u
        ∧ OnlyRegsEvents v u ∧ SameRegsBut v u [R.HPT_STAT] ∧ u.fget F.HPT_STAT_LINK = 1
        ∧ Raises v u [(0x0A08, none, 0, [])])
    ∧ (∀ (en : BitVec 8) q, ∃ u, exec (.pfcFrame en q) s = .next u
        ∧ u = { s with hpt := { s.hpt with paused := u.hpt.paused, held := u.hpt.held }, out := u.out }
        ∧ u.hpt.held = s.hpt.held.filter (fun x => u.pausedAt x.1)
        ∧ u.out = s.out ++ (s.hpt.held.filter fun x => !u.pausedAt x.1).map (·.2)
        ∧ ∀ i : Fin 8, u.hpt.paused.getD i 0 = if en.getLsbD i then
          (if q.getD i 0 % 65536 = 0 then 0 else s.timeUs + (q.getD i 0 % 65536 * 64 + 99999) / 100000)
          else s.hpt.paused.getD i 0)
    ∧ (s.frameIn false h = true → s.prioFree 0 →
      (∀ smac sip, s.hpt.cfg.ip4.length = 4 → ∃ u, exec (.arp smac sip ⟨s.hpt.cfg.ip4, h⟩) s = .next u
        ∧ Sends s u .ether 0 (beBytes 2 1 ++ beBytes 2 0x0800 ++ [6, 4] ++ beBytes 2 2 ++ slice s.hpt.cfg.mac 0 6
          ++ s.hpt.cfg.ip4 ++ slice smac 0 6 ++ slice sip 0 4))
      ∧ (∀ src a, s.own6 a = true → ∃ u m, exec (.neighborDiscovery src ⟨a, h⟩) s = .next u ∧ Sends s u .ether 0 (src ++ m)
        ∧ m.take 2 = [136#8, 0#8] ∧ slice m 8 16 = a ∧ slice m 26 6 = slice s.hpt.cfg.mac 0 6)
      ∧ (∀ src m, s.hpt.cfg.ip4.length = 4 → m.take 2 = [8#8, 0#8] → 8 ≤ m.length → ∃ u r,
        exec (.icmpEcho src s.hpt.cfg.ip4 ⟨m, h⟩) s = .next u ∧ Sends s u .ether 0 (src ++ r) ∧ r.take 2 = [0#8, 0#8]
        ∧ r.drop 4 = m.drop 4)
      ∧ (∀ src a m, s.own6 a = true → m.take 2 = [128#8, 0#8] → 8 ≤ m.length → ∃ u r,
        exec (.icmpv6Echo src a ⟨m, h⟩) s = .next u ∧ Sends s u .ether 0 (src ++ r) ∧ r.take 2 = [129#8, 0#8]
        ∧ r.drop 4 = m.drop 4))
    ∧ (s.frameIn false h = false → ∀ a b d, ∀ i ∈ [Instr.arp a b ⟨d, h⟩, .neighborDiscovery a ⟨b, h⟩, .icmpEcho a b ⟨d, h⟩,
        .icmpv6Echo a b ⟨d, h⟩], exec i s = .next s)

/-- R390, R391, R396 to R399: a doorbell moves the producer count or is refused with event 0x0A0B; the control plane takes
the command of the only ring that may give one; the oldest completion and event records leave over their queue pairs; and
the ring registers take what is written. The UNIT and the DATA of 0x0A0B are the model's choice (assumption 31). -/
def Obligations.RingsAndRecords : Prop :=
  ∀ (c : CtxId) (s : State), s.running = true → s.planeUp 1 = true →
    (∀ (r : RingId) (n : BitVec 16), (s.ctx c).rings.length = 4 →
      ((n.toNat + 65536 - (s.ring c r).cons) % 65536 ≤ 64 → (n.toNat + 65536 - (s.ring c r).prod) % 65536 < 32768 →
        ∃ u, exec (.sqDb c r n) s = .next u ∧ u.ring c r = { s.ring c r with prod := n.toNat }
          ∧ (∀ q : RingId, q ≠ r → u.ring c q = s.ring c q) ∧ u = { s with ctxs := u.ctxs })
      ∧ (64 < (n.toNat + 65536 - (s.ring c r).cons) % 65536 → s.eventRoom 1 → ∃ u, exec (.sqDb c r n) s = .next u
        ∧ OnlyRegsEvents s u ∧ u.fget F.HPT_STAT_RING_ERR = 1 ∧ Raises s u [(0x0A0B, some c.val, r.val, [r.val, n.toNat])]))
    ∧ (∀ v : Word, ∃ u, exec (.crCi c v) s = .next u ∧ u.ctx c = { s.ctx c with crCi := v.toNat } ∧ u = { s with ctxs := u.ctxs }
        ∧ ∀ d, d ≠ c.val → u.ctx d = s.ctx d)
    ∧ (∀ (w : Word) (n : Fin 4096) q, s.qp? n = some q → q.kind = 1 → q.ctx = c.val → 4 ≤ bits w.toNat 3 0 →
        bits w.toNat 3 0 ≤ 12 → ∃ u, exec (.crCfg c w n) s = .next u ∧ (u.ctx c).crCfg = w.toNat ∧ (u.ctx c).crQp = some n.val
        ∧ (w.getLsbD 31 = true → (u.ctx c).crK = 0) ∧ u = { s with ctxs := u.ctxs })
    ∧ (∀ (r : RingId), s.fget F.MGT_PLANE_STAT_CTRL_DOWN = 0 → s.backlogBlocks c = false → s.phase ≠ .out →
        s.mayTake c r = true → (∀ q : RingId, q ≠ r → s.mayTake c q = false) → legalCommand (s.nextEntry c r) = true →
        ∃ u, exec (.commandTake c) s = .next u
          ∧ u.ring c r = { s.ring c r with cons := ((s.ring c r).cons + 1) % 65536, cur := some ⟨leAt (s.nextEntry c r) 0 1, leAt (s.nextEntry c r) 4 4, s.nextEntry c r, .taken, s.timeUs⟩ }
          ∧ u = { s with ctxs := u.ctxs })
    ∧ (∀ k rest n q, (s.ctx c).backlog = k :: rest → (s.ctx c).crQp = some n → s.qp? n = some q →
        bit (s.ctx c).crCfg 31 = true → s.qpReady q = true → s.prioFree (s.qpPrio q) →
        ((s.ctx c).crK + 2 ^ 32 - (s.ctx c).crCi % 2 ^ 32) % 2 ^ 32 < 2 ^ bits (s.ctx c).crCfg 3 0 →
        ∃ u, exec (.completionWrite c) s = .next u ∧ (u.ctx c).backlog = rest ∧ (u.ctx c).crK = (s.ctx c).crK + 1
          ∧ u.out = s.out ++ qpPkts q .write q.psn
              ((s.ctx c).crAddr + 32 * ((s.ctx c).crK % 2 ^ bits (s.ctx c).crCfg 3 0)) (s.ctx c).crRkey 32
              (k.bytes c (phaseOf (s.ctx c).crK (bits (s.ctx c).crCfg 3 0)))
          ∧ u.mem = s.mem ∧ u.cores = s.cores ∧ u.regs = s.regs)
    ∧ (∀ e rest q, s.evq = e :: rest → s.qp? (s.fget F.HPT_ER_HI_QP) = some q → s.fget F.HPT_ER_HI_EN = 1 → q.kind = 0 →
        s.qpReady q = true → s.prioFree (s.qpPrio q) → (s.hpt.erK + 2 ^ 32 - s.fget F.HPT_ER_CI_CI) % 2 ^ 32 < 2 ^ s.fget F.HPT_ER_HI_LOG2 →
        ∃ u, exec .eventRecordWrite s = .next u ∧ u.evq = rest ∧ u.hpt.erK = s.hpt.erK + 1
          ∧ u.out = s.out ++ qpPkts q .write q.psn
              (s.rget R.HPT_ER_LO + 2 ^ 32 * s.fget F.HPT_ER_HI_ADDR_HI + 32 * (s.hpt.erK % 2 ^ s.fget F.HPT_ER_HI_LOG2))
              (s.rget R.HPT_ER_RKEY) 32 (e.bytes (phaseOf s.hpt.erK (s.fget F.HPT_ER_HI_LOG2)))
          ∧ SameCompute s u ∧ u.regs = s.regs)
    ∧ (∀ w : Word, w.getLsbD 31 = true → ∃ u, exec (.eventRingEnable w) s = .next u ∧ u.hpt.erK = 0
        ∧ u.fget F.HPT_ER_HI_EN = 1 ∧ SameRegsBut s u [R.HPT_ER_HI] ∧ SameButHost s u)
    ∧ (∀ w : Word, ∃ u, exec (.eventRingCi w) s = .next u ∧ u = s.rset R.HPT_ER_CI w.toNat)

/-- R8, R400 to R402, R444, R445: HPT_ER_RKEY, a plain register, holds the word written to it; a 1 written to
HPT_STAT.RING_ERR, a W1C bit, clears it and no other field; reading HPT_CS_ERR returns its word and clears its RC field COUNT;
and reading TCK_NUM_LO latches the rest of the tick. An access that is no word, lies in a reserved range, or whose target stays
silent has no effect: one of the host's is counted in HPT_CS_ERR with event 0x0A05, another's is a data abort of its
initiator, and a read returns all ones. The mailboxes take a claim, a slug, its reading and the end of a claim, and
any write while FULL is a bus error. How a data abort is told is the model's choice (assumption 62), as is the UNIT of the
mailbox events (entry 31). -/
def Obligations.RegistersAndMailboxes : Prop :=
  ∀ (who : Initiator) (sec : Bool) (s : State), s.running = true →
    (s.ended = [] → (∀ v : Word, ∃ u, exec (.registerWrite who sec false ⟨(BitVec.ofNat 32 R.HPT_ER_RKEY), .word⟩ v) s = .next u
          ∧ u.rget R.HPT_ER_RKEY = v.toNat ∧ SameRegsBut s u [R.HPT_ER_RKEY] ∧ OnlyRegsEvents s u ∧ u.evq = s.evq)
      ∧ (∀ v : Word, v.getLsbD 29 = true → ∃ u,
          exec (.registerWrite who sec false ⟨(BitVec.ofNat 32 R.HPT_STAT), .word⟩ v) s = .next u
          ∧ u.fget F.HPT_STAT_RING_ERR = 0 ∧ u.fget F.HPT_STAT_LINK = s.fget F.HPT_STAT_LINK
          ∧ u.fget F.HPT_STAT_SEND_DISC = s.fget F.HPT_STAT_SEND_DISC ∧ SameRegsBut s u [R.HPT_STAT] ∧ OnlyRegsEvents s u)
      ∧ (∀ (off v : Word) (mute : Bool) (n : Width), mbxChannel off.toNat = none →
          n ≠ Width.word ∨ mute = true ∨ reservedRange off.toNat = true →
          (who = .host → s.eventRoom 1 →
            (∃ u, exec (.registerWrite who sec mute ⟨off, n⟩ v) s = .next u ∧ OnlyRegsEvents s u
              ∧ SameRegsBut s u [R.HPT_CS_ERR] ∧ u.fget F.HPT_CS_ERR_COUNT = satAdd 0xFF (s.fget F.HPT_CS_ERR_COUNT) 1
              ∧ u.fget F.HPT_CS_ERR_OFFSET = off.toNat % 2 ^ 24 ∧ Raises s u [(0x0A05, none, 0, [])])
            ∧ ∃ u, exec (.readClear who sec mute ⟨off, n⟩) s = .next u ∧ OnlyRegsEvents { s with out := u.out } u
              ∧ SameRegsBut s u [R.HPT_CS_ERR] ∧ u.out = s.out ++ [⟨.bus, who.id, leBytes 4 0xFFFFFFFF⟩])
          ∧ (who ≠ .host → ∃ u, exec (.registerWrite who sec mute ⟨off, n⟩ v) s = .next u ∧ Sends s u .bus (0x200 + who.id) [])))
    ∧ (∃ u, exec (.readClear who sec false ⟨(BitVec.ofNat 32 R.HPT_CS_ERR), .word⟩) s = .next u ∧ u.fget F.HPT_CS_ERR_COUNT = 0
        ∧ u.fget F.HPT_CS_ERR_OFFSET = s.fget F.HPT_CS_ERR_OFFSET ∧ SameRegsBut s u [R.HPT_CS_ERR]
        ∧ u = { s with regs := u.regs, out := s.out ++ [⟨.bus, who.id, leBytes 4 (s.rget R.HPT_CS_ERR)⟩] })
    ∧ (∃ u, exec (.tckNumLoRead ⟨who, false⟩) s = .next u ∧ u.fget F.TCK_NUM_HI_TICK_HI = s.tick / 2 ^ 32 % 65536
        ∧ SameRegsBut s u [R.TCK_NUM_HI]
        ∧ u = { s with regs := u.regs, out := s.out ++ [⟨.bus, who.id, leBytes 4 (s.tick % 2 ^ 32)⟩] })
    ∧ (∀ n : Channel, n.val < 16 ∨ secureWorld who sec = true →
        (s.ended = [] → (∀ v : Word, s.fget (F.MBX_STAT_FULL n) = 0 → s.fget (F.MBX_STAT_CLAIMED n) = 0 → ∃ u,
          exec (.mbxLoWrite n ⟨who, false⟩ sec v) s = .next u ∧ u.rget (R.MBX_LO n) = v.toNat ∧ u.fget (F.MBX_STAT_CLAIMED n) = 1
          ∧ u.fget (F.MBX_STAT_CLAIMANT n) = who.id ∧ SameRegsBut s u [R.MBX_LO n, R.MBX_STAT n] ∧ SameButHost s u
          ∧ u.hpt.claims.find n = some s.timeUs)
        ∧ (∀ v : Word, s.fget (F.MBX_STAT_FULL n) = 0 → s.fget (F.MBX_STAT_CLAIMED n) = 1 →
          s.fget (F.MBX_STAT_CLAIMANT n) = who.id → s.fget (F.MBX_CFG_RCV n) ≠ 0x20 → ∃ u,
          exec (.mbxHiWrite n ⟨who, false⟩ sec v) s = .next u ∧ u.rget (R.MBX_HI n) = who.id * 2 ^ 24 + v.toNat % 2 ^ 24
          ∧ u.fget (F.MBX_STAT_FULL n) = 1 ∧ u.fget (F.MBX_STAT_CLAIMED n) = 0 ∧ SameButHost s u
          ∧ SameRegsBut s u [R.MBX_HI n, R.MBX_STAT n] ∧ u.out = s.out ++ [⟨.bus, 0x100 + s.fget (F.MBX_CFG_RCV n), leBytes 1 n⟩])
        ∧ (∀ v : Word, s.fget (F.MBX_STAT_FULL n) = 1 → who = .host → s.eventRoom 2 →
          ∀ off ∈ [R.MBX_LO n, R.MBX_HI n, R.MBX_STAT n, R.MBX_CFG n], ∃ u,
          exec (.registerWrite who sec false ⟨(BitVec.ofNat 32 off), .word⟩ v) s = .next u ∧ OnlyRegsEvents s u
          ∧ SameRegsBut s u [R.MBX_STAT n, R.HPT_CS_ERR] ∧ u.fget (F.MBX_STAT_FULL n) = 1
          ∧ u.fget (F.MBX_STAT_ERR_CNT n) = satAdd 0xFF (s.fget (F.MBX_STAT_ERR_CNT n)) 1
          ∧ Raises s u [(0x0A02, none, n.val, []), (0x0A05, none, 0, [])]))
        ∧ (s.fget (F.MBX_STAT_FULL n) = 1 → s.fget (F.MBX_CFG_RCV n) = who.id → ∃ u,
          exec (.mbxHiRead n ⟨who, false⟩ sec) s = .next u ∧ u.fget (F.MBX_STAT_FULL n) = 0 ∧ SameRegsBut s u [R.MBX_STAT n]
          ∧ u = { s with regs := u.regs, out := s.out ++ [⟨.bus, who.id, leBytes 4 (s.regValue (R.MBX_HI n))⟩] })
        ∧ (∀ t, s.hpt.claims.find n = some t → t + 100 ≤ s.timeUs → s.fget (F.MBX_STAT_CLAIMED n) = 1 → s.eventRoom 1 → ∃ u,
          exec (.mbxClaimTimeout n) s = .next u ∧ u.fget (F.MBX_STAT_CLAIMED n) = 0 ∧ u.rget (R.MBX_LO n) = 0
          ∧ SameButHost s u ∧ SameRegsBut s u [R.MBX_LO n, R.MBX_STAT n] ∧ Raises s u [(0x0A03, none, n.val, [])]))

/-! ### Attestation and the sideband -/

/-- R415 to R417: the responder speaks SPDM 1.2 with ECDSA P-384 and SHA-384; it answers with the digest and the portions
of the chain of slot 0, with signatures and with the measurement blocks asked for; any other request gets ERROR
UnsupportedRequest. The layout of the messages is the model's reading of DSP0274 (assumption 60), and that of the packets and
datagrams that carry them is that of entries 61 and 62. -/
def Obligations.SpdmRequestsAreAnswered : Prop :=
  ∀ (t : Fin 2) (n : SpdmPeer) (m : List Byte) (s : State) (p : Spdm),
    (SpdmAsks s t n m 0x84 p → ∃ u r, exec (.getVersion t n m) s = .next u ∧ leAt r 0 2 = 0x0410 ∧ leAt r 5 1 = 1
      ∧ leAt r 6 2 = 0x1200 ∧ SpdmAnswers s u t n r { Spdm.zero with ver := true, vca := m ++ r })
    ∧ (SpdmAsks s t n m 0xE1 p → p.ver = true → p.algs = false → ∃ u r, exec (.getCapabilities t n m) s = .next u
      ∧ leAt r 0 2 = 0x6112 ∧ leAt r 8 4 = spdmFlags ∧ SpdmAnswers s u t n r { p with caps := true, vca := p.vca ++ m ++ r })
    ∧ (SpdmAsks s t n m 0xE3 p → p.caps = true → p.algs = false → ∃ u r, exec (.negotiateAlgorithms t n m) s = .next u
      ∧ leAt r 0 2 = 0x6312 ∧ SpdmAnswers s u t n r { p with
          algs := (leAt m 8 4 &&& 0x80) != 0 && (leAt m 12 4 &&& 2) != 0, vca := p.vca ++ m ++ r })
    ∧ (SpdmAsks s t n m 0x81 p → p.algs = true → ∃ u r, exec (.getDigests t n m) s = .next u
      ∧ r = spdmHead 1 0 1 ++ sha384 s.certChain ∧ SpdmAnswers s u t n r { p with certs := p.certs ++ m ++ r, meas := [] })
    ∧ (SpdmAsks s t n m 0x82 p → p.algs = true → leAt m 2 1 = 0 → leAt m 4 2 < s.certChain.length →
      ∃ u r, exec (.getCertificate t n m) s = .next u ∧ r.take 4 = spdmHead 2 0 0
        ∧ r.drop 8 = (s.certChain.drop (leAt m 4 2)).take (Nat.min (leAt m 6 2) 4088)
        ∧ SpdmAnswers s u t n r { p with certs := p.certs ++ m ++ r, meas := [] })
    ∧ (SpdmAsks s t n m 0x83 p → p.algs = true → leAt m 2 1 = 0 → leAt m 3 1 = 0 → 36 ≤ m.length →
      ∃ u r k, exec (.challenge t n m) s = .next u ∧ r = spdmHead 3 0 1 ++ sha384 s.certChain ++ k ++ leBytes 2 0
        ∧ k.length = 32 ∧ SpdmAnswers s u t n (r ++ s.signSpdm "responder-challenge_auth signing" (p.vca ++ p.certs ++ m ++ r))
            { p with certs := [], meas := [] })
    ∧ (∀ i ∈ measIndices, SpdmAsks s t n m 0xE0 p → p.algs = true → bit (leAt m 2 1) 0 = false → leAt m 3 1 = i →
      ∃ u r, exec (.getMeasurements t n m) s = .next u ∧ r.take 4 = spdmHead 0x60 0 0 ∧ leAt r 4 1 = 1
        ∧ slice r 8 (s.measBlock i).length = s.measBlock i ∧ SpdmAnswers s u t n r { p with meas := p.meas ++ m ++ r })
    ∧ (4 ≤ m.length → m.length ≤ 4096 → s.spdmUp t n = true → leAt m 1 1 ∉ spdmCodes →
      ∃ u, exec (.spdmUnsupportedRequest t n m) s = .next u ∧ u = s.answerSpdm t n (spdmError 7 (leAt m 1 1)))

/-- R437, R438, R439: the I3C target takes its dynamic address, its lengths and its interrupt enable from the common command
codes, and answers with its provisional ID and its characteristics; the MCTP endpoint and the PLDM terminus answer while
the firmware runs and the management plane is up: the identifiers are kept, a colophon is read by its bytes, a sensor
gives its reading, and BMC_CAP is set within its range. The layouts are the model's reading of the standards
(assumption 61). -/
def Obligations.SidebandAnswers : Prop :=
  (∀ s : State, s.busUp = true →
    (∀ b : BitVec 8, b.getLsbD 0 = true →
      (∃ u, exec (.enec b) s = .next u ∧ u = { s with side := { s.side with ibi := true } })
      ∧ ∃ u, exec (.disec b) s = .next u ∧ u = { s with side := { s.side with ibi := false } })
    ∧ (∃ u, exec .rstdaa s = .next u ∧ u = { s with side := { s.side with dyn := none } })
    ∧ (∀ a : BitVec 7, s.side.dyn = none →
        (∃ u, exec (.entdaa a) s = .next u ∧ u = { s with side := { s.side with dyn := some a.toNat }
                                                          out := s.out ++ [⟨.i3c, 0, s.pid ++ [bcr, Config.i3cByte 1]⟩] })
        ∧ ∃ u, exec (.setdasa 0x3A a) s = .next u ∧ u = { s with side := { s.side with dyn := some a.toNat } })
    ∧ (s.side.dyn.isSome = true →
        (∀ n : BitVec 16, ∃ u, exec (.setmwl n) s = .next u ∧ u = { s with side := { s.side with mwl := n.toNat } })
        ∧ (∀ n : BitVec 16, ∃ u, exec (.setmrl n) s = .next u ∧ u = { s with side := { s.side with mrl := n.toNat } })
        ∧ (∃ u, exec .getmwl s = .next u ∧ Sends s u .i3c 0 (beBytes 2 s.side.mwl))
        ∧ (∃ u, exec .getmrl s = .next u ∧ Sends s u .i3c 0 (beBytes 2 s.side.mrl ++ [1#8]))
        ∧ (∃ u, exec .getpid s = .next u ∧ Sends s u .i3c 0 s.pid)
        ∧ (∃ u, exec .getbcr s = .next u ∧ Sends s u .i3c 0 [bcr])
        ∧ (∃ u, exec .getdcr s = .next u ∧ Sends s u .i3c 0 [Config.i3cByte 1])
        ∧ ∃ u, exec .getstatus s = .next u ∧ Sends s u .i3c 0 [Config.i3cByte 2, Config.i3cByte 3]))
  ∧ (∀ (x : MctpHead) (i : Fin 32) (s : State), s.mctpUp x = true →
    (∀ e : BitVec 8, e ≠ 0 → e ≠ 0xFF → ∃ u, exec (.setEndpointId ⟨x, i⟩ 0 e) s = .next u ∧ Answers
      { s with side := { s.side with eid := e.toNat } } u .mctp x
      (mctpControl i 1 0 (leBytes 1 0 ++ leBytes 1 e.toNat ++ leBytes 1 0)))
    ∧ (∃ u, exec (.getEndpointId ⟨x, i⟩) s = .next u ∧ Answers s u .mctp x (mctpControl i 2 0 (leBytes 1 s.side.eid ++ leBytes 2 0)))
    ∧ (∀ k : BitVec 8, k.toNat ∈ [0, 1, 5, 0x7F, 0xFF] → ∃ u, exec (.getMctpVersionSupport ⟨x, i⟩ k) s = .next u
        ∧ Answers s u .mctp x (mctpControl i 4 0 (Config.mctpVersions k.toNat)))
    ∧ (∃ u, exec (.getMessageTypeSupport ⟨x, i⟩) s = .next u ∧ Answers s u .mctp x (mctpControl i 5 0 [4, 0, 1, 5, 0x7F]))
    ∧ (∀ (q o : BitVec 32) (n : BitVec 16) r, s.colFind q.toNat = some r → n.toNat ≤ 1024 → o.toNat + n.toNat ≤ r.size →
        ∃ u, exec (.readColophon ⟨x, q⟩ o n) s = .next u
        ∧ Answers s u .mctp x ([0x7F, 0, 0, 0xD1, 0x4B, 1, 0] ++ (r.bytes.drop o.toNat).take n.toNat))
    ∧ (∃ u, exec (.gettid ⟨x, i⟩) s = .next u ∧ Answers s u .pldm x ([1] ++ leBytes 1 i ++ [0, 2, 0] ++ leBytes 1 s.side.tid))
    ∧ (∀ k : BitVec 8, k ≠ 0 → k ≠ 0xFF → ∃ u, exec (.settid ⟨x, i⟩ k) s = .next u
        ∧ Answers { s with side := { s.side with tid := k.toNat } } u .pldm x ([1] ++ leBytes 1 i ++ [0, 1, 0]))
    ∧ (∀ k : BitVec 8, k = 0 ∨ k = 2 → ∃ u, exec (.getpldmversion ⟨x, i⟩ 1 k) s = .next u
        ∧ Answers s u .pldm x ([1] ++ leBytes 1 i ++ [0, 3, 0, 0, 0, 0, 0, 5] ++ leBytes 4 (Config.pldmVersion k.toNat).toNat
            ++ leBytes 4 (crc32 (leBytes 4 (Config.pldmVersion k.toNat).toNat))))
    ∧ (∃ u, exec (.getpldmtypes ⟨x, i⟩) s = .next u ∧ Answers s u .pldm x ([1] ++ leBytes 1 i ++ [0, 4, 0, 5, 0, 0, 0, 0, 0, 0, 0]))
    ∧ (∀ k : BitVec 8, k = 0 ∨ k = 2 → ∃ u, exec (.getpldmcommands ⟨x, i⟩ k (Config.pldmVersion k.toNat)) s = .next u
        ∧ Answers s u .pldm x ([1] ++ leBytes 1 i ++ [0, 5, 0] ++ leBytes 32 (((pldmCommands k.toNat).map fun c => 2 ^ c).sum)))
    ∧ (∃ u r, exec (.getpdrrepositoryinfo ⟨x, i⟩) s = .next u ∧ Answers { s with free := u.free } u .pldm x ([1] ++ leBytes 1 i ++ r)
        ∧ r.take 4 = [2, 0x50, 0, 0] ∧ leAt r 30 4 = 24)
    ∧ (∀ (h o : BitVec 32) (n : BitVec 16) p, pdrs[h.toNat - 1]? = some p → h.toNat ≠ 0 → ∃ u r,
        exec (.getpdr ⟨x, i⟩ h o 1 n) s = .next u ∧ Answers s u .pldm x ([1] ++ leBytes 1 i ++ r) ∧ r.take 3 = [2, 0x51, 0]
        ∧ slice r 14 (p.take n.toNat).length = p.take n.toNat)
    ∧ (∀ (k : BitVec 16) v, s.sensor k.toNat = some v → ∃ u f, exec (.getsensorreading ⟨x, i⟩ k) s = .next u
        ∧ Answers { s with free := s.free + 1 } u .pldm x ([1] ++ leBytes 1 i ++ [2, 0x11, 0, 2, 0, 0] ++ leBytes 3 f ++ leBytes 2 v))
    ∧ (∃ u f, exec (.getstatesensorreadings ⟨x, i⟩ 30) s = .next u ∧ Answers { s with free := s.free + 1 } u .pldm x
        ([1] ++ leBytes 1 i ++ [2, 0x21, 0, 1, 0] ++ leBytes 1 (s.fget F.MGT_RST_STAT_RSTATE) ++ leBytes 2 f))
    ∧ (∃ u r, exec (.getnumericeffectervalue ⟨x, i⟩ 40) s = .next u ∧ Answers s u .pldm x ([1] ++ leBytes 1 i ++ [2, 0x32, 0, 2] ++ r)
        ∧ r.drop 1 = leBytes 2 (s.fget F.PWR_CAP_BMC_CAP) ++ leBytes 2 (s.fget F.PWR_CAP_BMC_CAP))
    ∧ (∀ v : BitVec 32, 1800 ≤ v.toNat → v.toNat ≤ 3600 → v.toNat % 25 = 0 → ∃ u,
        exec (.setnumericeffectervalue ⟨x, i⟩ 40 2 v) s = .next u ∧ u.fget F.PWR_CAP_BMC_CAP = v.toNat
        ∧ SameRegsBut s u [R.PWR_CAP] ∧ Answers { s with regs := u.regs, pwr := u.pwr } u .pldm x ([1] ++ leBytes 1 i ++ [2, 0x31, 0])))

/-! ### The whole machine -/

/-- R451, R452, R358, R359: after reset every register reads the reset value of its table, memory reads 0, every context is
FREE, no core has a context, no port is enabled, and no command waits. -/
def Obligations.ResetState : Prop :=
  (∀ o, State.reset.rget o = (regReset o).toNat) ∧ (∀ a, State.reset.byte a = 0) ∧ State.reset.memOk
    ∧ (∀ c : CtxId, State.reset.ctxState c = ctxFree) ∧ (∀ g : CoreId, State.reset.occupant g = none)
    ∧ (∀ p : PortId, State.reset.portState p = portDisabled) ∧ State.reset.tick = 0 ∧ State.reset.pending = []
    ∧ State.reset.evq = []

/-- From every state whose memory is in its canonical form, a step gives one whose memory is in its canonical form, and
takes no more than the front of the queue. -/
def Obligations.StepKeepsMemoryAndQueue : Prop :=
  ∀ s t : State, s.memOk → step s = .next t → t.memOk ∧ t.pending = s.pending.tail

/-- R244, R245, R249, R42, R279: the header fields of a cell survive its 280 bytes, its check value passes under its own
fold and its last four bytes give back the epoch; and a unit, with every block and its trailer, survives its bytes. -/
def Obligations.CellsAndUnitsRoundTrip : Prop :=
  (∀ (c : Cell) (ep : Nat), c.Fits → ep < 2 ^ 32 → Cell.parse (c.bytes ep) = c ∧ (c.bytes ep).length = 280
    ∧ checkPasses (foldOf c.dst c.devAddr c.seq) (c.bytes ep) = true
    ∧ (isControl c.type = false → foldOf c.dst c.devAddr c.seq ^^^ leAt (c.bytes ep) 276 4 = ep))
  ∧ (∀ b : Block, b.Fits → Block.parse b.bytes = some b)
  ∧ (∀ u : RUnit, u.Fits → RUnit.parse u.bytes = some u)

/-- R68: decoding gives element i the value q_i × 2^(EXP − 127), exactly where it lies within FP32's finite range, and the
largest finite value of its sign, counted, where it lies beyond; a poisoned block decodes as canonical NaNs and 0 as +0. -/
def Obligations.BlocksDecodeToFp32 : Prop :=
  ∀ b : Block, b.Fits → (b.poison = true → bsDecode b = (List.replicate 64 0x7FC00000, 0))
    ∧ (b.poison = false → (bsDecode b).1.length = 64
      ∧ (let big := fun q : Int => decide ((2 ^ 24 - 1) * 2 ^ 231 < q.natAbs * 2 ^ b.exp)
         (bsDecode b).2 = (b.vals.filter big).length
         ∧ ∀ i : Fin 64,
            let q := b.vals.getD i 0
            let code := (bsDecode b).1.getD i 0
            (q = 0 → code = 0)
            ∧ (big q = true → code = if q < 0 then 0xFF7FFFFF else 0x7F7FFFFF)
            ∧ (big q = false → ∃ m x, fpFP32.decode code = .fin (decide (q < 0)) m x
                ∧ (m : ℚ) * (2 : ℚ) ^ x = (q.natAbs : ℚ) * (2 : ℚ) ^ ((b.exp : Int) - 127))))
end

