-- ==== Sys2Proof/Laws/Bits.lean ====
section
/-! SUPPORT. Laws of bit fields, little-endian bytes, keyed tables and lists. -/

namespace Sys2Proof.Machine

/-- A digit `x` below `m` over a rest `r` below `b` stays below `b * m`. -/
theorem digit_lt {x m r b : Nat} (hx : x < m) (hr : r < b) : x * b + r < b * m := by
  have h := Nat.mul_le_mul_right b (Nat.succ_le_of_lt hx)
  rw [Nat.succ_mul, Nat.mul_comm m b] at h
  omega

theorem bits_lt (w hi lo : Nat) : bits w hi lo < 2 ^ (hi - lo + 1) := Nat.mod_lt _ (Nat.two_pow_pos _)

/-- A field reads as the value it was set to, cut to its width. -/
theorem bits_setBits_same (w v : Nat) {hi lo : Nat} (h : lo ≤ hi) :
    bits (setBits w hi lo v) hi lo = v % 2 ^ (hi - lo + 1) := by
  have hp : 2 ^ (hi + 1) = 2 ^ lo * 2 ^ (hi - lo + 1) := by rw [← Nat.pow_add]; congr 1; omega
  unfold bits setBits
  have e : w / 2 ^ (hi + 1) * 2 ^ (hi + 1) + v % 2 ^ (hi - lo + 1) * 2 ^ lo + w % 2 ^ lo
      = w % 2 ^ lo + (v % 2 ^ (hi - lo + 1) + w / 2 ^ (hi + 1) * 2 ^ (hi - lo + 1)) * 2 ^ lo := by
    rw [hp]; ring
  rw [e, Nat.add_mul_div_right _ _ (Nat.two_pow_pos lo), Nat.div_eq_of_lt (Nat.mod_lt _ (Nat.two_pow_pos lo)), Nat.zero_add,
    Nat.add_mul_mod_self_right, Nat.mod_mod]

/-- A field above the one set keeps its value. -/
theorem bits_setBits_above (w v : Nat) {hi lo hi' lo' : Nat} (h : lo ≤ hi) (h' : hi < lo') :
    bits (setBits w hi lo v) hi' lo' = bits w hi' lo' := by
  unfold bits setBits
  have hp : 2 ^ lo' = 2 ^ (hi + 1) * 2 ^ (lo' - (hi + 1)) := by rw [← Nat.pow_add]; congr 1; omega
  have hq : 2 ^ (hi + 1) = 2 ^ lo * 2 ^ (hi - lo + 1) := by rw [← Nat.pow_add]; congr 1; omega
  have hlt : v % 2 ^ (hi - lo + 1) * 2 ^ lo + w % 2 ^ lo < 2 ^ (hi + 1) := by
    have a := Nat.mod_lt v (Nat.two_pow_pos (hi - lo + 1))
    have b := Nat.mod_lt w (Nat.two_pow_pos lo)
    rw [hq]
    exact digit_lt a b
  have e : (w / 2 ^ (hi + 1) * 2 ^ (hi + 1) + v % 2 ^ (hi - lo + 1) * 2 ^ lo + w % 2 ^ lo) / 2 ^ lo' = w / 2 ^ lo' := by
    rw [hp, ← Nat.div_div_eq_div_mul, ← Nat.div_div_eq_div_mul, Nat.add_assoc, Nat.add_comm,
      Nat.add_mul_div_right _ _ (Nat.two_pow_pos _), Nat.div_eq_of_lt hlt, Nat.zero_add]
  rw [e]

/-- A field below the one set keeps its value. -/
theorem bits_setBits_below (w v : Nat) {hi lo hi' lo' : Nat} (h : lo ≤ hi) (h0 : lo' ≤ hi') (h' : hi' < lo) :
    bits (setBits w hi lo v) hi' lo' = bits w hi' lo' := by
  unfold bits setBits
  have hp : 2 ^ (hi + 1) = 2 ^ lo * 2 ^ (hi - lo + 1) := by rw [← Nat.pow_add]; congr 1; omega
  have hl : 2 ^ lo = 2 ^ (hi' + 1) * 2 ^ (lo - (hi' + 1)) := by rw [← Nat.pow_add]; congr 1; omega
  have hs : 2 ^ (hi' + 1) = 2 ^ lo' * 2 ^ (hi' - lo' + 1) := by rw [← Nat.pow_add]; congr 1; omega
  have key : ∀ x : Nat, x / 2 ^ lo' % 2 ^ (hi' - lo' + 1) = x % 2 ^ lo % 2 ^ (hi' + 1) / 2 ^ lo' := by
    intro x
    rw [Nat.mod_mod_of_dvd _ (by rw [hl]; exact Nat.dvd_mul_right _ _), hs, Nat.mod_mul_right_div_self]
  rw [key, key w]
  have e : (w / 2 ^ (hi + 1) * 2 ^ (hi + 1) + v % 2 ^ (hi - lo + 1) * 2 ^ lo + w % 2 ^ lo) % 2 ^ lo = w % 2 ^ lo := by
    rw [hp, show w / (2 ^ lo * 2 ^ (hi - lo + 1)) * (2 ^ lo * 2 ^ (hi - lo + 1)) + v % 2 ^ (hi - lo + 1) * 2 ^ lo + w % 2 ^ lo
      = w % 2 ^ lo + (w / (2 ^ lo * 2 ^ (hi - lo + 1)) * 2 ^ (hi - lo + 1) + v % 2 ^ (hi - lo + 1)) * 2 ^ lo by ring,
      Nat.add_mul_mod_self_right, Nat.mod_mod]
  rw [e]

theorem setBits_lt {w hi lo v n : Nat} (hw : w < 2 ^ n) (h : lo ≤ hi) (hn : hi < n) : setBits w hi lo v < 2 ^ n := by
  unfold setBits
  have hp : 2 ^ n = 2 ^ (hi + 1) * 2 ^ (n - (hi + 1)) := by rw [← Nat.pow_add]; congr 1; omega
  have hq : 2 ^ (hi + 1) = 2 ^ lo * 2 ^ (hi - lo + 1) := by rw [← Nat.pow_add]; congr 1; omega
  have a := Nat.mod_lt v (Nat.two_pow_pos (hi - lo + 1))
  have b := Nat.mod_lt w (Nat.two_pow_pos lo)
  have c : w / 2 ^ (hi + 1) < 2 ^ (n - (hi + 1)) := by
    rw [Nat.div_lt_iff_lt_mul (Nat.two_pow_pos _), Nat.mul_comm, ← hp]; exact hw
  have d : v % 2 ^ (hi - lo + 1) * 2 ^ lo + w % 2 ^ lo < 2 ^ (hi + 1) := by rw [hq]; exact digit_lt a b
  rw [hp, Nat.add_assoc]
  exact digit_lt c d

theorem leBytes_length (n v : Nat) : (leBytes n v).length = n := by
  induction n generalizing v with
  | zero => rfl
  | succ n ih => simp [leBytes, ih]

/-- The bytes of a number read back as the number, cut to their width (R6). -/
theorem leNat_leBytes (n v : Nat) : leNat (leBytes n v) = v % 2 ^ (8 * n) := by
  induction n generalizing v with
  | zero => simp [leBytes, leNat, Nat.mod_one]
  | succ n ih =>
    simp only [leBytes, leNat, ih, BitVec.toNat_ofNat]
    rw [show 8 * (n + 1) = 8 + 8 * n by ring, Nat.pow_add, Nat.mod_mul]

/-! ### Tables -/

theorem Tbl.findIn_insertIn_same {α : Type} (k : Nat) (v : α) (l : List (Nat × α)) :
    Tbl.findIn k (Tbl.insertIn k v l) = some v := by
  induction l with
  | nil => simp [Tbl.insertIn, Tbl.findIn]
  | cons e r ih =>
    obtain ⟨a, w⟩ := e
    simp only [Tbl.insertIn]
    split_ifs with h1 h2
    · simp [Tbl.findIn]
    · simp [Tbl.findIn]
    · simp [Tbl.findIn, h1, ih]

theorem Tbl.findIn_insertIn_ne {α : Type} {k j : Nat} (h : j ≠ k) (v : α) (l : List (Nat × α)) :
    Tbl.findIn j (Tbl.insertIn k v l) = Tbl.findIn j l := by
  induction l with
  | nil => simp [Tbl.insertIn, Tbl.findIn, Ne.symm h]
  | cons e r ih =>
    obtain ⟨a, w⟩ := e
    simp only [Tbl.insertIn]
    split_ifs with h1 h2
    · subst h1; simp [Tbl.findIn, Ne.symm h]
    · simp [Tbl.findIn, Ne.symm h]
    · simp only [Tbl.findIn, ih]

@[simp] theorem Tbl.find_set_same {α : Type} (t : Tbl α) (k : Nat) (v : α) : (t.set k v).find k = some v :=
  Tbl.findIn_insertIn_same k v t.entries

theorem Tbl.find_set_ne {α : Type} (t : Tbl α) {k j : Nat} (h : j ≠ k) (v : α) : (t.set k v).find j = t.find j :=
  Tbl.findIn_insertIn_ne h v t.entries

@[simp] theorem Tbl.get_set_same {α : Type} (t : Tbl α) (d : α) (k : Nat) (v : α) : (t.set k v).get d k = v := by
  simp [Tbl.get]

theorem Tbl.get_set_ne {α : Type} (t : Tbl α) (d : α) {k j : Nat} (h : j ≠ k) (v : α) : (t.set k v).get d j = t.get d j := by
  simp [Tbl.get, Tbl.find_set_ne t h]

@[simp] theorem Tbl.find_empty {α : Type} (k : Nat) : (Tbl.empty : Tbl α).find k = none := rfl
@[simp] theorem Tbl.get_empty {α : Type} (d : α) (k : Nat) : (Tbl.empty : Tbl α).get d k = d := rfl

/-! ### Lists -/

theorem listSet_length {α : Type} (l : List α) (i : Nat) (v : α) : (listSet l i v).length = l.length := by
  induction l generalizing i with
  | nil => rfl
  | cons a r ih => cases i <;> simp [listSet, ih]

theorem listSet_getD_same {α : Type} (l : List α) (i : Nat) (v d : α) (h : i < l.length) : (listSet l i v).getD i d = v := by
  induction l generalizing i with
  | nil => simp at h
  | cons a r ih =>
    cases i with
    | zero => rfl
    | succ i => simpa [listSet] using ih i (by simpa using h)

theorem listSet_getD_ne {α : Type} (l : List α) {i j : Nat} (v d : α) (h : j ≠ i) : (listSet l i v).getD j d = l.getD j d := by
  induction l generalizing i j with
  | nil => rfl
  | cons a r ih =>
    cases i with
    | zero => cases j with
      | zero => exact absurd rfl h
      | succ j => rfl
    | succ i => cases j with
      | zero => rfl
      | succ j => simpa [listSet] using ih (fun e => h (by omega))

end Sys2Proof.Machine
end

