-- ==== Sys2Proof/Laws/Cells.lean ====
section
/-!
SUPPORT. Laws of cells: the lengths of their parts, the bounds of their check codes, and the check value that a cell's
bytes carry (R244, R249).
-/

namespace Sys2Proof.Machine

theorem slice_length (l : List Byte) (off n : Nat) : (slice l off n).length = n := by
  simp only [slice, List.length_append, List.length_replicate, List.length_take]
  omega

theorem crcBit_lt {poly c : Nat} (hp : poly < 2 ^ 32) (hc : c < 2 ^ 32) : crcBit poly c < 2 ^ 32 := by
  unfold crcBit
  split
  · exact Nat.xor_lt_two_pow (by omega) hp
  · omega

theorem crcByte_lt {poly c : Nat} {b : Byte} (hp : poly < 2 ^ 32) (hc : c < 2 ^ 32) : crcByte poly c b < 2 ^ 32 := by
  have h0 : c ^^^ b.toNat < 2 ^ 32 := Nat.xor_lt_two_pow hc (by have := b.isLt; omega)
  simp only [crcByte, iter]
  iterate 8 apply crcBit_lt hp
  exact h0

theorem foldl_crcByte_lt {poly : Nat} (hp : poly < 2 ^ 32) (l : List Byte) : ∀ {c : Nat}, c < 2 ^ 32 →
    l.foldl (crcByte poly) c < 2 ^ 32 := by
  induction l with
  | nil => exact fun h => h
  | cons b r ih => exact fun h => ih (crcByte_lt hp h)

theorem crc32cSeeded_lt {f : Nat} (h : f < 2 ^ 32) (l : List Byte) : crc32cSeeded f l < 2 ^ 32 :=
  Nat.xor_lt_two_pow (foldl_crcByte_lt (by decide) l h) (by decide)

theorem foldOf_lt (fab addr seq : Nat) : foldOf fab addr seq < 2 ^ 32 :=
  Nat.xor_lt_two_pow (foldl_crcByte_lt (by decide) _ (by decide)) (by decide)

theorem Cell.header_length (c : Cell) : c.header.length = 16 := leBytes_length 16 _

theorem Cell.body_length (c : Cell) : c.body.length = 272 := by
  simp only [Cell.body, List.length_append, c.header_length, slice_length]

/-- R249: the bytes of a cell pass under the fold they were made with. -/
theorem Cell.checkPasses_bytes (c : Cell) (ep : Nat) :
    checkPasses (foldOf c.dst c.devAddr c.seq) (c.bytes ep) = true := by
  have hb := c.body_length
  have ht : (c.bytes ep).take 272 = c.body := by
    simp only [Cell.bytes, List.append_assoc]
    rw [List.take_append_of_le_length (by omega), List.take_of_length_le (by omega)]
  have hl : leAt (c.bytes ep) 272 4 = crc32cSeeded (foldOf c.dst c.devAddr c.seq) c.body := by
    rw [← Nat.mod_eq_of_lt (crc32cSeeded_lt (foldOf_lt c.dst c.devAddr c.seq) c.body), ← leNat_leBytes 4]
    simp only [leAt, slice, Cell.bytes, List.append_assoc]
    rw [List.drop_append_of_le_length (by omega), List.drop_of_length_le (by omega), List.nil_append,
      List.take_append_of_le_length (by rw [leBytes_length]), List.take_of_length_le (by rw [leBytes_length])]
    simp only [leBytes_length, Nat.sub_self, List.replicate_zero, List.append_nil]
  rw [checkPasses, ht, hl, beq_self_eq_true]

end Sys2Proof.Machine
end

