-- ==== Sys2Proof/Laws/Mem.lean ====
section
/-! SUPPORT. Laws of memory: reading after writing, and the canonical form that every operation keeps. -/

namespace Sys2Proof.Machine

@[simp] theorem memGet_nil (a : Nat) : memGet [] a = 0 := rfl

theorem memWfFrom_weaken {m : List Host.Cell} {lo : Nat} (h : memWfFrom (some lo) m = true) : memWfFrom none m = true := by
  cases m with
  | nil => rfl
  | cons c r => obtain ⟨k, v⟩ := c; simp only [memWfFrom, Bool.and_eq_true] at h ⊢; exact ⟨⟨trivial, h.1.2⟩, h.2⟩

theorem memWfFrom_lower {m : List Host.Cell} {lo lo' : Nat} (hl : lo' ≤ lo) (h : memWfFrom (some lo) m = true) :
    memWfFrom (some lo') m = true := by
  cases m with
  | nil => rfl
  | cons c r =>
    obtain ⟨k, v⟩ := c
    simp only [memWfFrom, Bool.and_eq_true, decide_eq_true_eq] at h ⊢
    exact ⟨⟨by omega, h.1.2⟩, h.2⟩

/-- An address at or below the bound of a canonical list reads as zero. -/
theorem memGet_below {m : List Host.Cell} {lo a : Nat} (h : memWfFrom (some lo) m = true) (ha : a ≤ lo) : memGet m a = 0 := by
  induction m generalizing lo with
  | nil => rfl
  | cons c r ih =>
    obtain ⟨k, v⟩ := c
    simp only [memWfFrom, Bool.and_eq_true, decide_eq_true_eq] at h
    rw [memGet, if_neg (by omega)]
    exact ih h.2 (by omega)

theorem memPut_wfFrom {m : List Host.Cell} {lo : Option Nat} {a : Nat} {v : Byte} (h : memWfFrom lo m = true)
    (hlo : ∀ l, lo = some l → l < a) : memWfFrom lo (memPut m a v) = true := by
  induction m generalizing lo with
  | nil =>
    simp only [memPut]
    split
    · rfl
    · rename_i hv
      cases lo with
      | none => simp [memWfFrom]; exact hv
      | some l => simp [memWfFrom, hlo l rfl]; exact hv
  | cons c r ih =>
    obtain ⟨k, w⟩ := c
    simp only [memPut]
    simp only [memWfFrom, Bool.and_eq_true] at h
    obtain ⟨⟨h1, h2⟩, h3⟩ := h
    split_ifs with e1 e2 e3 e4
    · subst e1
      cases lo with
      | none => exact memWfFrom_weaken h3
      | some l => exact memWfFrom_lower (by have := hlo l rfl; omega) h3
    · subst e1
      simp only [memWfFrom, Bool.and_eq_true]
      exact ⟨⟨h1, by simpa using e2⟩, h3⟩
    · simp only [memWfFrom, Bool.and_eq_true]; exact ⟨⟨h1, h2⟩, h3⟩
    · simp only [memWfFrom, Bool.and_eq_true, decide_eq_true_eq]
      refine ⟨⟨?_, by simpa using e4⟩, ⟨e3, h2⟩, h3⟩
      cases lo with
      | none => rfl
      | some l => simpa using hlo l rfl
    · simp only [memWfFrom, Bool.and_eq_true]
      exact ⟨⟨h1, h2⟩, ih h3 (fun l hl => by cases hl; omega)⟩

/-- A byte written keeps the canonical form. -/
theorem memPut_wf {m : List Host.Cell} (h : Memory.wf m = true) (a : Nat) (v : Byte) : Memory.wf (memPut m a v) = true :=
  memPut_wfFrom h (fun _ e => by cases e)

/-- Reading the byte just written. -/
theorem memGet_memPut_same {m : List Host.Cell} {lo : Option Nat} (h : memWfFrom lo m = true) (a : Nat) (v : Byte) :
    memGet (memPut m a v) a = v := by
  induction m generalizing lo with
  | nil => simp only [memPut]; split <;> simp_all [memGet]
  | cons c r ih =>
    obtain ⟨k, w⟩ := c
    simp only [memPut]
    simp only [memWfFrom, Bool.and_eq_true] at h
    split_ifs with e1 e2 e3 e4
    · subst e1; rw [e2]; exact memGet_below h.2 (Nat.le_refl _)
    · simp [memGet]
    · rw [memGet, if_neg e1, e4]; exact memGet_below h.2 (by omega)
    · simp [memGet]
    · rw [memGet, if_neg e1]; exact ih h.2

/-- Reading another byte. -/
theorem memGet_memPut_ne {m : List Host.Cell} {lo : Option Nat} (h : memWfFrom lo m = true) {a b : Nat} (hb : b ≠ a)
    (v : Byte) : memGet (memPut m a v) b = memGet m b := by
  induction m generalizing lo with
  | nil => simp only [memPut]; split <;> simp [memGet, Ne.symm hb]
  | cons c r ih =>
    obtain ⟨k, w⟩ := c
    simp only [memPut]
    simp only [memWfFrom, Bool.and_eq_true] at h
    split_ifs with e1 e2 e3 e4
    · subst e1; rw [memGet, if_neg (Ne.symm hb)]
    · subst e1; rw [memGet, memGet, if_neg (Ne.symm hb), if_neg (Ne.symm hb)]
    · rfl
    · rw [memGet, if_neg (Ne.symm hb)]
    · simp only [memGet]; split
      · rfl
      · exact ih h.2

theorem memPutList_wf {m : List Host.Cell} (h : Memory.wf m = true) (a : Nat) (l : List Byte) :
    Memory.wf (memPutList m a l) = true := by
  induction l generalizing m a with
  | nil => exact h
  | cons b r ih => exact ih (memPut_wf h a b) (a + 1)

theorem memWfFrom_filter {m : List Host.Cell} {lo : Option Nat} (p : Host.Cell → Bool) (h : memWfFrom lo m = true) :
    memWfFrom lo (m.filter p) = true := by
  induction m generalizing lo with
  | nil => rfl
  | cons c r ih =>
    obtain ⟨k, w⟩ := c
    simp only [memWfFrom, Bool.and_eq_true] at h
    rw [List.filter_cons]
    split
    · simp only [memWfFrom, Bool.and_eq_true]; exact ⟨h.1, ih h.2⟩
    · have := ih h.2
      cases lo with
      | none => exact memWfFrom_weaken this
      | some l => exact memWfFrom_lower (by have := h.1.1; simp at this; omega) this

theorem memClear_wf {m : List Host.Cell} (h : Memory.wf m = true) (a n : Nat) : Memory.wf (memClear m a n) = true :=
  memWfFrom_filter _ h

/-- A cleared address reads as zero, and every other address as before. -/
theorem memGet_memClear {m : List Host.Cell} (a n b : Nat) :
    memGet (memClear m a n) b = if a ≤ b ∧ b < a + n then 0 else memGet m b := by
  induction m with
  | nil => simp [memClear]
  | cons c r ih =>
    obtain ⟨k, w⟩ := c
    unfold memClear at ih ⊢
    rw [List.filter_cons]
    by_cases hk : k < a ∨ a + n ≤ k
    · rw [if_pos (by simpa using hk)]
      simp only [memGet]
      by_cases e : k = b
      · subst e; rw [if_pos rfl, if_pos rfl, if_neg (by omega)]
      · rw [if_neg e, if_neg e]; exact ih
    · rw [if_neg (by simpa using hk)]
      rw [ih]
      split_ifs with hb
      · rfl
      · rw [memGet, if_neg (by omega)]

theorem foldl_memPut_wf (f : Host.Cell → Nat) (cs : List Host.Cell) {m : List Host.Cell} (h : Memory.wf m = true) :
    Memory.wf (cs.foldl (fun m c => memPut m (f c) c.2) m) = true := by
  induction cs generalizing m with
  | nil => exact h
  | cons c r ih => exact ih (memPut_wf h _ _)

theorem memLay_wf {m : List Host.Cell} (h : Memory.wf m = true) (a n : Nat) (cs : List Host.Cell) :
    Memory.wf (memLay m a n cs) = true := foldl_memPut_wf _ _ (memClear_wf h a n)

/-- The memory at reset is canonical. -/
theorem reset_mem_wf : Memory.wf State.reset.mem = true := rfl

end Sys2Proof.Machine
end

