-- ==== Sys2Proof/Laws/State.lean ====
section
/-! SUPPORT. What each update of the state leaves as it was, field by field, and what reading back an update gives. -/

namespace Sys2Proof.Machine

/-! ### rset -/

@[simp] theorem State.rset_pending (s : State) (o v : Nat) : (s.rset o v).pending = s.pending := rfl
@[simp] theorem State.rset_timeUs (s : State) (o v : Nat) : (s.rset o v).timeUs = s.timeUs := rfl
@[simp] theorem State.rset_free (s : State) (o v : Nat) : (s.rset o v).free = s.free := rfl
@[simp] theorem State.rset_mem (s : State) (o v : Nat) : (s.rset o v).mem = s.mem := rfl
@[simp] theorem State.rset_ecc (s : State) (o v : Nat) : (s.rset o v).ecc = s.ecc := rfl
@[simp] theorem State.rset_badSeg (s : State) (o v : Nat) : (s.rset o v).badSeg = s.badSeg := rfl
@[simp] theorem State.rset_evq (s : State) (o v : Nat) : (s.rset o v).evq = s.evq := rfl
@[simp] theorem State.rset_evSeq (s : State) (o v : Nat) : (s.rset o v).evSeq = s.evSeq := rfl
@[simp] theorem State.rset_lastEvent (s : State) (o v : Nat) : (s.rset o v).lastEvent = s.lastEvent := rfl
@[simp] theorem State.rset_evLog (s : State) (o v : Nat) : (s.rset o v).evLog = s.evLog := rfl
@[simp] theorem State.rset_tick (s : State) (o v : Nat) : (s.rset o v).tick = s.tick := rfl
@[simp] theorem State.rset_cores (s : State) (o v : Nat) : (s.rset o v).cores = s.cores := rfl
@[simp] theorem State.rset_dies (s : State) (o v : Nat) : (s.rset o v).dies = s.dies := rfl
@[simp] theorem State.rset_ctxs (s : State) (o v : Nat) : (s.rset o v).ctxs = s.ctxs := rfl
@[simp] theorem State.rset_out (s : State) (o v : Nat) : (s.rset o v).out = s.out := rfl
@[simp] theorem State.rset_links (s : State) (o v : Nat) : (s.rset o v).links = s.links := rfl
@[simp] theorem State.rset_peers (s : State) (o v : Nat) : (s.rset o v).peers = s.peers := rfl
@[simp] theorem State.rset_routes (s : State) (o v : Nat) : (s.rset o v).routes = s.routes := rfl
@[simp] theorem State.rset_xfers (s : State) (o v : Nat) : (s.rset o v).xfers = s.xfers := rfl
@[simp] theorem State.rset_ended (s : State) (o v : Nat) : (s.rset o v).ended = s.ended := rfl
@[simp] theorem State.rset_nextXfer (s : State) (o v : Nat) : (s.rset o v).nextXfer = s.nextXfer := rfl
@[simp] theorem State.rset_parts (s : State) (o v : Nat) : (s.rset o v).parts = s.parts := rfl
@[simp] theorem State.rset_tck (s : State) (o v : Nat) : (s.rset o v).tck = s.tck := rfl
@[simp] theorem State.rset_phase (s : State) (o v : Nat) : (s.rset o v).phase = s.phase := rfl
@[simp] theorem State.rset_hpt (s : State) (o v : Nat) : (s.rset o v).hpt = s.hpt := rfl
@[simp] theorem State.rset_rst (s : State) (o v : Nat) : (s.rset o v).rst = s.rst := rfl
@[simp] theorem State.rset_bridgeAt (s : State) (o v : Nat) : (s.rset o v).bridgeAt = s.bridgeAt := rfl
@[simp] theorem State.rset_sec (s : State) (o v : Nat) : (s.rset o v).sec = s.sec := rfl
@[simp] theorem State.rset_pwr (s : State) (o v : Nat) : (s.rset o v).pwr = s.pwr := rfl
@[simp] theorem State.rset_side (s : State) (o v : Nat) : (s.rset o v).side = s.side := rfl

/-! ### fset -/

@[simp] theorem State.fset_pending (s : State) (f : Fld) (v : Nat) : (s.fset f v).pending = s.pending := rfl
@[simp] theorem State.fset_timeUs (s : State) (f : Fld) (v : Nat) : (s.fset f v).timeUs = s.timeUs := rfl
@[simp] theorem State.fset_free (s : State) (f : Fld) (v : Nat) : (s.fset f v).free = s.free := rfl
@[simp] theorem State.fset_mem (s : State) (f : Fld) (v : Nat) : (s.fset f v).mem = s.mem := rfl
@[simp] theorem State.fset_ecc (s : State) (f : Fld) (v : Nat) : (s.fset f v).ecc = s.ecc := rfl
@[simp] theorem State.fset_badSeg (s : State) (f : Fld) (v : Nat) : (s.fset f v).badSeg = s.badSeg := rfl
@[simp] theorem State.fset_evq (s : State) (f : Fld) (v : Nat) : (s.fset f v).evq = s.evq := rfl
@[simp] theorem State.fset_evSeq (s : State) (f : Fld) (v : Nat) : (s.fset f v).evSeq = s.evSeq := rfl
@[simp] theorem State.fset_lastEvent (s : State) (f : Fld) (v : Nat) : (s.fset f v).lastEvent = s.lastEvent := rfl
@[simp] theorem State.fset_evLog (s : State) (f : Fld) (v : Nat) : (s.fset f v).evLog = s.evLog := rfl
@[simp] theorem State.fset_tick (s : State) (f : Fld) (v : Nat) : (s.fset f v).tick = s.tick := rfl
@[simp] theorem State.fset_cores (s : State) (f : Fld) (v : Nat) : (s.fset f v).cores = s.cores := rfl
@[simp] theorem State.fset_dies (s : State) (f : Fld) (v : Nat) : (s.fset f v).dies = s.dies := rfl
@[simp] theorem State.fset_ctxs (s : State) (f : Fld) (v : Nat) : (s.fset f v).ctxs = s.ctxs := rfl
@[simp] theorem State.fset_out (s : State) (f : Fld) (v : Nat) : (s.fset f v).out = s.out := rfl
@[simp] theorem State.fset_links (s : State) (f : Fld) (v : Nat) : (s.fset f v).links = s.links := rfl
@[simp] theorem State.fset_peers (s : State) (f : Fld) (v : Nat) : (s.fset f v).peers = s.peers := rfl
@[simp] theorem State.fset_routes (s : State) (f : Fld) (v : Nat) : (s.fset f v).routes = s.routes := rfl
@[simp] theorem State.fset_xfers (s : State) (f : Fld) (v : Nat) : (s.fset f v).xfers = s.xfers := rfl
@[simp] theorem State.fset_ended (s : State) (f : Fld) (v : Nat) : (s.fset f v).ended = s.ended := rfl
@[simp] theorem State.fset_nextXfer (s : State) (f : Fld) (v : Nat) : (s.fset f v).nextXfer = s.nextXfer := rfl
@[simp] theorem State.fset_parts (s : State) (f : Fld) (v : Nat) : (s.fset f v).parts = s.parts := rfl
@[simp] theorem State.fset_tck (s : State) (f : Fld) (v : Nat) : (s.fset f v).tck = s.tck := rfl
@[simp] theorem State.fset_phase (s : State) (f : Fld) (v : Nat) : (s.fset f v).phase = s.phase := rfl
@[simp] theorem State.fset_hpt (s : State) (f : Fld) (v : Nat) : (s.fset f v).hpt = s.hpt := rfl
@[simp] theorem State.fset_rst (s : State) (f : Fld) (v : Nat) : (s.fset f v).rst = s.rst := rfl
@[simp] theorem State.fset_bridgeAt (s : State) (f : Fld) (v : Nat) : (s.fset f v).bridgeAt = s.bridgeAt := rfl
@[simp] theorem State.fset_sec (s : State) (f : Fld) (v : Nat) : (s.fset f v).sec = s.sec := rfl
@[simp] theorem State.fset_pwr (s : State) (f : Fld) (v : Nat) : (s.fset f v).pwr = s.pwr := rfl
@[simp] theorem State.fset_side (s : State) (f : Fld) (v : Nat) : (s.fset f v).side = s.side := rfl

/-! ### fadd -/

@[simp] theorem State.fadd_pending (s : State) (f : Fld) (n : Nat) : (s.fadd f n).pending = s.pending := rfl
@[simp] theorem State.fadd_timeUs (s : State) (f : Fld) (n : Nat) : (s.fadd f n).timeUs = s.timeUs := rfl
@[simp] theorem State.fadd_free (s : State) (f : Fld) (n : Nat) : (s.fadd f n).free = s.free := rfl
@[simp] theorem State.fadd_mem (s : State) (f : Fld) (n : Nat) : (s.fadd f n).mem = s.mem := rfl
@[simp] theorem State.fadd_ecc (s : State) (f : Fld) (n : Nat) : (s.fadd f n).ecc = s.ecc := rfl
@[simp] theorem State.fadd_badSeg (s : State) (f : Fld) (n : Nat) : (s.fadd f n).badSeg = s.badSeg := rfl
@[simp] theorem State.fadd_evq (s : State) (f : Fld) (n : Nat) : (s.fadd f n).evq = s.evq := rfl
@[simp] theorem State.fadd_evSeq (s : State) (f : Fld) (n : Nat) : (s.fadd f n).evSeq = s.evSeq := rfl
@[simp] theorem State.fadd_lastEvent (s : State) (f : Fld) (n : Nat) : (s.fadd f n).lastEvent = s.lastEvent := rfl
@[simp] theorem State.fadd_evLog (s : State) (f : Fld) (n : Nat) : (s.fadd f n).evLog = s.evLog := rfl
@[simp] theorem State.fadd_tick (s : State) (f : Fld) (n : Nat) : (s.fadd f n).tick = s.tick := rfl
@[simp] theorem State.fadd_cores (s : State) (f : Fld) (n : Nat) : (s.fadd f n).cores = s.cores := rfl
@[simp] theorem State.fadd_dies (s : State) (f : Fld) (n : Nat) : (s.fadd f n).dies = s.dies := rfl
@[simp] theorem State.fadd_ctxs (s : State) (f : Fld) (n : Nat) : (s.fadd f n).ctxs = s.ctxs := rfl
@[simp] theorem State.fadd_out (s : State) (f : Fld) (n : Nat) : (s.fadd f n).out = s.out := rfl
@[simp] theorem State.fadd_links (s : State) (f : Fld) (n : Nat) : (s.fadd f n).links = s.links := rfl
@[simp] theorem State.fadd_peers (s : State) (f : Fld) (n : Nat) : (s.fadd f n).peers = s.peers := rfl
@[simp] theorem State.fadd_routes (s : State) (f : Fld) (n : Nat) : (s.fadd f n).routes = s.routes := rfl
@[simp] theorem State.fadd_xfers (s : State) (f : Fld) (n : Nat) : (s.fadd f n).xfers = s.xfers := rfl
@[simp] theorem State.fadd_ended (s : State) (f : Fld) (n : Nat) : (s.fadd f n).ended = s.ended := rfl
@[simp] theorem State.fadd_nextXfer (s : State) (f : Fld) (n : Nat) : (s.fadd f n).nextXfer = s.nextXfer := rfl
@[simp] theorem State.fadd_parts (s : State) (f : Fld) (n : Nat) : (s.fadd f n).parts = s.parts := rfl
@[simp] theorem State.fadd_tck (s : State) (f : Fld) (n : Nat) : (s.fadd f n).tck = s.tck := rfl
@[simp] theorem State.fadd_phase (s : State) (f : Fld) (n : Nat) : (s.fadd f n).phase = s.phase := rfl
@[simp] theorem State.fadd_hpt (s : State) (f : Fld) (n : Nat) : (s.fadd f n).hpt = s.hpt := rfl
@[simp] theorem State.fadd_rst (s : State) (f : Fld) (n : Nat) : (s.fadd f n).rst = s.rst := rfl
@[simp] theorem State.fadd_bridgeAt (s : State) (f : Fld) (n : Nat) : (s.fadd f n).bridgeAt = s.bridgeAt := rfl
@[simp] theorem State.fadd_sec (s : State) (f : Fld) (n : Nat) : (s.fadd f n).sec = s.sec := rfl
@[simp] theorem State.fadd_pwr (s : State) (f : Fld) (n : Nat) : (s.fadd f n).pwr = s.pwr := rfl
@[simp] theorem State.fadd_side (s : State) (f : Fld) (n : Nat) : (s.fadd f n).side = s.side := rfl

/-! ### fwrap -/

@[simp] theorem State.fwrap_pending (s : State) (f : Fld) (n : Nat) : (s.fwrap f n).pending = s.pending := rfl
@[simp] theorem State.fwrap_timeUs (s : State) (f : Fld) (n : Nat) : (s.fwrap f n).timeUs = s.timeUs := rfl
@[simp] theorem State.fwrap_free (s : State) (f : Fld) (n : Nat) : (s.fwrap f n).free = s.free := rfl
@[simp] theorem State.fwrap_mem (s : State) (f : Fld) (n : Nat) : (s.fwrap f n).mem = s.mem := rfl
@[simp] theorem State.fwrap_ecc (s : State) (f : Fld) (n : Nat) : (s.fwrap f n).ecc = s.ecc := rfl
@[simp] theorem State.fwrap_badSeg (s : State) (f : Fld) (n : Nat) : (s.fwrap f n).badSeg = s.badSeg := rfl
@[simp] theorem State.fwrap_evq (s : State) (f : Fld) (n : Nat) : (s.fwrap f n).evq = s.evq := rfl
@[simp] theorem State.fwrap_evSeq (s : State) (f : Fld) (n : Nat) : (s.fwrap f n).evSeq = s.evSeq := rfl
@[simp] theorem State.fwrap_lastEvent (s : State) (f : Fld) (n : Nat) : (s.fwrap f n).lastEvent = s.lastEvent := rfl
@[simp] theorem State.fwrap_evLog (s : State) (f : Fld) (n : Nat) : (s.fwrap f n).evLog = s.evLog := rfl
@[simp] theorem State.fwrap_tick (s : State) (f : Fld) (n : Nat) : (s.fwrap f n).tick = s.tick := rfl
@[simp] theorem State.fwrap_cores (s : State) (f : Fld) (n : Nat) : (s.fwrap f n).cores = s.cores := rfl
@[simp] theorem State.fwrap_dies (s : State) (f : Fld) (n : Nat) : (s.fwrap f n).dies = s.dies := rfl
@[simp] theorem State.fwrap_ctxs (s : State) (f : Fld) (n : Nat) : (s.fwrap f n).ctxs = s.ctxs := rfl
@[simp] theorem State.fwrap_out (s : State) (f : Fld) (n : Nat) : (s.fwrap f n).out = s.out := rfl
@[simp] theorem State.fwrap_links (s : State) (f : Fld) (n : Nat) : (s.fwrap f n).links = s.links := rfl
@[simp] theorem State.fwrap_peers (s : State) (f : Fld) (n : Nat) : (s.fwrap f n).peers = s.peers := rfl
@[simp] theorem State.fwrap_routes (s : State) (f : Fld) (n : Nat) : (s.fwrap f n).routes = s.routes := rfl
@[simp] theorem State.fwrap_xfers (s : State) (f : Fld) (n : Nat) : (s.fwrap f n).xfers = s.xfers := rfl
@[simp] theorem State.fwrap_ended (s : State) (f : Fld) (n : Nat) : (s.fwrap f n).ended = s.ended := rfl
@[simp] theorem State.fwrap_nextXfer (s : State) (f : Fld) (n : Nat) : (s.fwrap f n).nextXfer = s.nextXfer := rfl
@[simp] theorem State.fwrap_parts (s : State) (f : Fld) (n : Nat) : (s.fwrap f n).parts = s.parts := rfl
@[simp] theorem State.fwrap_tck (s : State) (f : Fld) (n : Nat) : (s.fwrap f n).tck = s.tck := rfl
@[simp] theorem State.fwrap_phase (s : State) (f : Fld) (n : Nat) : (s.fwrap f n).phase = s.phase := rfl
@[simp] theorem State.fwrap_hpt (s : State) (f : Fld) (n : Nat) : (s.fwrap f n).hpt = s.hpt := rfl
@[simp] theorem State.fwrap_rst (s : State) (f : Fld) (n : Nat) : (s.fwrap f n).rst = s.rst := rfl
@[simp] theorem State.fwrap_bridgeAt (s : State) (f : Fld) (n : Nat) : (s.fwrap f n).bridgeAt = s.bridgeAt := rfl
@[simp] theorem State.fwrap_sec (s : State) (f : Fld) (n : Nat) : (s.fwrap f n).sec = s.sec := rfl
@[simp] theorem State.fwrap_pwr (s : State) (f : Fld) (n : Nat) : (s.fwrap f n).pwr = s.pwr := rfl
@[simp] theorem State.fwrap_side (s : State) (f : Fld) (n : Nat) : (s.fwrap f n).side = s.side := rfl

/-! ### setCore -/

@[simp] theorem State.setCore_pending (s : State) (g : Nat) (x : Core) : (s.setCore g x).pending = s.pending := rfl
@[simp] theorem State.setCore_timeUs (s : State) (g : Nat) (x : Core) : (s.setCore g x).timeUs = s.timeUs := rfl
@[simp] theorem State.setCore_free (s : State) (g : Nat) (x : Core) : (s.setCore g x).free = s.free := rfl
@[simp] theorem State.setCore_regs (s : State) (g : Nat) (x : Core) : (s.setCore g x).regs = s.regs := rfl
@[simp] theorem State.setCore_mem (s : State) (g : Nat) (x : Core) : (s.setCore g x).mem = s.mem := rfl
@[simp] theorem State.setCore_ecc (s : State) (g : Nat) (x : Core) : (s.setCore g x).ecc = s.ecc := rfl
@[simp] theorem State.setCore_badSeg (s : State) (g : Nat) (x : Core) : (s.setCore g x).badSeg = s.badSeg := rfl
@[simp] theorem State.setCore_evq (s : State) (g : Nat) (x : Core) : (s.setCore g x).evq = s.evq := rfl
@[simp] theorem State.setCore_evSeq (s : State) (g : Nat) (x : Core) : (s.setCore g x).evSeq = s.evSeq := rfl
@[simp] theorem State.setCore_lastEvent (s : State) (g : Nat) (x : Core) : (s.setCore g x).lastEvent = s.lastEvent := rfl
@[simp] theorem State.setCore_evLog (s : State) (g : Nat) (x : Core) : (s.setCore g x).evLog = s.evLog := rfl
@[simp] theorem State.setCore_tick (s : State) (g : Nat) (x : Core) : (s.setCore g x).tick = s.tick := rfl
@[simp] theorem State.setCore_dies (s : State) (g : Nat) (x : Core) : (s.setCore g x).dies = s.dies := rfl
@[simp] theorem State.setCore_ctxs (s : State) (g : Nat) (x : Core) : (s.setCore g x).ctxs = s.ctxs := rfl
@[simp] theorem State.setCore_out (s : State) (g : Nat) (x : Core) : (s.setCore g x).out = s.out := rfl
@[simp] theorem State.setCore_links (s : State) (g : Nat) (x : Core) : (s.setCore g x).links = s.links := rfl
@[simp] theorem State.setCore_peers (s : State) (g : Nat) (x : Core) : (s.setCore g x).peers = s.peers := rfl
@[simp] theorem State.setCore_routes (s : State) (g : Nat) (x : Core) : (s.setCore g x).routes = s.routes := rfl
@[simp] theorem State.setCore_xfers (s : State) (g : Nat) (x : Core) : (s.setCore g x).xfers = s.xfers := rfl
@[simp] theorem State.setCore_ended (s : State) (g : Nat) (x : Core) : (s.setCore g x).ended = s.ended := rfl
@[simp] theorem State.setCore_nextXfer (s : State) (g : Nat) (x : Core) : (s.setCore g x).nextXfer = s.nextXfer := rfl
@[simp] theorem State.setCore_parts (s : State) (g : Nat) (x : Core) : (s.setCore g x).parts = s.parts := rfl
@[simp] theorem State.setCore_tck (s : State) (g : Nat) (x : Core) : (s.setCore g x).tck = s.tck := rfl
@[simp] theorem State.setCore_phase (s : State) (g : Nat) (x : Core) : (s.setCore g x).phase = s.phase := rfl
@[simp] theorem State.setCore_hpt (s : State) (g : Nat) (x : Core) : (s.setCore g x).hpt = s.hpt := rfl
@[simp] theorem State.setCore_rst (s : State) (g : Nat) (x : Core) : (s.setCore g x).rst = s.rst := rfl
@[simp] theorem State.setCore_bridgeAt (s : State) (g : Nat) (x : Core) : (s.setCore g x).bridgeAt = s.bridgeAt := rfl
@[simp] theorem State.setCore_sec (s : State) (g : Nat) (x : Core) : (s.setCore g x).sec = s.sec := rfl
@[simp] theorem State.setCore_pwr (s : State) (g : Nat) (x : Core) : (s.setCore g x).pwr = s.pwr := rfl
@[simp] theorem State.setCore_side (s : State) (g : Nat) (x : Core) : (s.setCore g x).side = s.side := rfl

/-! ### modCore -/

@[simp] theorem State.modCore_pending (s : State) (g : Nat) (f : Core → Core) : (s.modCore g f).pending = s.pending := rfl
@[simp] theorem State.modCore_timeUs (s : State) (g : Nat) (f : Core → Core) : (s.modCore g f).timeUs = s.timeUs := rfl
@[simp] theorem State.modCore_free (s : State) (g : Nat) (f : Core → Core) : (s.modCore g f).free = s.free := rfl
@[simp] theorem State.modCore_regs (s : State) (g : Nat) (f : Core → Core) : (s.modCore g f).regs = s.regs := rfl
@[simp] theorem State.modCore_mem (s : State) (g : Nat) (f : Core → Core) : (s.modCore g f).mem = s.mem := rfl
@[simp] theorem State.modCore_ecc (s : State) (g : Nat) (f : Core → Core) : (s.modCore g f).ecc = s.ecc := rfl
@[simp] theorem State.modCore_badSeg (s : State) (g : Nat) (f : Core → Core) : (s.modCore g f).badSeg = s.badSeg := rfl
@[simp] theorem State.modCore_evq (s : State) (g : Nat) (f : Core → Core) : (s.modCore g f).evq = s.evq := rfl
@[simp] theorem State.modCore_evSeq (s : State) (g : Nat) (f : Core → Core) : (s.modCore g f).evSeq = s.evSeq := rfl
@[simp] theorem State.modCore_lastEvent (s : State) (g : Nat) (f : Core → Core) : (s.modCore g f).lastEvent = s.lastEvent := rfl
@[simp] theorem State.modCore_evLog (s : State) (g : Nat) (f : Core → Core) : (s.modCore g f).evLog = s.evLog := rfl
@[simp] theorem State.modCore_tick (s : State) (g : Nat) (f : Core → Core) : (s.modCore g f).tick = s.tick := rfl
@[simp] theorem State.modCore_dies (s : State) (g : Nat) (f : Core → Core) : (s.modCore g f).dies = s.dies := rfl
@[simp] theorem State.modCore_ctxs (s : State) (g : Nat) (f : Core → Core) : (s.modCore g f).ctxs = s.ctxs := rfl
@[simp] theorem State.modCore_out (s : State) (g : Nat) (f : Core → Core) : (s.modCore g f).out = s.out := rfl
@[simp] theorem State.modCore_links (s : State) (g : Nat) (f : Core → Core) : (s.modCore g f).links = s.links := rfl
@[simp] theorem State.modCore_peers (s : State) (g : Nat) (f : Core → Core) : (s.modCore g f).peers = s.peers := rfl
@[simp] theorem State.modCore_routes (s : State) (g : Nat) (f : Core → Core) : (s.modCore g f).routes = s.routes := rfl
@[simp] theorem State.modCore_xfers (s : State) (g : Nat) (f : Core → Core) : (s.modCore g f).xfers = s.xfers := rfl
@[simp] theorem State.modCore_ended (s : State) (g : Nat) (f : Core → Core) : (s.modCore g f).ended = s.ended := rfl
@[simp] theorem State.modCore_nextXfer (s : State) (g : Nat) (f : Core → Core) : (s.modCore g f).nextXfer = s.nextXfer := rfl
@[simp] theorem State.modCore_parts (s : State) (g : Nat) (f : Core → Core) : (s.modCore g f).parts = s.parts := rfl
@[simp] theorem State.modCore_tck (s : State) (g : Nat) (f : Core → Core) : (s.modCore g f).tck = s.tck := rfl
@[simp] theorem State.modCore_phase (s : State) (g : Nat) (f : Core → Core) : (s.modCore g f).phase = s.phase := rfl
@[simp] theorem State.modCore_hpt (s : State) (g : Nat) (f : Core → Core) : (s.modCore g f).hpt = s.hpt := rfl
@[simp] theorem State.modCore_rst (s : State) (g : Nat) (f : Core → Core) : (s.modCore g f).rst = s.rst := rfl
@[simp] theorem State.modCore_bridgeAt (s : State) (g : Nat) (f : Core → Core) : (s.modCore g f).bridgeAt = s.bridgeAt := rfl
@[simp] theorem State.modCore_sec (s : State) (g : Nat) (f : Core → Core) : (s.modCore g f).sec = s.sec := rfl
@[simp] theorem State.modCore_pwr (s : State) (g : Nat) (f : Core → Core) : (s.modCore g f).pwr = s.pwr := rfl
@[simp] theorem State.modCore_side (s : State) (g : Nat) (f : Core → Core) : (s.modCore g f).side = s.side := rfl

/-! ### setDie -/

@[simp] theorem State.setDie_pending (s : State) (d : Nat) (x : Die) : (s.setDie d x).pending = s.pending := rfl
@[simp] theorem State.setDie_timeUs (s : State) (d : Nat) (x : Die) : (s.setDie d x).timeUs = s.timeUs := rfl
@[simp] theorem State.setDie_free (s : State) (d : Nat) (x : Die) : (s.setDie d x).free = s.free := rfl
@[simp] theorem State.setDie_regs (s : State) (d : Nat) (x : Die) : (s.setDie d x).regs = s.regs := rfl
@[simp] theorem State.setDie_mem (s : State) (d : Nat) (x : Die) : (s.setDie d x).mem = s.mem := rfl
@[simp] theorem State.setDie_ecc (s : State) (d : Nat) (x : Die) : (s.setDie d x).ecc = s.ecc := rfl
@[simp] theorem State.setDie_badSeg (s : State) (d : Nat) (x : Die) : (s.setDie d x).badSeg = s.badSeg := rfl
@[simp] theorem State.setDie_evq (s : State) (d : Nat) (x : Die) : (s.setDie d x).evq = s.evq := rfl
@[simp] theorem State.setDie_evSeq (s : State) (d : Nat) (x : Die) : (s.setDie d x).evSeq = s.evSeq := rfl
@[simp] theorem State.setDie_lastEvent (s : State) (d : Nat) (x : Die) : (s.setDie d x).lastEvent = s.lastEvent := rfl
@[simp] theorem State.setDie_evLog (s : State) (d : Nat) (x : Die) : (s.setDie d x).evLog = s.evLog := rfl
@[simp] theorem State.setDie_tick (s : State) (d : Nat) (x : Die) : (s.setDie d x).tick = s.tick := rfl
@[simp] theorem State.setDie_cores (s : State) (d : Nat) (x : Die) : (s.setDie d x).cores = s.cores := rfl
@[simp] theorem State.setDie_ctxs (s : State) (d : Nat) (x : Die) : (s.setDie d x).ctxs = s.ctxs := rfl
@[simp] theorem State.setDie_out (s : State) (d : Nat) (x : Die) : (s.setDie d x).out = s.out := rfl
@[simp] theorem State.setDie_links (s : State) (d : Nat) (x : Die) : (s.setDie d x).links = s.links := rfl
@[simp] theorem State.setDie_peers (s : State) (d : Nat) (x : Die) : (s.setDie d x).peers = s.peers := rfl
@[simp] theorem State.setDie_routes (s : State) (d : Nat) (x : Die) : (s.setDie d x).routes = s.routes := rfl
@[simp] theorem State.setDie_xfers (s : State) (d : Nat) (x : Die) : (s.setDie d x).xfers = s.xfers := rfl
@[simp] theorem State.setDie_ended (s : State) (d : Nat) (x : Die) : (s.setDie d x).ended = s.ended := rfl
@[simp] theorem State.setDie_nextXfer (s : State) (d : Nat) (x : Die) : (s.setDie d x).nextXfer = s.nextXfer := rfl
@[simp] theorem State.setDie_parts (s : State) (d : Nat) (x : Die) : (s.setDie d x).parts = s.parts := rfl
@[simp] theorem State.setDie_tck (s : State) (d : Nat) (x : Die) : (s.setDie d x).tck = s.tck := rfl
@[simp] theorem State.setDie_phase (s : State) (d : Nat) (x : Die) : (s.setDie d x).phase = s.phase := rfl
@[simp] theorem State.setDie_hpt (s : State) (d : Nat) (x : Die) : (s.setDie d x).hpt = s.hpt := rfl
@[simp] theorem State.setDie_rst (s : State) (d : Nat) (x : Die) : (s.setDie d x).rst = s.rst := rfl
@[simp] theorem State.setDie_bridgeAt (s : State) (d : Nat) (x : Die) : (s.setDie d x).bridgeAt = s.bridgeAt := rfl
@[simp] theorem State.setDie_sec (s : State) (d : Nat) (x : Die) : (s.setDie d x).sec = s.sec := rfl
@[simp] theorem State.setDie_pwr (s : State) (d : Nat) (x : Die) : (s.setDie d x).pwr = s.pwr := rfl
@[simp] theorem State.setDie_side (s : State) (d : Nat) (x : Die) : (s.setDie d x).side = s.side := rfl

/-! ### modDie -/

@[simp] theorem State.modDie_pending (s : State) (d : Nat) (f : Die → Die) : (s.modDie d f).pending = s.pending := rfl
@[simp] theorem State.modDie_timeUs (s : State) (d : Nat) (f : Die → Die) : (s.modDie d f).timeUs = s.timeUs := rfl
@[simp] theorem State.modDie_free (s : State) (d : Nat) (f : Die → Die) : (s.modDie d f).free = s.free := rfl
@[simp] theorem State.modDie_regs (s : State) (d : Nat) (f : Die → Die) : (s.modDie d f).regs = s.regs := rfl
@[simp] theorem State.modDie_mem (s : State) (d : Nat) (f : Die → Die) : (s.modDie d f).mem = s.mem := rfl
@[simp] theorem State.modDie_ecc (s : State) (d : Nat) (f : Die → Die) : (s.modDie d f).ecc = s.ecc := rfl
@[simp] theorem State.modDie_badSeg (s : State) (d : Nat) (f : Die → Die) : (s.modDie d f).badSeg = s.badSeg := rfl
@[simp] theorem State.modDie_evq (s : State) (d : Nat) (f : Die → Die) : (s.modDie d f).evq = s.evq := rfl
@[simp] theorem State.modDie_evSeq (s : State) (d : Nat) (f : Die → Die) : (s.modDie d f).evSeq = s.evSeq := rfl
@[simp] theorem State.modDie_lastEvent (s : State) (d : Nat) (f : Die → Die) : (s.modDie d f).lastEvent = s.lastEvent := rfl
@[simp] theorem State.modDie_evLog (s : State) (d : Nat) (f : Die → Die) : (s.modDie d f).evLog = s.evLog := rfl
@[simp] theorem State.modDie_tick (s : State) (d : Nat) (f : Die → Die) : (s.modDie d f).tick = s.tick := rfl
@[simp] theorem State.modDie_cores (s : State) (d : Nat) (f : Die → Die) : (s.modDie d f).cores = s.cores := rfl
@[simp] theorem State.modDie_ctxs (s : State) (d : Nat) (f : Die → Die) : (s.modDie d f).ctxs = s.ctxs := rfl
@[simp] theorem State.modDie_out (s : State) (d : Nat) (f : Die → Die) : (s.modDie d f).out = s.out := rfl
@[simp] theorem State.modDie_links (s : State) (d : Nat) (f : Die → Die) : (s.modDie d f).links = s.links := rfl
@[simp] theorem State.modDie_peers (s : State) (d : Nat) (f : Die → Die) : (s.modDie d f).peers = s.peers := rfl
@[simp] theorem State.modDie_routes (s : State) (d : Nat) (f : Die → Die) : (s.modDie d f).routes = s.routes := rfl
@[simp] theorem State.modDie_xfers (s : State) (d : Nat) (f : Die → Die) : (s.modDie d f).xfers = s.xfers := rfl
@[simp] theorem State.modDie_ended (s : State) (d : Nat) (f : Die → Die) : (s.modDie d f).ended = s.ended := rfl
@[simp] theorem State.modDie_nextXfer (s : State) (d : Nat) (f : Die → Die) : (s.modDie d f).nextXfer = s.nextXfer := rfl
@[simp] theorem State.modDie_parts (s : State) (d : Nat) (f : Die → Die) : (s.modDie d f).parts = s.parts := rfl
@[simp] theorem State.modDie_tck (s : State) (d : Nat) (f : Die → Die) : (s.modDie d f).tck = s.tck := rfl
@[simp] theorem State.modDie_phase (s : State) (d : Nat) (f : Die → Die) : (s.modDie d f).phase = s.phase := rfl
@[simp] theorem State.modDie_hpt (s : State) (d : Nat) (f : Die → Die) : (s.modDie d f).hpt = s.hpt := rfl
@[simp] theorem State.modDie_rst (s : State) (d : Nat) (f : Die → Die) : (s.modDie d f).rst = s.rst := rfl
@[simp] theorem State.modDie_bridgeAt (s : State) (d : Nat) (f : Die → Die) : (s.modDie d f).bridgeAt = s.bridgeAt := rfl
@[simp] theorem State.modDie_sec (s : State) (d : Nat) (f : Die → Die) : (s.modDie d f).sec = s.sec := rfl
@[simp] theorem State.modDie_pwr (s : State) (d : Nat) (f : Die → Die) : (s.modDie d f).pwr = s.pwr := rfl
@[simp] theorem State.modDie_side (s : State) (d : Nat) (f : Die → Die) : (s.modDie d f).side = s.side := rfl

/-! ### setCtx -/

@[simp] theorem State.setCtx_pending (s : State) (c : Nat) (x : Ctx) : (s.setCtx c x).pending = s.pending := rfl
@[simp] theorem State.setCtx_timeUs (s : State) (c : Nat) (x : Ctx) : (s.setCtx c x).timeUs = s.timeUs := rfl
@[simp] theorem State.setCtx_free (s : State) (c : Nat) (x : Ctx) : (s.setCtx c x).free = s.free := rfl
@[simp] theorem State.setCtx_regs (s : State) (c : Nat) (x : Ctx) : (s.setCtx c x).regs = s.regs := rfl
@[simp] theorem State.setCtx_mem (s : State) (c : Nat) (x : Ctx) : (s.setCtx c x).mem = s.mem := rfl
@[simp] theorem State.setCtx_ecc (s : State) (c : Nat) (x : Ctx) : (s.setCtx c x).ecc = s.ecc := rfl
@[simp] theorem State.setCtx_badSeg (s : State) (c : Nat) (x : Ctx) : (s.setCtx c x).badSeg = s.badSeg := rfl
@[simp] theorem State.setCtx_evq (s : State) (c : Nat) (x : Ctx) : (s.setCtx c x).evq = s.evq := rfl
@[simp] theorem State.setCtx_evSeq (s : State) (c : Nat) (x : Ctx) : (s.setCtx c x).evSeq = s.evSeq := rfl
@[simp] theorem State.setCtx_lastEvent (s : State) (c : Nat) (x : Ctx) : (s.setCtx c x).lastEvent = s.lastEvent := rfl
@[simp] theorem State.setCtx_evLog (s : State) (c : Nat) (x : Ctx) : (s.setCtx c x).evLog = s.evLog := rfl
@[simp] theorem State.setCtx_tick (s : State) (c : Nat) (x : Ctx) : (s.setCtx c x).tick = s.tick := rfl
@[simp] theorem State.setCtx_cores (s : State) (c : Nat) (x : Ctx) : (s.setCtx c x).cores = s.cores := rfl
@[simp] theorem State.setCtx_dies (s : State) (c : Nat) (x : Ctx) : (s.setCtx c x).dies = s.dies := rfl
@[simp] theorem State.setCtx_out (s : State) (c : Nat) (x : Ctx) : (s.setCtx c x).out = s.out := rfl
@[simp] theorem State.setCtx_links (s : State) (c : Nat) (x : Ctx) : (s.setCtx c x).links = s.links := rfl
@[simp] theorem State.setCtx_peers (s : State) (c : Nat) (x : Ctx) : (s.setCtx c x).peers = s.peers := rfl
@[simp] theorem State.setCtx_routes (s : State) (c : Nat) (x : Ctx) : (s.setCtx c x).routes = s.routes := rfl
@[simp] theorem State.setCtx_xfers (s : State) (c : Nat) (x : Ctx) : (s.setCtx c x).xfers = s.xfers := rfl
@[simp] theorem State.setCtx_ended (s : State) (c : Nat) (x : Ctx) : (s.setCtx c x).ended = s.ended := rfl
@[simp] theorem State.setCtx_nextXfer (s : State) (c : Nat) (x : Ctx) : (s.setCtx c x).nextXfer = s.nextXfer := rfl
@[simp] theorem State.setCtx_parts (s : State) (c : Nat) (x : Ctx) : (s.setCtx c x).parts = s.parts := rfl
@[simp] theorem State.setCtx_tck (s : State) (c : Nat) (x : Ctx) : (s.setCtx c x).tck = s.tck := rfl
@[simp] theorem State.setCtx_phase (s : State) (c : Nat) (x : Ctx) : (s.setCtx c x).phase = s.phase := rfl
@[simp] theorem State.setCtx_hpt (s : State) (c : Nat) (x : Ctx) : (s.setCtx c x).hpt = s.hpt := rfl
@[simp] theorem State.setCtx_rst (s : State) (c : Nat) (x : Ctx) : (s.setCtx c x).rst = s.rst := rfl
@[simp] theorem State.setCtx_bridgeAt (s : State) (c : Nat) (x : Ctx) : (s.setCtx c x).bridgeAt = s.bridgeAt := rfl
@[simp] theorem State.setCtx_sec (s : State) (c : Nat) (x : Ctx) : (s.setCtx c x).sec = s.sec := rfl
@[simp] theorem State.setCtx_pwr (s : State) (c : Nat) (x : Ctx) : (s.setCtx c x).pwr = s.pwr := rfl
@[simp] theorem State.setCtx_side (s : State) (c : Nat) (x : Ctx) : (s.setCtx c x).side = s.side := rfl

/-! ### modCtx -/

@[simp] theorem State.modCtx_pending (s : State) (c : Nat) (f : Ctx → Ctx) : (s.modCtx c f).pending = s.pending := rfl
@[simp] theorem State.modCtx_timeUs (s : State) (c : Nat) (f : Ctx → Ctx) : (s.modCtx c f).timeUs = s.timeUs := rfl
@[simp] theorem State.modCtx_free (s : State) (c : Nat) (f : Ctx → Ctx) : (s.modCtx c f).free = s.free := rfl
@[simp] theorem State.modCtx_regs (s : State) (c : Nat) (f : Ctx → Ctx) : (s.modCtx c f).regs = s.regs := rfl
@[simp] theorem State.modCtx_mem (s : State) (c : Nat) (f : Ctx → Ctx) : (s.modCtx c f).mem = s.mem := rfl
@[simp] theorem State.modCtx_ecc (s : State) (c : Nat) (f : Ctx → Ctx) : (s.modCtx c f).ecc = s.ecc := rfl
@[simp] theorem State.modCtx_badSeg (s : State) (c : Nat) (f : Ctx → Ctx) : (s.modCtx c f).badSeg = s.badSeg := rfl
@[simp] theorem State.modCtx_evq (s : State) (c : Nat) (f : Ctx → Ctx) : (s.modCtx c f).evq = s.evq := rfl
@[simp] theorem State.modCtx_evSeq (s : State) (c : Nat) (f : Ctx → Ctx) : (s.modCtx c f).evSeq = s.evSeq := rfl
@[simp] theorem State.modCtx_lastEvent (s : State) (c : Nat) (f : Ctx → Ctx) : (s.modCtx c f).lastEvent = s.lastEvent := rfl
@[simp] theorem State.modCtx_evLog (s : State) (c : Nat) (f : Ctx → Ctx) : (s.modCtx c f).evLog = s.evLog := rfl
@[simp] theorem State.modCtx_tick (s : State) (c : Nat) (f : Ctx → Ctx) : (s.modCtx c f).tick = s.tick := rfl
@[simp] theorem State.modCtx_cores (s : State) (c : Nat) (f : Ctx → Ctx) : (s.modCtx c f).cores = s.cores := rfl
@[simp] theorem State.modCtx_dies (s : State) (c : Nat) (f : Ctx → Ctx) : (s.modCtx c f).dies = s.dies := rfl
@[simp] theorem State.modCtx_out (s : State) (c : Nat) (f : Ctx → Ctx) : (s.modCtx c f).out = s.out := rfl
@[simp] theorem State.modCtx_links (s : State) (c : Nat) (f : Ctx → Ctx) : (s.modCtx c f).links = s.links := rfl
@[simp] theorem State.modCtx_peers (s : State) (c : Nat) (f : Ctx → Ctx) : (s.modCtx c f).peers = s.peers := rfl
@[simp] theorem State.modCtx_routes (s : State) (c : Nat) (f : Ctx → Ctx) : (s.modCtx c f).routes = s.routes := rfl
@[simp] theorem State.modCtx_xfers (s : State) (c : Nat) (f : Ctx → Ctx) : (s.modCtx c f).xfers = s.xfers := rfl
@[simp] theorem State.modCtx_ended (s : State) (c : Nat) (f : Ctx → Ctx) : (s.modCtx c f).ended = s.ended := rfl
@[simp] theorem State.modCtx_nextXfer (s : State) (c : Nat) (f : Ctx → Ctx) : (s.modCtx c f).nextXfer = s.nextXfer := rfl
@[simp] theorem State.modCtx_parts (s : State) (c : Nat) (f : Ctx → Ctx) : (s.modCtx c f).parts = s.parts := rfl
@[simp] theorem State.modCtx_tck (s : State) (c : Nat) (f : Ctx → Ctx) : (s.modCtx c f).tck = s.tck := rfl
@[simp] theorem State.modCtx_phase (s : State) (c : Nat) (f : Ctx → Ctx) : (s.modCtx c f).phase = s.phase := rfl
@[simp] theorem State.modCtx_hpt (s : State) (c : Nat) (f : Ctx → Ctx) : (s.modCtx c f).hpt = s.hpt := rfl
@[simp] theorem State.modCtx_rst (s : State) (c : Nat) (f : Ctx → Ctx) : (s.modCtx c f).rst = s.rst := rfl
@[simp] theorem State.modCtx_bridgeAt (s : State) (c : Nat) (f : Ctx → Ctx) : (s.modCtx c f).bridgeAt = s.bridgeAt := rfl
@[simp] theorem State.modCtx_sec (s : State) (c : Nat) (f : Ctx → Ctx) : (s.modCtx c f).sec = s.sec := rfl
@[simp] theorem State.modCtx_pwr (s : State) (c : Nat) (f : Ctx → Ctx) : (s.modCtx c f).pwr = s.pwr := rfl
@[simp] theorem State.modCtx_side (s : State) (c : Nat) (f : Ctx → Ctx) : (s.modCtx c f).side = s.side := rfl

/-! ### Reads of other parts -/

@[simp] theorem State.rset_core' (s : State) (o v : Nat) (p : Nat) : (s.rset o v).core p = s.core p := rfl
@[simp] theorem State.rset_die' (s : State) (o v : Nat) (p : Nat) : (s.rset o v).die p = s.die p := rfl
@[simp] theorem State.rset_ctx' (s : State) (o v : Nat) (p : Nat) : (s.rset o v).ctx p = s.ctx p := rfl
@[simp] theorem State.rset_byte' (s : State) (o v : Nat) (p : Nat) : (s.rset o v).byte p = s.byte p := rfl
@[simp] theorem State.rset_bytes' (s : State) (o v : Nat) (p q : Nat) : (s.rset o v).bytes p q = s.bytes p q := rfl
@[simp] theorem State.rset_le' (s : State) (o v : Nat) (p q : Nat) : (s.rset o v).le p q = s.le p q := rfl
@[simp] theorem State.fset_core' (s : State) (f : Fld) (v : Nat) (p : Nat) : (s.fset f v).core p = s.core p := rfl
@[simp] theorem State.fset_die' (s : State) (f : Fld) (v : Nat) (p : Nat) : (s.fset f v).die p = s.die p := rfl
@[simp] theorem State.fset_ctx' (s : State) (f : Fld) (v : Nat) (p : Nat) : (s.fset f v).ctx p = s.ctx p := rfl
@[simp] theorem State.fset_byte' (s : State) (f : Fld) (v : Nat) (p : Nat) : (s.fset f v).byte p = s.byte p := rfl
@[simp] theorem State.fset_bytes' (s : State) (f : Fld) (v : Nat) (p q : Nat) : (s.fset f v).bytes p q = s.bytes p q := rfl
@[simp] theorem State.fset_le' (s : State) (f : Fld) (v : Nat) (p q : Nat) : (s.fset f v).le p q = s.le p q := rfl
@[simp] theorem State.fadd_core' (s : State) (f : Fld) (n : Nat) (p : Nat) : (s.fadd f n).core p = s.core p := rfl
@[simp] theorem State.fadd_die' (s : State) (f : Fld) (n : Nat) (p : Nat) : (s.fadd f n).die p = s.die p := rfl
@[simp] theorem State.fadd_ctx' (s : State) (f : Fld) (n : Nat) (p : Nat) : (s.fadd f n).ctx p = s.ctx p := rfl
@[simp] theorem State.fadd_byte' (s : State) (f : Fld) (n : Nat) (p : Nat) : (s.fadd f n).byte p = s.byte p := rfl
@[simp] theorem State.fadd_bytes' (s : State) (f : Fld) (n : Nat) (p q : Nat) : (s.fadd f n).bytes p q = s.bytes p q := rfl
@[simp] theorem State.fadd_le' (s : State) (f : Fld) (n : Nat) (p q : Nat) : (s.fadd f n).le p q = s.le p q := rfl
@[simp] theorem State.fwrap_core' (s : State) (f : Fld) (n : Nat) (p : Nat) : (s.fwrap f n).core p = s.core p := rfl
@[simp] theorem State.fwrap_die' (s : State) (f : Fld) (n : Nat) (p : Nat) : (s.fwrap f n).die p = s.die p := rfl
@[simp] theorem State.fwrap_ctx' (s : State) (f : Fld) (n : Nat) (p : Nat) : (s.fwrap f n).ctx p = s.ctx p := rfl
@[simp] theorem State.fwrap_byte' (s : State) (f : Fld) (n : Nat) (p : Nat) : (s.fwrap f n).byte p = s.byte p := rfl
@[simp] theorem State.fwrap_bytes' (s : State) (f : Fld) (n : Nat) (p q : Nat) : (s.fwrap f n).bytes p q = s.bytes p q := rfl
@[simp] theorem State.fwrap_le' (s : State) (f : Fld) (n : Nat) (p q : Nat) : (s.fwrap f n).le p q = s.le p q := rfl
@[simp] theorem State.setCore_rget' (s : State) (g : Nat) (x : Core) (p : Nat) : (s.setCore g x).rget p = s.rget p := rfl
@[simp] theorem State.setCore_fget' (s : State) (g : Nat) (x : Core) (p : Fld) : (s.setCore g x).fget p = s.fget p := rfl
@[simp] theorem State.setCore_die' (s : State) (g : Nat) (x : Core) (p : Nat) : (s.setCore g x).die p = s.die p := rfl
@[simp] theorem State.setCore_ctx' (s : State) (g : Nat) (x : Core) (p : Nat) : (s.setCore g x).ctx p = s.ctx p := rfl
@[simp] theorem State.setCore_byte' (s : State) (g : Nat) (x : Core) (p : Nat) : (s.setCore g x).byte p = s.byte p := rfl
@[simp] theorem State.setCore_bytes' (s : State) (g : Nat) (x : Core) (p q : Nat) : (s.setCore g x).bytes p q = s.bytes p q := rfl
@[simp] theorem State.setCore_le' (s : State) (g : Nat) (x : Core) (p q : Nat) : (s.setCore g x).le p q = s.le p q := rfl
@[simp] theorem State.setCore_ctxState' (s : State) (g : Nat) (x : Core) (p : Nat) : (s.setCore g x).ctxState p = s.ctxState p := rfl
@[simp] theorem State.setCore_occupant' (s : State) (g : Nat) (x : Core) (p : Nat) : (s.setCore g x).occupant p = s.occupant p := rfl
@[simp] theorem State.modCore_rget' (s : State) (g : Nat) (f : Core → Core) (p : Nat) : (s.modCore g f).rget p = s.rget p := rfl
@[simp] theorem State.modCore_fget' (s : State) (g : Nat) (f : Core → Core) (p : Fld) : (s.modCore g f).fget p = s.fget p := rfl
@[simp] theorem State.modCore_die' (s : State) (g : Nat) (f : Core → Core) (p : Nat) : (s.modCore g f).die p = s.die p := rfl
@[simp] theorem State.modCore_ctx' (s : State) (g : Nat) (f : Core → Core) (p : Nat) : (s.modCore g f).ctx p = s.ctx p := rfl
@[simp] theorem State.modCore_byte' (s : State) (g : Nat) (f : Core → Core) (p : Nat) : (s.modCore g f).byte p = s.byte p := rfl
@[simp] theorem State.modCore_bytes' (s : State) (g : Nat) (f : Core → Core) (p q : Nat) : (s.modCore g f).bytes p q = s.bytes p q := rfl
@[simp] theorem State.modCore_le' (s : State) (g : Nat) (f : Core → Core) (p q : Nat) : (s.modCore g f).le p q = s.le p q := rfl
@[simp] theorem State.modCore_ctxState' (s : State) (g : Nat) (f : Core → Core) (p : Nat) : (s.modCore g f).ctxState p = s.ctxState p := rfl
@[simp] theorem State.modCore_occupant' (s : State) (g : Nat) (f : Core → Core) (p : Nat) : (s.modCore g f).occupant p = s.occupant p := rfl
@[simp] theorem State.setDie_rget' (s : State) (d : Nat) (x : Die) (p : Nat) : (s.setDie d x).rget p = s.rget p := rfl
@[simp] theorem State.setDie_fget' (s : State) (d : Nat) (x : Die) (p : Fld) : (s.setDie d x).fget p = s.fget p := rfl
@[simp] theorem State.setDie_core' (s : State) (d : Nat) (x : Die) (p : Nat) : (s.setDie d x).core p = s.core p := rfl
@[simp] theorem State.setDie_ctx' (s : State) (d : Nat) (x : Die) (p : Nat) : (s.setDie d x).ctx p = s.ctx p := rfl
@[simp] theorem State.setDie_byte' (s : State) (d : Nat) (x : Die) (p : Nat) : (s.setDie d x).byte p = s.byte p := rfl
@[simp] theorem State.setDie_bytes' (s : State) (d : Nat) (x : Die) (p q : Nat) : (s.setDie d x).bytes p q = s.bytes p q := rfl
@[simp] theorem State.setDie_le' (s : State) (d : Nat) (x : Die) (p q : Nat) : (s.setDie d x).le p q = s.le p q := rfl
@[simp] theorem State.setDie_ctxState' (s : State) (d : Nat) (x : Die) (p : Nat) : (s.setDie d x).ctxState p = s.ctxState p := rfl
@[simp] theorem State.setDie_occupant' (s : State) (d : Nat) (x : Die) (p : Nat) : (s.setDie d x).occupant p = s.occupant p := rfl
@[simp] theorem State.modDie_rget' (s : State) (d : Nat) (f : Die → Die) (p : Nat) : (s.modDie d f).rget p = s.rget p := rfl
@[simp] theorem State.modDie_fget' (s : State) (d : Nat) (f : Die → Die) (p : Fld) : (s.modDie d f).fget p = s.fget p := rfl
@[simp] theorem State.modDie_core' (s : State) (d : Nat) (f : Die → Die) (p : Nat) : (s.modDie d f).core p = s.core p := rfl
@[simp] theorem State.modDie_ctx' (s : State) (d : Nat) (f : Die → Die) (p : Nat) : (s.modDie d f).ctx p = s.ctx p := rfl
@[simp] theorem State.modDie_byte' (s : State) (d : Nat) (f : Die → Die) (p : Nat) : (s.modDie d f).byte p = s.byte p := rfl
@[simp] theorem State.modDie_bytes' (s : State) (d : Nat) (f : Die → Die) (p q : Nat) : (s.modDie d f).bytes p q = s.bytes p q := rfl
@[simp] theorem State.modDie_le' (s : State) (d : Nat) (f : Die → Die) (p q : Nat) : (s.modDie d f).le p q = s.le p q := rfl
@[simp] theorem State.modDie_ctxState' (s : State) (d : Nat) (f : Die → Die) (p : Nat) : (s.modDie d f).ctxState p = s.ctxState p := rfl
@[simp] theorem State.modDie_occupant' (s : State) (d : Nat) (f : Die → Die) (p : Nat) : (s.modDie d f).occupant p = s.occupant p := rfl
@[simp] theorem State.setCtx_rget' (s : State) (c : Nat) (x : Ctx) (p : Nat) : (s.setCtx c x).rget p = s.rget p := rfl
@[simp] theorem State.setCtx_fget' (s : State) (c : Nat) (x : Ctx) (p : Fld) : (s.setCtx c x).fget p = s.fget p := rfl
@[simp] theorem State.setCtx_core' (s : State) (c : Nat) (x : Ctx) (p : Nat) : (s.setCtx c x).core p = s.core p := rfl
@[simp] theorem State.setCtx_die' (s : State) (c : Nat) (x : Ctx) (p : Nat) : (s.setCtx c x).die p = s.die p := rfl
@[simp] theorem State.setCtx_byte' (s : State) (c : Nat) (x : Ctx) (p : Nat) : (s.setCtx c x).byte p = s.byte p := rfl
@[simp] theorem State.setCtx_bytes' (s : State) (c : Nat) (x : Ctx) (p q : Nat) : (s.setCtx c x).bytes p q = s.bytes p q := rfl
@[simp] theorem State.setCtx_le' (s : State) (c : Nat) (x : Ctx) (p q : Nat) : (s.setCtx c x).le p q = s.le p q := rfl
@[simp] theorem State.setCtx_ctxState' (s : State) (c : Nat) (x : Ctx) (p : Nat) : (s.setCtx c x).ctxState p = s.ctxState p := rfl
@[simp] theorem State.setCtx_occupant' (s : State) (c : Nat) (x : Ctx) (p : Nat) : (s.setCtx c x).occupant p = s.occupant p := rfl
@[simp] theorem State.modCtx_rget' (s : State) (c : Nat) (f : Ctx → Ctx) (p : Nat) : (s.modCtx c f).rget p = s.rget p := rfl
@[simp] theorem State.modCtx_fget' (s : State) (c : Nat) (f : Ctx → Ctx) (p : Fld) : (s.modCtx c f).fget p = s.fget p := rfl
@[simp] theorem State.modCtx_core' (s : State) (c : Nat) (f : Ctx → Ctx) (p : Nat) : (s.modCtx c f).core p = s.core p := rfl
@[simp] theorem State.modCtx_die' (s : State) (c : Nat) (f : Ctx → Ctx) (p : Nat) : (s.modCtx c f).die p = s.die p := rfl
@[simp] theorem State.modCtx_byte' (s : State) (c : Nat) (f : Ctx → Ctx) (p : Nat) : (s.modCtx c f).byte p = s.byte p := rfl
@[simp] theorem State.modCtx_bytes' (s : State) (c : Nat) (f : Ctx → Ctx) (p q : Nat) : (s.modCtx c f).bytes p q = s.bytes p q := rfl
@[simp] theorem State.modCtx_le' (s : State) (c : Nat) (f : Ctx → Ctx) (p q : Nat) : (s.modCtx c f).le p q = s.le p q := rfl
@[simp] theorem State.modCtx_ctxState' (s : State) (c : Nat) (f : Ctx → Ctx) (p : Nat) : (s.modCtx c f).ctxState p = s.ctxState p := rfl
@[simp] theorem State.modCtx_occupant' (s : State) (c : Nat) (f : Ctx → Ctx) (p : Nat) : (s.modCtx c f).occupant p = s.occupant p := rfl

/-! ### Reading back -/

theorem State.rget_lt (s : State) (o : Nat) : s.rget o < 2 ^ 32 := (s.regs.get (regReset o) o).isLt

@[simp] theorem State.rget_rset_same (s : State) (o v : Nat) : (s.rset o v).rget o = v % 2 ^ 32 := by
  simp [State.rget, State.rset]

theorem State.rget_rset_ne (s : State) {o p : Nat} (h : p ≠ o) (v : Nat) : (s.rset o v).rget p = s.rget p := by
  simp [State.rget, State.rset, Tbl.get_set_ne _ _ h]

theorem State.rget_fset_ne (s : State) {f : Fld} {p : Nat} (h : p ≠ f.off) (v : Nat) : (s.fset f v).rget p = s.rget p :=
  s.rget_rset_ne h _

theorem State.rget_fadd_ne (s : State) {f : Fld} {p : Nat} (h : p ≠ f.off) (n : Nat) : (s.fadd f n).rget p = s.rget p :=
  s.rget_rset_ne h _

/-- A field reads as the value it was set to (R7). -/
theorem State.fget_fset_same (s : State) (f : Fld) (v : Nat) (h : f.lo ≤ f.hi) (h2 : f.hi < 32) :
    (s.fset f v).fget f = v % 2 ^ (f.hi - f.lo + 1) := by
  unfold State.fget State.fset
  rw [State.rget_rset_same, Nat.mod_eq_of_lt (setBits_lt (s.rget_lt _) h h2), bits_setBits_same _ _ h]

/-- A field of another register keeps its value. -/
theorem State.fget_fset_reg (s : State) {f p : Fld} (h : p.off ≠ f.off) (v : Nat) : (s.fset f v).fget p = s.fget p := by
  simp only [State.fget, s.rget_fset_ne h]

theorem State.fget_fadd_reg (s : State) {f p : Fld} (h : p.off ≠ f.off) (n : Nat) : (s.fadd f n).fget p = s.fget p :=
  s.fget_fset_reg h _

theorem State.fget_rset_reg (s : State) {o : Nat} {p : Fld} (h : p.off ≠ o) (v : Nat) : (s.rset o v).fget p = s.fget p := by
  simp only [State.fget, s.rget_rset_ne h]

/-- Another field of the same register keeps its value. -/
theorem State.fget_fset_field (s : State) {f p : Fld} (h : f.lo ≤ f.hi) (hp : p.lo ≤ p.hi) (h2 : f.hi < 32)
    (hd : p.hi < f.lo ∨ f.hi < p.lo) (ho : p.off = f.off) (v : Nat) : (s.fset f v).fget p = s.fget p := by
  unfold State.fget State.fset
  rw [ho, State.rget_rset_same, Nat.mod_eq_of_lt (setBits_lt (s.rget_lt _) h h2)]
  rcases hd with hd | hd
  · exact bits_setBits_below _ _ h hp hd
  · exact bits_setBits_above _ _ h hd

@[simp] theorem State.core_setCore_same (s : State) (g : Nat) (x : Core) : (s.setCore g x).core g = x := by
  simp [State.core, State.setCore]

theorem State.core_setCore_ne (s : State) {g h : Nat} (hn : h ≠ g) (x : Core) : (s.setCore g x).core h = s.core h := by
  simp [State.core, State.setCore, Tbl.get_set_ne _ _ hn]

@[simp] theorem State.core_modCore_same (s : State) (g : Nat) (f : Core → Core) : (s.modCore g f).core g = f (s.core g) :=
  s.core_setCore_same g _

theorem State.core_modCore_ne (s : State) {g h : Nat} (hn : h ≠ g) (f : Core → Core) : (s.modCore g f).core h = s.core h :=
  s.core_setCore_ne hn _

@[simp] theorem State.die_setDie_same (s : State) (d : Nat) (x : Die) : (s.setDie d x).die d = x := by
  simp [State.die, State.setDie]

theorem State.die_setDie_ne (s : State) {d e : Nat} (hn : e ≠ d) (x : Die) : (s.setDie d x).die e = s.die e := by
  simp [State.die, State.setDie, Tbl.get_set_ne _ _ hn]

@[simp] theorem State.die_modDie_same (s : State) (d : Nat) (f : Die → Die) : (s.modDie d f).die d = f (s.die d) :=
  s.die_setDie_same d _

theorem State.die_modDie_ne (s : State) {d e : Nat} (hn : e ≠ d) (f : Die → Die) : (s.modDie d f).die e = s.die e :=
  s.die_setDie_ne hn _

@[simp] theorem State.ctx_setCtx_same (s : State) (c : Nat) (x : Ctx) : (s.setCtx c x).ctx c = x := by
  simp [State.ctx, State.setCtx]

theorem State.ctx_setCtx_ne (s : State) {c d : Nat} (hn : d ≠ c) (x : Ctx) : (s.setCtx c x).ctx d = s.ctx d := by
  simp [State.ctx, State.setCtx, Tbl.get_set_ne _ _ hn]

@[simp] theorem State.ctx_modCtx_same (s : State) (c : Nat) (f : Ctx → Ctx) : (s.modCtx c f).ctx c = f (s.ctx c) :=
  s.ctx_setCtx_same c _

theorem State.ctx_modCtx_ne (s : State) {c d : Nat} (hn : d ≠ c) (f : Ctx → Ctx) : (s.modCtx c f).ctx d = s.ctx d :=
  s.ctx_setCtx_ne hn _

end Sys2Proof.Machine
end

