-- ==== Sys2Proof/Laws/Ops.lean ====
section
/-! SUPPORT. What each shared operation of Machine/Ops.lean can do, said once: events, free values, context faults,
checked memory accesses, and quoins. -/

namespace Sys2Proof.Machine

/-! ### Events and free values -/

/-- Two ways an event can go (R25): a record at the queue's end, or a count in the drop registers. -/
theorem State.raise_cases (s : State) (code : Nat) (ctx : Option Nat) (unit : Nat) (data : List Nat) :
    (s.evq.length + s.evFlying < 4096 ∧ (s.raise code ctx unit data).evq = s.evq ++ [⟨code, ctx, s.evSeq, s.tick, unit, data⟩] ∧
      (s.raise code ctx unit data).regs = s.regs ∧ (s.raise code ctx unit data).evSeq = s.evSeq + 1) ∨
    (4096 ≤ s.evq.length + s.evFlying ∧
      s.raise code ctx unit data = (s.fset F.MGT_PLANE_STAT_EVQ_OVF 1).fadd F.MGT_EVQ_DROP_DROP_COUNT 1) := by
  unfold State.raise
  split
  · exact .inl ⟨‹_›, rfl, rfl, rfl⟩
  · exact .inr ⟨by omega, rfl⟩

theorem State.raise_mem (s : State) (code : Nat) (ctx : Option Nat) (unit : Nat) (data : List Nat) :
    (s.raise code ctx unit data).mem = s.mem := by
  unfold State.raise; split <;> rfl

theorem State.raise_cores (s : State) (code : Nat) (ctx : Option Nat) (unit : Nat) (data : List Nat) :
    (s.raise code ctx unit data).cores = s.cores := by
  unfold State.raise; split <;> rfl

theorem State.raise_dies (s : State) (code : Nat) (ctx : Option Nat) (unit : Nat) (data : List Nat) :
    (s.raise code ctx unit data).dies = s.dies := by
  unfold State.raise; split <;> rfl

theorem State.raise_ctxs (s : State) (code : Nat) (ctx : Option Nat) (unit : Nat) (data : List Nat) :
    (s.raise code ctx unit data).ctxs = s.ctxs := by
  unfold State.raise; split <;> rfl

theorem State.raise_pending (s : State) (code : Nat) (ctx : Option Nat) (unit : Nat) (data : List Nat) :
    (s.raise code ctx unit data).pending = s.pending := by
  unfold State.raise; split <;> rfl

theorem State.raise_out (s : State) (code : Nat) (ctx : Option Nat) (unit : Nat) (data : List Nat) :
    (s.raise code ctx unit data).out = s.out := by
  unfold State.raise; split <;> rfl

/-- A free value changes the count of free values and nothing else. -/
theorem State.freeVal_fst (s : State) : s.freeVal.1 = { s with free := s.free + 1 } := rfl

/-! ### Context faults -/

/-- A context fault (R217) touches its own registers, its `faultStop`, and the event queue: memory, cores and dies stay. -/
theorem State.ctxFault_frame (s : State) (c code g : Nat) :
    (s.ctxFault c code g).mem = s.mem ∧ (s.ctxFault c code g).cores = s.cores ∧ (s.ctxFault c code g).dies = s.dies ∧
      (s.ctxFault c code g).pending = s.pending := by
  unfold State.ctxFault
  by_cases h : s.ctxState c = ctxFree ∨ s.ctxState c = ctxTearing
  · simp only [if_pos h, and_self]
  · simp only [if_neg h]
    simp only [State.modCtx_mem, State.modCtx_cores, State.modCtx_dies, State.modCtx_pending, State.raise_mem,
      State.raise_cores, State.raise_dies, State.raise_pending, State.fset_mem, State.fset_cores, State.fset_dies,
      State.fset_pending, and_self]

theorem State.coreFault_frame (s : State) (g code : Nat) :
    (s.coreFault g code).mem = s.mem ∧ (s.coreFault g code).cores = s.cores ∧ (s.coreFault g code).dies = s.dies ∧
      (s.coreFault g code).pending = s.pending := by
  unfold State.coreFault
  split
  · exact ⟨rfl, rfl, rfl, rfl⟩
  · exact s.ctxFault_frame _ _ _

/-- A violation (R216) leaves memory, cores and dies as they were. -/
theorem State.violation_frame (s : State) (g : Nat) :
    (s.violation g).mem = s.mem ∧ (s.violation g).cores = s.cores ∧ (s.violation g).dies = s.dies := by
  have h := (s.raise 0x0420 (s.occupant g) g []).coreFault_frame g 0x0420
  exact ⟨h.1.trans (s.raise_mem ..), h.2.1.trans (s.raise_cores ..), h.2.2.1.trans (s.raise_dies ..)⟩

/-! ### Checked memory accesses -/

/-- A list of bytes put from `a` reads back byte by byte, and leaves every other address as it was. -/
theorem memGet_memPutList (l : List Byte) : ∀ {m : List Host.Cell}, Memory.wf m = true → ∀ a b,
    memGet (memPutList m a l) b = if a ≤ b ∧ b < a + l.length then l.getD (b - a) 0 else memGet m b := by
  induction l with
  | nil =>
    intro m _ a b
    rw [if_neg (by simp only [List.length_nil]; omega)]; rfl
  | cons x r ih =>
    intro m h a b
    rw [memPutList, ih (memPut_wf h a x)]
    by_cases hb : b = a
    · subst hb
      rw [if_neg (by omega), if_pos (by simp), memGet_memPut_same h]; simp
    · rw [memGet_memPut_ne h hb]
      by_cases hc : a + 1 ≤ b ∧ b < a + 1 + r.length
      · rw [if_pos hc, if_pos (by simp only [List.length_cons]; omega)]
        obtain ⟨k, rfl⟩ : ∃ k, b = a + 1 + k := ⟨b - (a + 1), by omega⟩
        simp [show a + 1 + k - a = k + 1 by omega, show a + 1 + k - (a + 1) = k by omega]
      · rw [if_neg hc, if_neg (by simp only [List.length_cons]; omega)]

/-- The fold that `State.memWrite` makes when nothing is kept back is `memPutList`. -/
theorem foldl_range_memPut (l : List Byte) : ∀ (m : List Host.Cell) (a k : Nat),
    (((List.range' k l.length).zip l).foldl (fun m p => memPut m (a + p.1) p.2) m) = memPutList m (a + k) l := by
  induction l with
  | nil => intros; rfl
  | cons x r ih =>
    intro m a k
    simp only [List.length_cons, List.range'_succ, List.zip_cons_cons, List.foldl_cons, memPutList]
    rw [ih]; rfl

theorem State.eccHits_clean {s : State} (h : s.ecc = .empty) (a n : Nat) : s.eccHits a n = [] := by
  simp [State.eccHits, h, Tbl.empty]

theorem State.segStored_clean {s : State} (h : s.badSeg = .empty) (k sg : Nat) : s.segStored k sg = segTag k sg := by
  unfold State.segStored; rw [h, Tbl.find_empty, Option.getD_none]

theorem State.segBad_clean {s : State} (h : s.badSeg = .empty) (a : Nat) : s.segBad a = false := by
  unfold State.segBad
  cases place a with
  | lpx e => dsimp only; rw [State.segStored_clean h, bne_self_eq_false]
  | _ => rfl

/-- R166, R167: a checked read of memory without an upset reads everything and changes nothing. -/
theorem State.checkRead_clean {s : State} (h : s.ecc = .empty) (h' : s.badSeg = .empty) (a n : Nat) (c : Option Nat) :
    s.checkRead a n c = (s, true) := by
  simp [State.checkRead, State.checkWords, State.eccHits_clean h, State.segBad_clean h', State.misaddressed]

/-- R150, R151: an invalidation changes lines and fills of the die caches only. -/
theorem State.snoop_mem (s : State) (a n : Nat) : (s.snoop a n).mem = s.mem := rfl

/-- R453: a write to memory without an upset stores every byte. -/
theorem State.memWrite_clean {s : State} (h : s.ecc = .empty) (h' : s.badSeg = .empty) (a : Nat) (l : List Byte)
    (c : Option Nat) : (s.memWrite a l c).2 = true ∧ (s.memWrite a l c).1.mem = memPutList s.mem a l := by
  have hr := foldl_range_memPut l s.mem a 0
  rw [← List.range_eq_range'] at hr
  simp only [Nat.add_zero] at hr
  constructor
  · simp [State.memWrite, State.eccHits_clean h, State.segBad_clean h']
  · simp only [State.memWrite]
    split <;> simp [State.eccHits_clean h, State.segBad_clean h', State.snoop_mem, State.misaddressed, hr]

/-- Read after write: a byte of the written range reads as written, every other byte as before. -/
theorem State.memWrite_byte {s : State} (h : s.ecc = .empty) (h' : s.badSeg = .empty) (hw : Memory.wf s.mem = true)
    (a : Nat) (l : List Byte) (c : Option Nat) (b : Nat) :
    (s.memWrite a l c).1.byte b = if a ≤ b ∧ b < a + l.length then l.getD (b - a) 0 else s.byte b := by
  rw [State.byte, (s.memWrite_clean h h' a l c).2, memGet_memPutList l hw]; rfl

/-! ### Quoins -/

/-- R152: a write to the null quoin is ignored. -/
theorem State.quoinSet_null (s : State) (g v : Nat) : s.quoinSet g 0 v = s := by simp [State.quoinSet]

/-- Waking waiters leaves the counters. -/
theorem Core.wake_quoin (c : Core) (q v : Nat) : (c.wake q v).quoin = c.quoin := rfl

/-- R153: a core quoin reads as set, modulo 2^32. -/
theorem State.quoin_quoinSet {s : State} {g q : Nat} (hq : q ≠ 0) (hl : q < 512) (v : Nat) :
    (s.quoinSet g q v).quoin g q = v % 2 ^ 32 := by
  simp [State.quoinSet, State.quoin, hq, hl, Core.wake_quoin]

/-- A quoin update leaves memory. -/
theorem State.quoinSet_mem (s : State) (g q v : Nat) : (s.quoinSet g q v).mem = s.mem := by
  unfold State.quoinSet; dsimp only; split
  · rfl
  · split <;> simp

end Sys2Proof.Machine
end

