-- ==== Sys2Proof/Tests/Slice0.lean ====
section
/-!
SUPPORT. Tests: an ill-formed command for each check of Instr.wellFormed, a witness of the hypotheses of each statement of
Sys2Proof/Certificates/Slice0/Obligations.lean, and small steps with results worked out from the spec.
-/

namespace Sys2Proof.Tests

set_option Elab.async false

open Sys2Proof Sys2Proof.Machine

/-! ### WellFormed: each check refuses an ill-formed command -/

/-- A frame without a C-tag that passes every filter, not marked CE. -/
def head1 : FrameHead := ⟨none, true, true, false⟩

theorem test_wellFormed_linkFrame : (Instr.linkFrame 0 (List.replicate 287 0) 0 0).wellFormed = false := by decide +kernel
theorem test_wellFormed_rdmaWrite : (Instr.rdmaWrite 0 0 0 0 (List.replicate 4097 0) ⟨[], head1⟩).wellFormed = false := by
  decide +kernel
theorem test_wellFormed_rdmaReadResponse : (Instr.rdmaReadResponse 0 (List.replicate 4097 0) head1).wellFormed = false := by
  decide +kernel
theorem test_wellFormed_sendMsg : (Instr.sendMsg 0 0 4097 head1).wellFormed = false := by decide +kernel
theorem test_wellFormed_connect : (Instr.connect ⟨[], 0⟩ ⟨⟨0, []⟩, head1⟩).wellFormed = false := by decide +kernel
theorem test_wellFormed_pfcFrame : (Instr.pfcFrame 1 [65536, 0, 0, 0, 0, 0, 0, 0]).wellFormed = false := by decide +kernel
theorem test_wellFormed_arp : (Instr.arp (List.replicate 6 0) [] ⟨List.replicate 4 0, head1⟩).wellFormed = false := by decide +kernel
theorem test_wellFormed_neighborDiscovery : (Instr.neighborDiscovery [] ⟨List.replicate 16 0, head1⟩).wellFormed = false := by
  decide +kernel
theorem test_wellFormed_icmpEcho : (Instr.icmpEcho [] (List.replicate 4 0) ⟨[], head1⟩).wellFormed = false := by decide +kernel
theorem test_wellFormed_icmpv6Echo : (Instr.icmpv6Echo (List.replicate 16 0) [] ⟨[], head1⟩).wellFormed = false := by decide +kernel
theorem test_wellFormed_moduleReady : (Instr.moduleReady [256] [0, 0, 0, 0]).wellFormed = false := by decide +kernel
theorem test_wellFormed_warmRecoveryDone : (Instr.warmRecoveryDone [] [0, 0, 0]).wellFormed = false := by decide +kernel
theorem test_wellFormed_tftpData : (Instr.tftpData 65536 []).wellFormed = false := by decide +kernel
theorem test_wellFormed_thermalSample : (Instr.thermalSample [0] [0, 0] []).wellFormed = false := by decide +kernel
theorem test_wellFormed_floorPowerExceeded : (Instr.floorPowerExceeded 0 [1, 2, 3]).wellFormed = false := by decide +kernel

/-! ### States for the witnesses -/

/-- `s` with each listed field at its value. -/
def sets (s : State) (l : List (Fld × Nat)) : State := l.foldl (fun s p => s.fset p.1 p.2) s

/-- A READY module. -/
def ready0 : State := { State.reset with phase := .ready }

/-- A forme of one core, with one window, one WRITE region, one impression and one remote die quoin. -/
def forme1 : Forme where
  imgLen := 0
  training := true
  hash := []
  nImp := 1
  retryRsv := 0
  floorMhz := 1000
  periodMin := 50
  periodMax := 10000
  maxWcl := 10
  chase := [⟨1, 0, 0, 0, 0, 4096, 4096, 8192, 0, 1024, 64, 64⟩]
  cores := [[0]]
  windows := [⟨0, 2 ^ 20, true⟩]
  regions := [⟨0, 2 ^ 20, 0, false⟩]
  quoins := [⟨0, 600, true⟩]
  landing := 0
  imps := [⟨10, 0, 0, true, false, 0, [0]⟩]
  retries := []
  progs := []
  gals := []
  mons := [⟨0, 0, 1, 600, 0, 0⟩]
  mesh := []
  bridges := []
  slots := SlotsSec.empty
  keep := []
  streams := []
  save := []
  header := ⟨0, 0⟩
  land := ⟨0, 0⟩
  area := ⟨0, 0⟩

/-- Context 0 runs `forme1` on core 0. -/
def run0 : State :=
  (sets ready0 [(F.CTX_STAT_STATE 0, 3), (F.CORE_RES_OCCUPIED 0, 1), (F.CORE_RES_CTX 0, 0)]).modCtx 0
    fun x => { x with forme := some forme1 }

/-- The same with 32-bit words at LS offset 0 of core 0, and thread 0 ready there with scalar registers `r`. -/
def prog (words : List Nat) (r : List (Nat × Nat)) : State :=
  { run0 with mem := memPutList [] (lsBase 0) (words.map (leBytes 4 ·)).flatten }.setThread 0 0
    ⟨.run, 0, r.foldl (fun (t : Tbl Dword) (p : Nat × Nat) => t.set p.1 (BitVec.ofNat 64 p.2)) .empty, 0, 0⟩

/-- A CTC word of the three-register form (Table 4-2): OPC, SD, SA, SB, FUNC. -/
def ctcW (opc sd sa sb func : Nat) : Nat := opc * 2 ^ 26 + sd * 2 ^ 21 + sa * 2 ^ 16 + sb * 2 ^ 11 + func

/-- A record of the colophon. -/
def col1 : ColRecord := ⟨true, 1, 7, 2, 1, 0, 0, 50, 0, 0, 0, [], [], 0x7F, [], 0, none⟩

/-! ### The control core -/

/-- Everything `CtcIssues` asks but the picked thread's word, checked at once. -/
def ctcIssuesB (s : State) (g t w p : Nat) : Bool :=
  s.live g && s.ctcPick g == some t && s.ctcFetch g (s.thread g t).pc == some (w, p) && ctcLegal w
    && decide (s.ecc = .empty) && decide (s.badSeg = .empty) && decide ((s.core g).sregUpset = .empty)

theorem ctcIssuesB_spec {s : State} {g t w p : Nat} (h : ctcIssuesB s g t w p = true) : CtcIssues s g t w p := by
  simp only [ctcIssuesB, Bool.and_eq_true, beq_iff_eq, decide_eq_true_eq] at h
  exact ⟨h.1.1.1.1.1.1, h.1.1.1.1.1.2, h.1.1.1.1.2, h.1.1.1.2, ⟨h.1.1.2, h.1.2⟩, h.2⟩

/-- ScalarArithmeticResults: ALU at its last FUNC and highest registers, ADDI, and ORSH. -/
theorem test_witness_scalarArithmetic :
    ctcIssuesB (prog [ctcW 1 31 30 29 12] [(30, 5)]) 0 0 (ctcW 1 31 30 29 12) 0 = true
    ∧ ctcIssuesB (prog [ctcW 2 31 30 31 0x7FF] []) 0 0 (ctcW 2 31 30 31 0x7FF) 0 = true
    ∧ ctcIssuesB (prog [ctcW 3 0 0 0 1] []) 0 0 (ctcW 3 0 0 0 1) 0 = true := by decide +kernel

/-- ScalarLoadAndStore: LD at the last aligned word of the layout, and ST. -/
theorem test_witness_scalarLoadAndStore :
    (let s := prog [ctcW 4 1 2 0 0] [(2, 16376)]
     ctcIssuesB s 0 0 (ctcW 4 1 2 0 0) 0 = true ∧ Memory.wf s.mem = true ∧ s.ldOff 0 0 (ctcW 4 1 2 0 0) = 16376
       ∧ s.lsOk 0 16376 8 = true)
    ∧ (let s := prog [ctcW 5 1 2 0 1] [(2, 4096)]
       ctcIssuesB s 0 0 (ctcW 5 1 2 0 1) 0 = true ∧ Memory.wf s.mem = true ∧ s.ldOff 0 0 (ctcW 5 1 2 0 1) = 4104
         ∧ s.lsOk 0 4104 8 = true) := by decide +kernel

/-- ScalarBranches: BEQ, BNE, BLT and an aligned JMPR. -/
theorem test_witness_scalarBranches :
    ctcIssuesB (prog [ctcW 6 1 2 31 0x7FF] []) 0 0 (ctcW 6 1 2 31 0x7FF) 0 = true
    ∧ ctcIssuesB (prog [ctcW 7 1 2 0 1] []) 0 0 (ctcW 7 1 2 0 1) 0 = true
    ∧ ctcIssuesB (prog [ctcW 8 1 2 0 1] []) 0 0 (ctcW 8 1 2 0 1) 0 = true
    ∧ (let s := prog [ctcW 9 1 2 0 1] [(2, 64)]
       ctcIssuesB s 0 0 (ctcW 9 1 2 0 1) 0 = true ∧ wrap 64 ((s.reg64 0 0 2).toNat + 4 * wImm (ctcW 9 1 2 0 1)) % 4 = 0) := by
  decide +kernel

/-- ScalarQuoinOperations: the null quoin, the highest core quoin, a die quoin the forme declares, and GPEEK. -/
theorem test_witness_scalarQuoinOperations :
    (let s := prog [ctcW 10 0 2 0 1] []
     ctcIssuesB s 0 0 (ctcW 10 0 2 0 1) 0 = true ∧ s.quoinOwned 0 0 = true)
    ∧ (let s := prog [ctcW 11 0 2 3 0] [(2, 511), (3, 1)]
       ctcIssuesB s 0 0 (ctcW 11 0 2 3 0) 0 = true ∧ s.quoinOwned 0 511 = true)
    ∧ (let s := prog [ctcW 12 1 2 0 0] [(2, 600)]
       ctcIssuesB s 0 0 (ctcW 12 1 2 0 0) 0 = true ∧ s.quoinOwned 0 600 = true)
    ∧ ctcIssuesB (prog [ctcW 13 1 0 0 0] []) 0 0 (ctcW 13 1 0 0 0) 0 = true := by decide +kernel

/-- A descriptor of operation `op` at LS offset 4096, its other words given from the first. -/
def descAt (op : Nat) (r : List Nat) : State → State := fun s =>
  { s with mem := memPutList s.mem (lsBase 0 + 4096) ((op * 2 ^ 60 :: r).map (leBytes 8 ·)).flatten }

/-- IssueEndAndFence: an ISSUE to each unit, ENDI, and FENCE with nothing outstanding. -/
theorem test_witness_issueEndAndFence :
    ctcIssuesB (prog [ctcW 14 0 0 0 0, 0, 0, 0, 0] []) 0 0 (ctcW 14 0 0 0 0) 0 = true
    ∧ ctcIssuesB (prog [ctcW 14 8 0 0 0, 0, 0] []) 0 0 (ctcW 14 8 0 0 0) 0 = true
    ∧ (let s := descAt 3 [] (prog [ctcW 14 16 0 0 0, 2] [(2, 4096)])
       ctcIssuesB s 0 0 (ctcW 14 16 0 0 0) 2 = true ∧ (s.reg64 0 0 2).toNat = 4096 ∧ s.lsOk 0 4096 64 = true
         ∧ descLegal 0 (s.descWords 0 4096) = true ∧ (descQuoins (s.descWords 0 4096)).all (s.quoinOwned 0) = true)
    ∧ ctcIssuesB (prog [ctcW 15 0 0 0 0] []) 0 0 (ctcW 15 0 0 0 0) 0 = true
    ∧ (let s := prog [ctcW 16 0 0 0 0] []
       ctcIssuesB s 0 0 (ctcW 16 0 0 0 0) 0 = true ∧ s.outstanding 0 0 = false) := by decide +kernel

/-- IllegalWordFaultsContext: opcode 0. -/
theorem test_witness_illegalWord :
    let s := prog [0] []
    s.live 0 = true ∧ s.occupant 0 = some 0 ∧ s.ctcPick 0 = some 0 ∧ s.ctcFetch 0 (s.thread 0 0).pc = some (0, 0)
      ∧ ctcLegal 0 = false ∧ s.ctxState 0 = ctxRunning ∧ s.evq.length + s.evFlying + 2 ≤ 4096 := by decide +kernel

/-! ### The vector engine -/

/-- A VXE word (Table 4-4): OP, FMT_D, FMT_S, then bits [47:0]. -/
def vexW (op fd fs low : Nat) : Nat := op * 2 ^ 56 + fd * 2 ^ 52 + fs * 2 ^ 48 + low

/-- The running core with `e` at the head of its VXE queue. -/
def vexAt (e : VEntry) : State := run0.modCore 0 fun c => { c with vq := [e] }

/-- Everything `VexIssues` asks, checked at once. -/
def vexIssuesB (s : State) (g : Nat) (e : VEntry) : Bool :=
  s.live g && s.fget (F.VXE_STAT_FROZEN g) == 0 && (s.core g).vq.head? == some e && vLegal e.word
    && s.vxeMustWait g e == false && decide (s.ecc = .empty) && decide (s.badSeg = .empty) && decide ((s.core g).vxeUpset = [])

theorem vexIssuesB_spec {s : State} {g : Nat} {e : VEntry} (h : vexIssuesB s g e = true) : VexIssues s g e := by
  simp only [vexIssuesB, Bool.and_eq_true, beq_iff_eq, decide_eq_true_eq] at h
  exact ⟨h.1.1.1.1.1.1.1, h.1.1.1.1.1.1.2, h.1.1.1.1.1.2, h.1.1.1.1.2, h.1.1.1.2, ⟨h.1.1.2, h.1.2⟩, h.2⟩

/-- ADD of four INT32 elements, both sources streams; SEL, its mask a stream; EXP2 of FP32. -/
def addE : VEntry := ⟨vexW 1 4 4 0, 0, 0, 64, 128, 3, 0⟩
def selE : VEntry := ⟨vexW 0x24 4 4 0, 0, 0, 64, 128, 3, 192⟩
def exp2E : VEntry := ⟨vexW 0x40 9 9 0x8000000000, 0, 0, 0, 128, 3, 0⟩
def codes0 : List Nat := [0, 0, 0, 0]

/-- VectorElementwiseResults: the first and the last row of the table, one to four elements. -/
theorem test_witness_vectorElementwise :
    (∀ p ∈ [((.addV : CoreId → Instr), 1, addE), (.sel, 0x24, selE)],
      (vexIssuesB (vexAt p.2.2) 0 p.2.2 = true ∧ Memory.wf (vexAt p.2.2).mem = true ∧ (p.1, p.2.1) ∈ elementwise)
      ∧ (vexAt p.2.2).vexSource 0 p.2.2 .int32 = some (vexAt p.2.2, codes0, some ⟨false, 0, lsBase 0, 16, 0, 0⟩)
      ∧ ((vexAt p.2.2).core 0).sums = [])
    ∧ StreamsOk (vexAt addE) 0 addE .int32 (some ⟨false, 0, lsBase 0, 16, 0, 0⟩) ⟨false, 128, lsBase 0 + 128, 16, 0, 0⟩
    ∧ StreamsOk (vexAt selE) 0 selE .int32 (some ⟨false, 0, lsBase 0, 16, 0, 0⟩) ⟨false, 128, lsBase 0 + 128, 16, 0, 0⟩ := by
  refine ⟨fun p hp => ?_, ⟨by decide +kernel, rfl, fun _ => ⟨⟨false, 64, lsBase 0 + 64, 16, 0, 0⟩, by decide +kernel⟩,
    fun h => absurd h (by decide +kernel), fun y h => by cases h; decide +kernel⟩,
    ⟨by decide +kernel, rfl, fun _ => ⟨⟨false, 64, lsBase 0 + 64, 16, 0, 0⟩, by decide +kernel⟩,
    fun _ => ⟨⟨false, 192, lsBase 0 + 192, 16, 0, 0⟩, by decide +kernel⟩, fun y h => by cases h; decide +kernel⟩⟩
  simp only [List.mem_cons, List.not_mem_nil, or_false] at hp
  rcases hp with rfl | rfl
  · exact ⟨⟨by decide +kernel, by decide +kernel, .head _⟩, by decide +kernel, by decide +kernel⟩
  · exact ⟨⟨by decide +kernel, by decide +kernel, by simp [elementwise]⟩, by decide +kernel, by decide +kernel⟩

/-- IntegerElementResults: codes at both ends of each width. -/
theorem test_witness_integerElements :
    (Fmt.int8 ∈ [Fmt.int8, Fmt.int16, Fmt.int32]) ∧ 0xFF < 2 ^ Fmt.int8.width ∧ 0x80 < 2 ^ Fmt.int8.width
    ∧ (Fmt.int32 ∈ [Fmt.int8, Fmt.int16, Fmt.int32]) ∧ 0xFFFFFFFF < 2 ^ Fmt.int32.width
    ∧ (0 : Int) ≤ sext Fmt.int8.width 7 ∧ sext Fmt.int8.width 7 < Fmt.int8.width := by decide +kernel

/-- VectorFunctionResults. -/
theorem test_witness_vectorFunctions :
    vexIssuesB (vexAt exp2E) 0 exp2E = true ∧ Memory.wf (vexAt exp2E).mem = true ∧ vOp exp2E.word = 0x40
    ∧ (vexAt exp2E).vexSource 0 exp2E .fp32 = some (vexAt exp2E, codes0, some ⟨false, 0, lsBase 0, 16, 0, 0⟩)
    ∧ StreamsOk (vexAt exp2E) 0 exp2E .fp32 (some ⟨false, 0, lsBase 0, 16, 0, 0⟩) ⟨false, 128, lsBase 0 + 128, 16, 0, 0⟩ :=
  ⟨by decide +kernel, by decide +kernel, by decide +kernel, by decide +kernel,
    ⟨by decide +kernel, rfl, fun h => absurd h (by decide +kernel), fun h => absurd h (by decide +kernel),
      fun y h => by cases h; decide +kernel⟩⟩

/-- FunctionUnitSpecials: a NaN, and both ends of the ranges of EXP2's overflow and of the negative operands. -/
theorem test_witness_functionUnitSpecials : fpFP32.decode 0x7FC00001 = .nan
    ∧ (∀ x ∈ [0x43000000, 0x7F7FFFFF], 0x43000000 ≤ x ∧ x < 0x7F800000)
    ∧ (∀ x ∈ [0x80000001, 0xFF800000], 0x80000000 < x ∧ x ≤ 0xFF800000) := by decide +kernel

/-- SUM to scalar register S5, and to memory. -/
def sumE : VEntry := ⟨vexW 0x30 0 4 (0x8000000000 + 0x1000000000 + 5 * 2 ^ 21), 0, 0, 0, 0, 3, 0⟩
def sumMemE : VEntry := ⟨vexW 0x30 0 4 0x8000000000, 0, 0, 0, 128, 3, 0⟩

/-- VectorReductionResults: a scalar and a memory destination. -/
theorem test_witness_vectorReductions :
    (vexIssuesB (vexAt sumE) 0 sumE = true ∧ vDsel sumE.word = 1 ∧ sumE.thread < ((vexAt sumE).core 0).thr.length
      ∧ (((vexAt sumE).thread 0 0).st = .waitPeek → ((vexAt sumE).thread 0 0).arg ≠ bits sumE.word 25 21)
      ∧ (vexAt sumE).vexSource 0 sumE .int32 = some (vexAt sumE, codes0, some ⟨false, 0, lsBase 0, 16, 0, 0⟩))
    ∧ (vexIssuesB (vexAt sumMemE) 0 sumMemE = true ∧ vDsel sumMemE.word = 0
      ∧ (vexAt sumMemE).vexSource 0 sumMemE .int32 = some (vexAt sumMemE, codes0, some ⟨false, 0, lsBase 0, 16, 0, 0⟩)
      ∧ (vexAt sumMemE).strm 0 128 8 true = some ⟨false, 128, lsBase 0 + 128, 8, 0, 0⟩
      ∧ overlapOk ⟨false, 128, lsBase 0 + 128, 8, 0, 0⟩ ⟨false, 0, lsBase 0, 16, 0, 0⟩ 64 32 = true
      ∧ Memory.wf (vexAt sumMemE).mem = true ∧ ((vexAt sumMemE).core 0).sums = []) := by decide +kernel

/-- CVT of INT8 to INT8 and RSC of INT32 to INT8, their scale records at LS offsets 8 and 16; MFLUSH to entry 0. -/
def scales : List Host.Cell := memPutList [] (lsBase 0 + 8) (leBytes 8 0x100_3F800000 ++ leBytes 8 0x400_3F800000)
def cvtE : VEntry := ⟨vexW 0x60 1 1 0x8000000000, 0, 64, 0, 128, 3, 1 + 1 * 2 ^ 19⟩
def rscE : VEntry := ⟨vexW 0x61 1 4 0x4000000000, 0, 64, 0x3F800000, 128, 3, 2 + 1 * 2 ^ 19⟩
def mflushE : VEntry := ⟨vexW 0x70 0 0 0x8000000000, 0, 0, 0, 0, 0, 0⟩

/-- ConversionsAndMonitorFlush: CVT, RSC and MFLUSH. -/
theorem test_witness_conversionsAndMonitorFlush :
    (let s := { vexAt cvtE with mem := scales }
     vexIssuesB s 0 cvtE = true ∧ Memory.wf s.mem = true
      ∧ s.vexSource 0 cvtE .int8 = some (s, codes0, some ⟨false, 64, lsBase 0 + 64, 4, 0, 0⟩)
      ∧ s.vxeScale 0 (bits cvtE.sx 18 0) 1 = some ⟨0x3F800000, 0, .int8, 0⟩
      ∧ s.vxeScale 0 (bits cvtE.sx 37 19) 1 = some ⟨0x3F800000, 0, .int8, 0⟩
      ∧ s.strm 0 128 4 true = some ⟨false, 128, lsBase 0 + 128, 4, 0, 0⟩ ∧ (s.core 0).sums = []
      ∧ overlapOk ⟨false, 128, lsBase 0 + 128, 4, 0, 0⟩ ⟨false, 64, lsBase 0 + 64, 4, 0, 0⟩ 8 8 = true)
    ∧ (let s := { vexAt rscE with mem := scales }
       vexIssuesB s 0 rscE = true ∧ vBsel rscE.word = 1 ∧ rescaleOk (rscE.sb % 2 ^ 32) = true
      ∧ s.vexSource 0 rscE .int32 = some (s, codes0, some ⟨false, 64, lsBase 0 + 64, 16, 0, 0⟩)
      ∧ s.vxeScale 0 (bits rscE.sx 18 0) 4 = some ⟨0x3F800000, 0, .int32, 0⟩
      ∧ s.vxeScale 0 (bits rscE.sx 37 19) 1 = some ⟨0x3F800000, 0, .int8, 0⟩
      ∧ overlapOk ⟨false, 128, lsBase 0 + 128, 4, 0, 0⟩ ⟨false, 64, lsBase 0 + 64, 16, 0, 0⟩ 8 32 = true)
    ∧ (vexIssuesB (vexAt mflushE) 0 mflushE = true ∧ (vexAt mflushE).occupant 0 = some 0
      ∧ ((vexAt mflushE).monRec 0 0 0).isSome = true ∧ bits mflushE.sx 63 10 = 0 ∧ bits mflushE.sx 7 6 = 0) := by
  decide +kernel

/-! ### The matrix engine -/

/-- The running core with the MXE word `w` at the head of its galley and the OC bytes `l` at line `n`. -/
def mxeAt (w n : Nat) (l : List Byte) (f : Core → Core) : State :=
  { run0.modCore 0 fun c => f { c with xm := [⟨w, 0, []⟩] } with mem := memPutList [] (ocBase 0 + 64 * n) l }

/-- Everything `MxeTakes` asks, checked at once. -/
def mxeTakesB (s : State) (g : Nat) (e : MEntry) : Bool :=
  s.live g && (s.core g).mxeFrozen == false && decide (s.mxeHead g = some e) && mLegal e.word && decide (s.ecc = .empty)
    && decide (s.badSeg = .empty)

theorem mxeTakesB_spec {s : State} {g : Nat} {e : MEntry} (h : mxeTakesB s g e = true) : MxeTakes s g e := by
  simp only [mxeTakesB, Bool.and_eq_true, beq_iff_eq, decide_eq_true_eq] at h
  exact ⟨h.1.1.1.1.1, h.1.1.1.1.2, h.1.1.1.2, h.1.1.2, h.1.2, h.2⟩

def mxeW (op ag fa fb wb opd sum low : Nat) : Nat :=
  op * 2 ^ 124 + ag * 2 ^ 120 + fa * 2 ^ 116 + fb * 2 ^ 112 + wb * 2 ^ 111 + opd * 2 ^ 99 + sum * 2 ^ 87 + low

/-- A held group of INT8 pairs, its accumulators (all 0) not written out. -/
def group1 (st : AgSt) : Group := ⟨3, st, 0, .int8, .int8, 0, 0, [], [], [], false, []⟩
def bank1 : Bank := ⟨0, .int8, false, [], []⟩

/-- MatrixLoadOpenAndMultiply: LDW of an INT8 block into bank 0, and of an INT4 one with K256 into bank 1. -/
theorem test_witness_ldw :
    (let w := mxeW 1 0 0 1 0 0 1024 0
     let s := mxeAt w 1024 [2, 1, 0, 1, 0] id
     mxeTakesB s 0 ⟨w, 0, []⟩ = true ∧ sumkFmtOk 2 .int8 = true ∧ s.mxeOperand 0 w 16384 = (s, true)
      ∧ s.sumHead 0 1024 = (2, 1, 0, true, false) ∧ Fmt.int8.bytes (128 * 128) = 16384)
    ∧ (let w := mxeW 1 0 0 0 1 0 1024 0
       let s := mxeAt w 1024 [2, 0, 0, 1, 1] id
       mxeTakesB s 0 ⟨w, 0, []⟩ = true ∧ sumkFmtOk 2 .int4 = true ∧ s.mxeOperand 0 w 16384 = (s, true)
      ∧ s.sumHead 0 1024 = (2, 0, 0, true, true) ∧ Fmt.int4.bytes (256 * 128) = 16384) := by decide +kernel

/-- MatrixLoadOpenAndMultiply: OPEN of an INT8 pair at the last group number, and of UINT8 with its zero point. -/
theorem test_witness_openGroup :
    (let w := mxeW 2 15 1 1 0 0 0 0
     let s := mxeAt w 0 [] id
     mxeTakesB s 0 ⟨w, 0, []⟩ = true ∧ pairOf w = some (.int8, .int8, 128) ∧ (s.core 0).freeSlot = some 0 ∧ s.group 0 15 = none)
    ∧ (let w := mxeW 2 0 2 1 0 0 0 (1 * 2 ^ 26)
       let s := { mxeAt w 0 [] id with mem := memPutList [] (lsBase 0 + 8) (leBytes 8 0x205_3F800000) }
       mxeTakesB s 0 ⟨w, 0, []⟩ = true ∧ pairOf w = some (.uint8, .int8, 128) ∧ (s.core 0).freeSlot = some 0 ∧ s.group 0 0 = none
      ∧ s.lsOk 0 (8 * mZrec w) 8 = true ∧ (ScaleRec.read (s.le (lsBase 0 + 8 * mZrec w) 8)).isSome = true) := by decide +kernel

/-- MatrixLoadOpenAndMultiply: an MMA of one row at the largest KUSED. -/
theorem test_witness_mma :
    let w := mxeW 3 3 1 1 0 0 1024 (127 * 2 ^ 45)
    let s := mxeAt w 1024 [1, 1, 0, 1, 0] fun c => { c with groups := [group1 .opened], bank0 := some bank1 }
    mxeTakesB s 0 ⟨w, 0, []⟩ = true ∧ pairOf w = some (.int8, .int8, 128) ∧ s.group 0 3 = some (group1 .opened)
      ∧ mKused w < 128 ∧ bank1.tileK = 128 ∧ (s.core 0).tiles.length < 2 ∧ (s.core 0).shadowIn = []
      ∧ s.mxeOperand 0 w (Fmt.int8.bytes ((mRows w + 1) * 128)) = (s, true) ∧ s.sumHead 0 1024 = (1, 1, mRows w, true, false) := by
  decide +kernel

/-- MatrixGroupStates: PARK and ABORT of an open group, RESUME and DRAIN of a parked one. -/
theorem test_witness_matrixGroupStates :
    (∀ op ∈ [4, 7], let w := mxeW op 3 0 0 0 0 0 0
      let s := mxeAt w 0 [] fun c => { c with groups := [group1 .opened] }
      mxeTakesB s 0 ⟨w, 0, []⟩ = true ∧ s.group 0 3 = some (group1 .opened) ∧ (s.core 0).inFlight 3 = false)
    ∧ (let w := mxeW 5 3 0 0 0 0 0 0
       let s := mxeAt w 0 [] fun c => { c with groups := [group1 .parked] }
       mxeTakesB s 0 ⟨w, 0, []⟩ = true ∧ s.group 0 3 = some (group1 .parked))
    ∧ (let w := mxeW 6 3 0 0 0 0 0 (0xFF * 2 ^ 18)
       let s := mxeAt w 0 [] fun c => { c with groups := [group1 .parked] }
       mxeTakesB s 0 ⟨w, 0, []⟩ = true ∧ s.group 0 3 = some (group1 .parked) ∧ (s.core 0).inFlight 3 = false
        ∧ ((group1 .parked).drainCheck (s.fget (F.MXE_CHK_CTRL_TOL_EXP 0))).1 = 0) := by decide +kernel

/-- A tile of group 3 with the expected column sums `e`, its increments (all 0) not written out. -/
def tile1 (e : List Machine.Num) : Tile := ⟨3, 0, 0, 0, 0, 1, 1, .int8, bank1, [], e, [], false, 6⟩

/-- MatrixGroupStates: PARK, DRAIN and ABORT of a group with a tile in flight. -/
theorem test_witness_matrixGroupWaits : ∀ op ∈ [4, 6, 7], let w := mxeW op 3 0 0 0 0 0 (if op = 6 then 0xFF * 2 ^ 18 else 0)
    let s := mxeAt w 0 [] fun c => { c with groups := [group1 .opened], tiles := [tile1 []] }
    mxeTakesB s 0 ⟨w, 0, []⟩ = true ∧ s.group 0 3 = some (group1 .opened) ∧ (s.core 0).inFlight 3 = true := by decide +kernel

/-- TileRetiresOrReplays: a tile whose columns pass, and one whose first column fails. -/
theorem test_witness_tileRetiresOrReplays :
    (let s := mxeAt 0 0 [] fun c => { c with groups := [group1 .opened], tiles := [tile1 []] }
     s.mxeRuns 0 = true ∧ (s.core 0).tiles = [tile1 []] ∧ s.group 0 3 = some (group1 .opened) ∧ s.ecc = .empty
      ∧ s.badSeg = .empty ∧ s.evq.length + s.evFlying + 1 ≤ 4096 ∧ s.fget (F.MXE_CHK_CTRL_TOL_EXP 0) = 14
      ∧ (checkColumns false 14 (tile1 []).inc [] []).1 = 0 ∧ 0 + 1 ≤ pairMaxK .int8 .int8)
    ∧ (checkColumns false 14 (tile1 [.fin false 1 0]).inc [.fin false 1 0] []).1 ≠ 0 := by decide +kernel

/-- DrainsAndShadowTiles: the first and the last entry of a drain, a tile from another core, a CRC that agrees or not, and a
frozen engine. -/
theorem test_witness_drainsAndShadowTiles :
    (∀ b ∈ [0, 7], let s := mxeAt 0 0 [] fun c => { c with groups := [group1 .draining], drains := [⟨3, 255, 0, b, false⟩] }
      s.mxeRuns 0 = true ∧ (s.core 0).drains = [⟨3, 255, 0, b, false⟩] ∧ s.group 0 3 = some (group1 .draining)
        ∧ (s.core 0).mv.length < (s.galley 0).mv ∧ b < 8 ∧ 3 < 16 ∧ 255 < 256 ∧ (group1 .draining).slot < 8
        ∧ (group1 .draining).kacc < 2 ^ 32)
    ∧ (let s := run0.modCore 0 fun c => { c with shadowIn := [⟨1, 0, tile1 [], 0⟩] }
       s.mxeRuns 0 = true ∧ s.ecc = .empty ∧ (s.core 0).shadowIn = [⟨1, 0, tile1 [], 0⟩] ∧ (s.core 0).tiles.length < 2)
    ∧ (∀ k ∈ [0, 1], let s := run0.modCore 0 fun c =>
        { c with shadowBack := [⟨0, 1, tile1 [], 0⟩], shadowWait := [⟨0, 1, tile1 [], k⟩] }
      s.mxeRuns 0 = true ∧ (s.core 0).shadowBack = [⟨0, 1, tile1 [], 0⟩]
        ∧ ((s.core 0).shadowWait.find? fun y => y.tile.num == 0) = some ⟨0, 1, tile1 [], k⟩
        ∧ s.evq.length + s.evFlying + 1 ≤ 4096)
    ∧ ((run0.modCore 0 fun c => { c with mxeFrozen := true }).core 0).mxeFrozen = true := by decide +kernel

/-- RangeMonitorFlushAndVerdict. -/
theorem test_witness_rangeMonitor :
    (let s := run0.modDie 0 fun d => { d with flushes := [⟨0, 0, 63, MonSet.zero⟩] }
     (s.die 0).flushes = [⟨0, 0, 63, MonSet.zero⟩] ∧ s.clockStopped (some 0) = false ∧ ((s.die 0).mon.get MonEntry.zero 63).decided = false)
    ∧ (let s := run0.modDie 0 fun d => { d with mon := d.mon.set 0 { MonEntry.zero with elem := 4096, nz := 4, sat := 1, zl := 1, flushes := 1 } }
       let m := (s.die 0).mon.get MonEntry.zero 0
       (s.formes.findSome? fun p => (p.2.mons.find? fun m => m.die == 0 && m.entry == 0).map fun m => (p.1, m))
          = some (0, ⟨0, 0, 1, 600, 0, 0⟩)
        ∧ m.decided = false ∧ 1 ≤ m.flushes ∧ m.sat * 2 ^ s.fget (F.CD_RM_THRESH_TSAT_EXP 0) ≤ m.elem
        ∧ m.zl * 256 ≤ s.fget (F.CD_RM_THRESH_TUF_NUM 0) * m.nz ∧ s.clockStopped (some 0) = false ∧ s.evq.length + s.evFlying + 1 ≤ 4096)
    ∧ (∀ a ∈ [ResetAct.die 0, .warm], { run0 with rst := { run0.rst with capture := some ⟨a, col1, some 0, 0⟩ } }.clockStopped (some 0)
        = true) := by decide +kernel

/-! ### The transfer engine -/

def copyWords (n : Nat) : List Nat := [1 * 2 ^ 60, lsBase 0 + 4096, lsBase 0 + 8192, (n - 1) * 2 ^ 46, 0, 0, 0, 0]
def zeroWords : List Nat := [2 * 2 ^ 60, 0, ocBase 0, 0, 0, 0, 0, 0]
def qsetWords : List Nat := [3 * 2 ^ 60, 0, 0, 0, 5, 0, 511 * 2 ^ 38, 0]
def hintWords : List Nat := [4 * 2 ^ 60, 0, 0, 1 * 2 ^ 30, 128 * 2 ^ 32, 0, 0, 0]

def xfeAt (f : Core → Core) : State := run0.modCore 0 f
def descOf (l : List Nat) : Desc := ⟨0, 0, 0, 4096, l, true⟩
def queued (l : List Nat) : State := xfeAt fun c => { c with xq := [descOf l] }

/-- Everything `XferIdle` asks, checked at once. -/
def xferIdleB (s : State) (g c : Nat) : Bool :=
  s.occupant g == some c && decide ((s.core g).act = []) && decide ((s.core g).slots = []) && decide ((s.core g).waits = [])
    && decide ((s.core g).chainWait = []) && decide ((s.ctx c).streams = []) && decide (s.ended = [])

theorem xferIdleB_spec {s : State} {g c : Nat} (h : xferIdleB s g c = true) : XferIdle s g c := by
  simp only [xferIdleB, Bool.and_eq_true, beq_iff_eq, decide_eq_true_eq] at h
  exact ⟨h.1.1.1.1.1.1, h.1.1.1.1.1.2, h.1.1.1.1.2, h.1.1.1.2, h.1.1.2, h.1.2, h.2⟩

/-- DescriptorsStartTheirRequests: COPY of one block and of 2 KiB, and a legal ZERO. -/
theorem test_witness_descriptorsStart :
    ∀ p ∈ [((1 : Nat), copyWords 1), (1, copyWords 32), (2, zeroWords)],
      let s := queued p.2
      let l := p.2
      let n := 64 * (dField l 3 63 46 + 1)
      xferIdleB s 0 0 = true ∧ s.xfeLive 0 = true ∧ descLegal 0 l = true
      ∧ (s.core 0).xq.find? (fun d => d.ready && dField d.words 0 63 60 == p.1 && s.canStart 0 d.words) = some (descOf l)
      ∧ dField l 0 24 24 = 0 ∧ dField l 0 56 56 = 0 ∧ dField l 0 55 55 = 0 ∧ dField l 0 54 52 = 0 ∧ dField l 0 25 25 = 0
      ∧ dField l 3 45 30 = 0 ∧ dField l 7 21 6 = 0 ∧ n ≤ 2048 ∧ isMem (dField l 2 47 0) = false
      ∧ (p.1 = 1 → isMem (dField l 1 47 0) = false ∧ s.xfeReach 0 false (dField l 1 47 0) n = true)
      ∧ s.xfeReach 0 true (dField l 2 47 0) n = true := by decide +kernel

/-- QsetHintAndCompletion: a QSET, a HINT of two rows, and completions of both kinds. -/
def doneOf (l : List Nat) : Active := ⟨descOf l, 0, 64, 1, 1, 0, 0, false, false, true⟩

theorem test_witness_qsetHintAndCompletion :
    (∀ p ∈ [((3 : Nat), qsetWords), (4, hintWords)], let s := queued p.2
      xferIdleB s 0 0 = true ∧ s.xfeLive 0 = true ∧ dField p.2 0 24 24 = 0 ∧ dField p.2 0 25 25 = 0 ∧ dField p.2 7 21 6 = 0
      ∧ (s.core 0).xq.find? (fun e => e.ready && dField e.words 0 63 60 == p.1 && s.canStart 0 e.words) = some (descOf p.2)
      ∧ (p.1 = 4 → ∀ r ∈ [0, 1], s.rowReach 0 false (64 / 0x40000 + 2) (dField p.2 1 47 0 + r * dField p.2 4 63 32) 64 = true))
    ∧ (∀ l ∈ [qsetWords, (copyWords 1).set 6 (511 * 2 ^ 38 + 0xFFFF * 2 ^ 22)], let s := xfeAt fun c => { c with act := [doneOf l] }
      s.occupant 0 = some 0 ∧ s.xfeLive 0 = true ∧ (s.core 0).lost = [] ∧ (doneOf l).rows ≤ (doneOf l).row ∧ (doneOf l).gq = 0
      ∧ dField l 0 27 26 = 0 ∧ dField l 7 61 52 = 0 ∧ dField l 6 47 38 ≠ 0) := by decide +kernel

/-- LandedRequestWritesItsBytes. -/
def slot1 : Slot := ⟨⟨0, .copy, lsBase 0 + 4096, lsBase 0 + 8192, 64, 0x20000, 0x20000⟩, false, 0, 0, List.replicate 64 7, 0, [], some 0⟩

theorem test_witness_landedRequest :
    let s := xfeAt fun c => { c with slots := [slot1], act := [doneOf (copyWords 1)] }
    s.occupant 0 = some 0 ∧ s.xfeLive 0 = true ∧ s.ecc = .empty ∧ s.badSeg = .empty ∧ Memory.wf s.mem = true ∧ s.ended = []
      ∧ (s.ctx 0).streams = [] ∧ (s.core 0).waits = [] ∧ (s.core 0).sums = [] ∧ (doneOf (copyWords 1)).failed = false
      ∧ (doneOf (copyWords 1)).d.id = slot1.req.desc ∧ slot1.req.desc < streamDesc ∧ dField (copyWords 1) 0 54 52 = 0
      ∧ slot1.data.length = slot1.req.len ∧ s.heldBehind slot1 = false ∧ s.bankStopped slot1.req.bank = false ∧ s.bankStopped slot1.req.bank2 = false
      ∧ (doneOf (copyWords 1)).rows ≤ (doneOf (copyWords 1)).row := by decide +kernel

/-- ChainsRefetchesAndAging: a chain member, an even generation, a request held 5 µs and one held 101 µs. -/
theorem test_witness_chainsRefetchesAndAging :
    (let s := xfeAt fun c => { c with chainWait := [descOf qsetWords] }
     s.occupant 0 = some 0 ∧ (s.core 0).act = [] ∧ (s.core 0).slots = [] ∧ (s.core 0).waits = [] ∧ s.ended = []
      ∧ (s.ctx 0).streams = [] ∧ s.xfeLive 0 = true ∧ dField qsetWords 0 63 60 = 3 ∧ dField qsetWords 0 24 24 = 0
      ∧ dField qsetWords 0 25 25 = 0 ∧ dField qsetWords 7 21 6 = 0)
    ∧ (let s := { xfeAt fun c => { c with refetch := [⟨false, 0, ⟨0, 0, 511, 0, false, 4096⟩, false, 0⟩] } with
          mem := memPutList [] (lsBase 0 + 4096) ((copyWords 1).map (leBytes 8 ·)).flatten }
       xferIdleB s 0 0 = true ∧ s.xfeLive 0 = true ∧ s.ecc = .empty ∧ s.badSeg = .empty ∧ s.quoin 0 511 % 2 = 0
      ∧ s.lsOk 0 4096 64 = true ∧ s.descWords 0 4096 = copyWords 1 ∧ descLegal 0 (copyWords 1) = true
      ∧ (descQuoins (copyWords 1)).all (s.quoinOwned 0) = true)
    ∧ (let s := { xfeAt fun c => { c with slots := [slot1] } with timeUs := 5 }
       (s.core 0).slots[0]? = some slot1 ∧ slot1.since + 4 < s.timeUs ∧ slot1.aged = false)
    ∧ (∀ b ∈ [6143, 0x10000, 0x100FF], let x : Slot := { slot1 with req := { slot1.req with bank := b } }
       let s := { xfeAt fun c => { c with slots := [x] } with timeUs := 101 }
       (s.core 0).slots[0]? = some x ∧ x.queued = some 0 ∧ 0 + 100 < s.timeUs ∧ x.req.bank ≠ 0x20000 ∧ x.req.kind.isLocal = true
        ∧ (x.req.bank2 = 0x20000 ∨ x.req.bank2 = x.req.bank) ∧ s.lastEvent.find (2 ^ 40 + x.req.bank) = none ∧ s.evq.length + s.evFlying + 1 ≤ 4096) := by decide +kernel

/-- ScrubbersCorrectOrRecord: HBM and LPDDR5X, good, with 4 wrong symbols and with 5, and a segment with another tag. -/
theorem test_witness_patrolScrub : ∀ a ∈ [0, lpxBase],
    (∀ e ∈ [Tbl.empty, Tbl.empty.set a 0xF, Tbl.empty.set a 0x1F], let s := { ready0 with ecc := e }
      isMem a = true ∧ s.inService a 64 = true ∧ s.scrubOn a = true ∧ s.segBad a = false ∧ correctable a 0xF = true
        ∧ correctable a 0x1F = false ∧ s.evq.length + s.evFlying + 2 ≤ 4096)
    ∧ (a = lpxBase → let s := { ready0 with badSeg := Tbl.empty.set 0 0 }
       s.inService a 64 = true ∧ s.scrubOn a = true ∧ s.segBad a = true) := by decide +kernel

/-- ScrubbersCorrectOrRecord: an LS word of a core that is nobody's and of a running one, and a word of a die-cache line. -/
theorem test_witness_sramScrub :
    (∀ s ∈ [ready0, run0], isMem (lsBase 0) = false ∧ s.scrubOn (lsBase 0) = true ∧ sramOf (lsBase 0) = some (.core 0)
      ∧ correctable (lsBase 0) 1 = true ∧ correctable (lsBase 0) 3 = false ∧ s.evq.length + s.evFlying + 1 ≤ 4096)
    ∧ ready0.occupant 0 = none ∧ run0.occupant 0 = some 0 ∧ run0.ctxState 0 = ctxRunning
    ∧ (let a := dcDataBase 3 23 32767
       isMem a = false ∧ ready0.scrubOn a = true ∧ sramOf a = some (.line 3 23 32767) ∧ correctable a 3 = false) := by
  decide +kernel

/-! ### Contexts and their commands -/

/-- A command body (Table 13-5) with each listed value at its byte. -/
def cmdBody (l : List (Nat × Nat)) : List Byte := leBytes 64 (l.map fun p => p.2 * 2 ^ (8 * p.1)).sum

def cmdOf (opc : Nat) (l : List (Nat × Nat)) (st : CmdStage) : Cmd := ⟨opc, 7, cmdBody l, st, 0⟩

/-- A queue pair of context 0, connected and with nothing sent. -/
def qp1 : HostQp := ⟨5, 1, 0, 9, 100, List.replicate 16 0, 4096, 0x77, false, 40, [], 0, 0, rateMax, none, none, 0, 0⟩

/-- Context 0 in state `st` with `forme1`, its completion ring on `qp1`, and the command `k` in hand of ring 0. -/
def ctxAt (st : Nat) (k : Cmd) : State :=
  let s := { sets ready0 [(F.CTX_STAT_STATE 0, st)] with hpt := { ready0.hpt with qps := [qp1] } }
  (s.modCtx 0 fun x => { x with forme := some forme1, crQp := some 5 }).modRing 0 0 fun g => { g with cur := some k }

/-- Everything `CommandActs` asks, checked at once. -/
def actsB (s : State) (c r opc : Nat) (k : Cmd) : Bool :=
  decide ((s.ring c r).cur = some k) && k.opc == opc && decide (k.stage = .taken) && s.fget F.MGT_PLANE_STAT_MGMT_DOWN == 0
    && (opc == 8 || opc == 10 || transientState (s.ctxState c) == false)
    && acceptedIn opc (s.ctxState c) (s.fget (F.CTX_STAT_IMAGE c) == 1)

theorem actsB_spec {s : State} {c r opc : Nat} {k : Cmd} (h : actsB s c r opc k = true) : CommandActs s c r opc k := by
  simp only [actsB, Bool.and_eq_true, Bool.or_eq_true, beq_iff_eq, decide_eq_true_eq] at h
  exact ⟨h.1.1.1.1.1, h.1.1.1.1.2, h.1.1.1.2, h.1.1.2, or_assoc.mp h.1.2, h.2⟩

/-- ContextCommandsAct: LOAD_FORME, ADMIT, RUN_STEPS of a RUNNING and of an IDLE context, PREEMPT, SAVE and TEARDOWN. -/
theorem test_witness_contextCommands :
    (let k := cmdOf 1 [(8, 0x1000), (16, 0x77), (20, 4096)] .taken
     let s := ctxAt ctxIdle k
     actsB s 0 0 1 k = true ∧ (s.ctx 0).loading = none ∧ (s.ctx 0).crQp.bind s.qp? = some qp1 ∧ k.arg 20 8 ≠ 0)
    ∧ (∀ st ∈ [0, 1], let k := cmdOf 2 [(8, 5), (16, 2), (20, st)] .taken
       actsB (ctxAt ctxLoaded k) 0 0 2 k = true)
    ∧ (let k := cmdOf 3 [(8, 4)] .taken
       actsB (ctxAt ctxRunning k) 0 0 3 k = true)
    ∧ (let k := cmdOf 3 [(8, 4)] .taken
       let s := ctxAt ctxIdle k
       actsB s 0 0 3 k = true ∧ s.impositionFits 0 = true ∧ s.coresFree 0 = true ∧ (∀ g ∈ s.chaseCoresOf 0, g < 128)
        ∧ s.chaseCoresOf 0 = [0])
    ∧ (∀ o ∈ [(4 : Nat), 5, 8], let k := cmdOf o [] .taken
       let s := ctxAt ctxRunning k
       actsB s 0 0 o k = true ∧ (s.ctx 0).stop = none ∧ (s.ctx 0).coll.order = none ∧ s.ctxState 0 ≠ ctxTearing
        ∧ (s.ctx 0).loading = none) := by decide +kernel

/-- CommandsRefusedAndHeld: in TEARING every command is held, and in FAULTED (MIGRATE, RESTORE included) refused. -/
theorem test_witness_commandsRefusedAndHeld :
    ∀ o ∈ [(1 : Nat), 2, 3, 4, 5, 6, 7, 9], let k := cmdOf o [] .taken
      (let s := ctxAt ctxTearing k
       (s.ring 0 0).cur = some k ∧ s.fget F.MGT_PLANE_STAT_MGMT_DOWN = 0 ∧ s.ended = [] ∧ transientState (s.ctxState 0) = true)
      ∧ (let s := ctxAt ctxFaulted k
         (s.ring 0 0).cur = some k ∧ s.fget F.MGT_PLANE_STAT_MGMT_DOWN = 0 ∧ s.ended = [] ∧ transientState (s.ctxState 0) = false
          ∧ acceptedIn o (s.ctxState 0) (s.fget (F.CTX_STAT_IMAGE 0) == 1) = false) := by decide +kernel

/-- An imposition image of one member with epoch 1 (Table 10-1). -/
def impImage : List Byte :=
  leBytes 4 0x4D49574B ++ leBytes 2 1 ++ leBytes 2 0 ++ leBytes 2 1 ++ leBytes 2 1 ++ leBytes 2 0 ++ leBytes 1 1 ++ leBytes 1 0
    ++ (List.replicate 5 (leBytes 2 1)).flatten ++ leBytes 2 0 ++ leBytes 4 1 ++ leBytes 2 1 ++ leBytes 2 1 ++ leBytes 4 0
    ++ leBytes 4 128 ++ leBytes 4 136 ++ leBytes 4 144 ++ leBytes 4 152 ++ leBytes 4 160 ++ leBytes 4 0 ++ List.replicate 64 0
    ++ leBytes 8 0 ++ leBytes 8 1 ++ leBytes 4 152 ++ leBytes 2 1 ++ leBytes 2 0 ++ leBytes 8 0

/-- SET_IMPOSITION of the image at 4096, its rank map at 8192. -/
def impCmd : Cmd := cmdOf 9 [(8, 4096), (16, 8192)] .taken
def impAt (mem : List Host.Cell) : State :=
  (({ ctxAt ctxRunning impCmd with mem := mem }).modCtx 0 fun x =>
    { x with forme := some { forme1 with hash := List.replicate 48 0 }, pos := ⟨true, 0, false⟩ })

/-- RestoreMigrateAndImpose. -/
theorem test_witness_restoreMigrateImpose :
    (∀ image ∈ [(0 : Nat), 1], let k := cmdOf 6 [] .taken
      let s := (ctxAt ctxSaved k).fset (F.CTX_STAT_IMAGE 0) image
      actsB s 0 0 6 k = true ∧ s.impositionFits 0 = true ∧ (s.ctx 0).launch = none ∧ s.fget (F.CTX_STAT_IMAGE 0) = image
        ∧ s.coresFree 0 = true ∧ (∀ g ∈ s.chaseCoresOf 0, g < 128) ∧ s.evq.length + s.evFlying + 1 ≤ 4096
        ∧ (s.ctx 0).landing = [] ∧ s.ecc = .empty ∧ s.badSeg = .empty)
    ∧ (let k := cmdOf 7 [(8, 3), (11, 0)] .taken
       let s := (ctxAt ctxSaved k).fset (F.CTX_STAT_IMAGE 0) 1
       actsB s 0 0 7 k = true ∧ (s.spans 0 = false ∨ k.arg 11 1 = 0) ∧ s.ended = [] ∧ Memory.wf s.mem = true ∧ s.ecc = .empty
        ∧ s.badSeg = .empty ∧ s.peers.length < 4096)
    ∧ (let s := impAt (memPutList [] 4096 impImage)
       actsB s 0 0 9 impCmd = true ∧ (s.coll 0).pend = none ∧ s.ended = [] ∧ s.ecc = .empty ∧ s.badSeg = .empty
        ∧ (s.ctx 0).forme = some { forme1 with hash := List.replicate 48 0 }
        ∧ (s.checkImposition 0 { forme1 with hash := List.replicate 48 0 } 4096 8192 0).2.1 = 0
        ∧ (s.checkImposition 0 { forme1 with hash := List.replicate 48 0 } 4096 8192 0).2.2.isSome = true
        ∧ (s.atBoundary 0 = false ∨ s.ctxState 0 = ctxRunning))
    ∧ (let s := impAt []
       let f := { forme1 with hash := List.replicate 48 0 }
       (s.checkImposition 0 f 4096 8192 0).2.1 = 0x60 ∧ (s.checkImposition 0 f 4096 8192 0).1.evq.length
         + (s.checkImposition 0 f 4096 8192 0).1.evFlying + 2 ≤ 4096) := by decide +kernel

/-- QueriesSendState: a QUERY of each of its four kinds, of a colophon that is kept and one that is not, and of the frozen
state of a held FAULTED context and of one that is RUNNING. -/
theorem test_witness_queries :
    (∀ w ∈ [(0 : Nat), 1, 2, 3], let k := cmdOf 10 [(8, w), (12, 0), (16, 0x1000), (24, 0x77), (28, 64)] .taken
      let s := ctxAt ctxRunning k
      actsB s 0 0 10 k = true ∧ (s.ctx 0).crQp.bind s.qp? = some qp1 ∧ qp1.err = false ∧ k.arg 8 1 = w
        ∧ s.colFind (k.arg 12 4) = none ∧ s.ctxState 0 ≠ ctxFaulted)
    ∧ (let k := cmdOf 10 [(8, 1), (12, 7)] .taken
       let s := { ctxAt ctxRunning k with rst := { ready0.rst with ram := [some col1, none, none, none] } }
       actsB s 0 0 10 k = true ∧ s.colFind (k.arg 12 4) = some col1)
    ∧ (let k := cmdOf 10 [(8, 2), (12, 0)] .taken
       let s := sets (ctxAt ctxFaulted k) [(F.CTX_CFG_HOLD_ON_FAULT 0, 1), (F.CORE_RES_OCCUPIED 0, 1), (F.CORE_RES_CTX 0, 0)]
       actsB s 0 0 10 k = true ∧ s.ctxState 0 = ctxFaulted ∧ s.fget (F.CTX_CFG_HOLD_ON_FAULT 0) = 1
        ∧ s.occupant (k.arg 12 4) = some 0) := by decide +kernel

/-- A forme image of one core of die 0 with one thread and one impression (Tables 6-1 to 6-5): CHASE, PROGRAM, MEMDECL
without records, and SCHED. Its HASH was computed outside the model. -/
def formeImage : List Byte :=
  leBytes 4 0x4D46574B ++ leBytes 2 0x0100 ++ leBytes 2 512 ++ leBytes 8 1024 ++ leBytes 4 0x4B081536 ++ leBytes 4 0
    ++ leBytes 2 4 ++ leBytes 2 1 ++ leBytes 4 0 ++ leBytes 2 1000 ++ leBytes 2 0 ++ leBytes 2 50 ++ leBytes 2 10000
    ++ leBytes 4 10 ++ leBytes 20 0
    ++ leBytes 48 0x72874b0b02b6ecb8bf55eacfbc61a151c63e2c905606f02d0245453ece56629c20f1dc96aa06b713b299f47be92c0a86
    ++ leBytes 144 0
    ++ leBytes 8 512 ++ leBytes 4 256 ++ leBytes 4 1 ++ leBytes 8 768 ++ leBytes 4 36 ++ leBytes 4 3
    ++ leBytes 8 832 ++ leBytes 4 16 ++ leBytes 4 5 ++ leBytes 8 896 ++ leBytes 4 80 ++ leBytes 4 6 ++ leBytes 192 0
    ++ leBytes 8 1 ++ leBytes 4 10 ++ leBytes 4 64 ++ leBytes 240 0
    ++ leBytes 16 1 ++ leBytes 8 0 ++ leBytes 4 32 ++ leBytes 4 1 ++ leBytes 32 0
    ++ leBytes 64 0
    ++ leBytes 16 1 ++ leBytes 4 10 ++ leBytes 4 48 ++ leBytes 24 0 ++ leBytes 4 0 ++ List.replicate 28 0xFF ++ leBytes 48 0

/-- A FREE context whose LOAD_FORME has delivered the image `l` whole. -/
def loadedAt (l : List Byte) : State :=
  let s := (ctxAt ctxFree (cmdOf 1 [] .active))
  s.modCtx 0 fun x => { x with forme := none, loading := some ⟨0, l, l.length, true, 4⟩ }

/-- ProofPassInstallsOrRefuses: an image that passes every check, and an empty one, refused with BAD_HEADER. -/
theorem test_witness_proofPass :
    let s := loadedAt formeImage
    (s.ctx 0).loading = some ⟨0, formeImage, 1024, true, 4⟩ ∧ (∀ d : CtxId, d.val ≠ 0 → (s.ctx d).loading = none)
      ∧ (s.ring 0 0).cur = some (cmdOf 1 [] .active) ∧ s.evq.length + s.evFlying + 2 ≤ 4096 ∧ s.ecc = .empty ∧ s.badSeg = .empty
      ∧ Memory.wf s.mem = true ∧ s.ctxState 0 = ctxFree ∧ s.tck.change = none
      ∧ (s.proofPass 0 formeImage).1 = 0 ∧ (s.proofPass 0 formeImage).2.isSome = true
      ∧ (s.proofPass 0 []) = (1, none) := by decide +kernel

/-- Core 0 saved, its digest taken over the small state of write 0. -/
def saved0 : SavedCore Core := ⟨0, Core.reset, some 0⟩

/-- The same in the save area: context 0 in state `st` waits to be restored. -/
def savedAt (st : Nat) : State :=
  { (sets ready0 [(F.CTX_STAT_STATE 0, st)]).modCtx 0 fun x =>
      { x with forme := some forme1, launch := some ⟨true, 0, none, 0⟩, saved := [saved0] } with
    mem := (cellsOf (smallState 0 0)).map fun c => (c.1 + (forme1.imageAt 0 + 0x4C0000), c.2) }

theorem memCells_shift (l : List Byte) (a : Nat) :
    memCells ((cellsOf l).map fun c => (c.1 + a, c.2)) a l.length = cellsOf l := by
  have h : ∀ c ∈ cellsOf l, c.1 < l.length := fun c hc => by
    have := (List.of_mem_zip (List.mem_of_mem_filter hc)).1
    simpa using this
  rw [memCells, List.filter_eq_self.mpr, List.map_map]
  · exact (List.map_congr_left fun c _ => by simp).trans (List.map_id _)
  · intro c hc
    obtain ⟨d, hd, rfl⟩ := List.mem_map.mp hc
    have := h d hd
    simp only [Bool.and_eq_true, decide_eq_true_eq]
    omega

theorem digestOk_saved0 (st : Nat) : (savedAt st).digestOk (forme1.imageAt 0) saved0 = true := by
  have h := memCells_shift (smallState 0 0) (forme1.imageAt 0 + 0x4C0000)
  simp only [smallState, List.length_map, List.length_range] at h
  simp [State.digestOk, saved0, savedAt, smallState, h]

/-- SavesRestoresAndTeardownsEnd: the start of a core's restore. -/
theorem test_witness_restoreCoreStart : ∀ st ∈ [ctxSaved, ctxRestoring], let s := savedAt st
    s.digestOk (forme1.imageAt 0) saved0 = true ∧ forme1.coreList.contains 0 = true ∧ s.occupant 0 = none ∧ s.ctxState 0 = st ∧ s.fget F.MGT_PLANE_STAT_MGMT_DOWN = 0
      ∧ (s.ctx 0).faultStop = false ∧ (s.ctx 0).saved.find? (fun x => x.core == 0) = some saved0 ∧ (s.ctx 0).forme = some forme1
      ∧ (s.ctx 0).launch = some ⟨true, 0, none, 0⟩ ∧ s.ecc = .empty ∧ s.badSeg = .empty := by
  intro st hs
  refine ⟨digestOk_saved0 st, ?_⟩
  revert st
  decide +kernel

/-- SavesRestoresAndTeardownsEnd: the other clauses. -/
theorem test_witness_savesRestoresTeardowns :
    (let s := (run0.fset (F.CTX_STAT_STATE 0) ctxSaving).modCtx 0 id
     (s.ctx 0).forme = some forme1 ∧ s.ctxState 0 = ctxSaving ∧ (s.ctx 0).faultStop = false ∧ s.ecc = .empty ∧ s.badSeg = .empty
      ∧ s.ended = [] ∧ s.evq.length + s.evFlying + 3 ≤ 4096)
    ∧ (let s := (run0.fset (F.CTX_STAT_STATE 0) ctxRestoring).modCtx 0 fun x => { x with saved := [saved0] }
       s.ctxState 0 = ctxRestoring ∧ s.occupant 0 = some 0 ∧ (∃ x ∈ (s.ctx 0).saved, x.core = 0) ∧ (s.ctx 0).faultStop = false
        ∧ (s.ctx 0).landing = [] ∧ s.ended = [] ∧ s.ecc = .empty ∧ s.badSeg = .empty ∧ s.evq.length + s.evFlying + 1 ≤ 4096
        ∧ (∀ h ∈ s.chaseCoresOf 0, s.occupant h = some 0 ∧ (h = 0 ∨ (s.core h).restored = true)))
    ∧ (∀ p ∈ [((3 : Nat), ctxIdle), (6, ctxSaved)], let k := cmdOf p.1 [] .waitCores
       let s := { sets (ctxAt p.2 k) [(F.CORE_RES_OCCUPIED 0, 1), (F.CORE_RES_CTX 0, 1)] with timeUs := 2000 }
       (s.ring 0 0).cur = some k ∧ k.since + 2000 ≤ s.timeUs ∧ s.coresFree 0 = false ∧ s.occupied 0 = [])
    ∧ (let s := (run0.fset (F.CTX_STAT_STATE 0) ctxTearing).modCtx 0 fun x => { x with tearing := some 0 }
       s.ctxState 0 = ctxTearing ∧ (s.ctx 0).tearing ≠ none ∧ s.fget F.MGT_PLANE_STAT_MGMT_DOWN = 0 ∧ s.captureOn 0 = false) := by
  decide +kernel

/-- `s` as module 1 of the fabric, with peer 2 reached by port 0 for every class. -/
def fabric (s : State) : State :=
  { sets s [(F.FAB_SELF_FAB, 1), (F.FAB_PORT_STAT_STATE 0 0, portActive), (F.MGT_CAP_SUM_ACTIVE_PORTS, 1)] with
    peers := [Peer.new 2], routes := Tbl.empty.set 0 ⟨true, 0, 0, 1⟩ }

/-- A WRITE request of context 0 to peer 2, sent at 0. -/
def xfer1 : Xfer := ⟨3, 2, 1, 0, 0, .write, 4096, List.replicate 64 1, 0, 0, .quoin, 9, 1, false, false, none, 0, []⟩

/-- A migration's copy task. -/
def copy1 (fails : Nat) : Task := ⟨.migrate, 0, [], [], fails, false⟩

/-- MigrationsAndRequestTimersEnd. -/
theorem test_witness_migrationsAndTimers :
    (∀ n ∈ [(0 : Nat), 1], let s := (run0.fset (F.CTX_STAT_STATE 0) ctxMigrating).modCtx 0 fun x =>
        { x with coll := { x.coll with tasks := [copy1 n] } }
      s.ctxState 0 = ctxMigrating ∧ s.copyTask 0 = some (copy1 n) ∧ (copy1 n).out = false ∧ (copy1 n).todo = [] ∧ (copy1 n).fails = n
        ∧ (s.coll 0).tasks = [copy1 n] ∧ s.ended = [] ∧ s.evq.length + s.evFlying + 2 ≤ 4096)
    ∧ (let y := { xfer1 with busy := true, busySince := some 0 }
       let s := { fabric run0 with xfers := [y], timeUs := 2 }
       s.xfer? 3 = some y ∧ y.sentAt + 2 ≤ s.timeUs ∧ s.ended = [] ∧ s.peerValid 2 = true ∧ (s.portFor 2 1).isSome = true)
    ∧ (∀ r ∈ [true, false], let y := { xfer1 with resent := r }
       let s := { fabric run0 with xfers := [y], timeUs := 50 }
       s.xfer? 3 = some y ∧ y.busy = false ∧ s.waitsAtPort y = false ∧ y.sentAt + 50 ≤ s.timeUs ∧ s.ended = []
        ∧ (s.portFor y.fab y.tc).isSome = true ∧ s.evq.length + s.evFlying + 1 ≤ 4096)
    ∧ (let y := { xfer1 with busy := true, busySince := some 0 }
       let s := { fabric (run0.fset (F.CTX_CFG_PEER_TO_MS 0) 100) with xfers := [y], timeUs := 100000 }
       s.xfer? 3 = some y ∧ 0 + 1000 * s.fget (F.CTX_CFG_PEER_TO_MS 0) ≤ s.timeUs
        ∧ (s.coll 0).told.contains (2 ^ 41 + 2) = false ∧ s.evq.length + s.evFlying + 2 ≤ 4096) := by decide +kernel

/-! ### Ticks -/

/-- `s` with its tick unit in state `st` and role `role`, the next tick at `ns`, and time `t`. -/
def tickAt (s : State) (st role ns t : Nat) : State :=
  { sets s [(F.TCK_STAT_STATE, st), (F.TCK_CTRL_ROLE, role), (F.TCK_CTRL_EN, 1)] with
    tck := { TickUnit.reset with nextNs := ns }, timeUs := t }

/-- Context 0 runs, and thread 0 of core 0 has not ended. -/
def busy0 : State := run0.modCore 0 fun k => { k with started := [0] }

/-- Every context from `c` on is FREE and has nothing pending (`OnlyContext` with `c` = 0 or 8). -/
def onlyB (s : State) (c : Nat) : Bool :=
  (List.finRange 8).all fun d => d.val == c || (s.ctxState d == ctxFree && (s.ctx d).faultStop == false)

theorem onlyB_spec {s : State} {c : Nat} (h : onlyB s c = true) : OnlyContext s c := by
  intro d hd
  have := List.all_eq_true.mp h d (List.mem_finRange d)
  simp only [Bool.or_eq_true, Bool.and_eq_true, beq_iff_eq] at this
  exact this.resolve_left hd

/-- TickAdvancesContexts: no context, one with no steps left, and one whose impression has not ended in a slipping group. -/
theorem test_witness_tickAdvances :
    (let s := tickAt ready0 tckLocked roleStandalone 5000 5
     s.tickDue = true ∧ s.ended = [] ∧ onlyB s 8 = true ∧ s.follows = false ∧ s.tck.change = none
      ∧ (∀ d : CtxId, (s.coll d).repair = none))
    ∧ (let s := tickAt run0 tckLocked roleStandalone 5000 5
       s.tickDue = true ∧ onlyB s 0 = true ∧ s.ctxState 0 = ctxRunning ∧ (s.ctx 0).faultStop = false ∧ (s.coll 0).lost = false
        ∧ (s.coll 0).weights = false ∧ (s.ctx 0).pos.inStep = false ∧ s.stepsLeft 0 = 0 ∧ (s.coll 0).pend = none ∧ ((s.modColl 0 fun k => { k with bound := .done }).coll 0).bound = .done
        ∧ s.ecc = .empty ∧ s.badSeg = .empty ∧ s.ended = [] ∧ (∀ d : CtxId, (s.coll d).repair = none))
    ∧ (let s := (tickAt busy0 tckLocked roleStandalone 5000 5).modCtx 0 fun x => { x with pos := ⟨true, 0, false⟩ }
       let s := { s with tck := { s.tck with alone := [(0, 0)] } }
       s.tickDue = true ∧ onlyB s 0 = true ∧ s.ctxState 0 = ctxRunning ∧ (s.ctx 0).pos.inStep = true ∧ (s.ctx 0).posted = false
        ∧ s.impEnded 0 = false ∧ s.slips 0 s.nextTick = true ∧ (s.ctx 0).preemptDue s.nextTick = false ∧ s.ended = []
        ∧ (s.coll 0).lost = false ∧ (s.coll 0).weights = false ∧ (∀ d : CtxId, (s.coll d).repair = none)) := by decide +kernel

/-- ImpressionsStartAndEnd: the ramp of core 0's group, a chase of two cores of which one ends, and a cutoff overrun. -/
theorem test_witness_impressions :
    (let s := (run0.modCtx 0 fun x => { x with ran := true, pos := ⟨true, 0, false⟩ }).modCore 0 fun k => { k with stopped := true }
     s.ctxState 0 = ctxRunning ∧ (s.ctx 0).ran = true ∧ (s.ctx 0).launchAt + 2 * 0 ≤ s.timeUs ∧ (s.ctx 0).forme = some forme1
      ∧ (s.ctx 0).streams = [] ∧ s.ended = [] ∧ (∀ g ∈ forme1.coreList, s.occupant g = some 0 ∧ (s.core g).act = [] ∧ (s.core g).waits = [])
      ∧ (s.core 0).restored = false ∧ (s.impRec 0).isSome = true ∧ 0 ∈ forme1.coreList)
    ∧ (let f := { forme1 with cores := [[0, 1]] }
       let s := (sets run0 [(F.CORE_RES_OCCUPIED 1, 1), (F.CORE_RES_CTX 1, 0)]).modCtx 0 fun x =>
         { x with forme := some f, pos := ⟨true, 0, false⟩ }
       s.occupant 0 = some 0 ∧ s.live 0 = true ∧ (s.ctx 0).pos.inStep = true ∧ (s.core 0).impDone = false ∧ s.coreDone 0 = true
        ∧ 1 ∈ s.chaseCoresOf 0 ∧ (s.core 1).impDone = false)
    ∧ (∀ r ∈ [roleStandalone, rolePrimary, roleStandby, roleFollower],
       let s := (tickAt (busy0.fset F.TCK_PRI_FAB_FAB 2) tckLocked r 8000 5).modCtx 0 fun x => { x with pos := ⟨true, 0, false⟩ }
       s.cutoffDue = true ∧ onlyB s 0 = true ∧ s.ctxState 0 = ctxRunning ∧ (s.ctx 0).pos.inStep = true ∧ (s.ctx 0).posted = false
        ∧ s.impEnded 0 = false ∧ (s.ctx 0).overrun = false ∧ s.evq.length + s.evFlying + 1 ≤ 4096
        ∧ (r = roleFollower → s.masters = [2])) := by decide +kernel

/-- TickUnitParametersAndStates: the ends of both fields' ranges, an announced change, both ways of enabling, disabling,
the first lost cells and the end of HOLD_MAX. -/
theorem test_witness_tickUnit :
    (∀ p ∈ [(50, 4), (10000, 32)], ∀ r ∈ [rolePrimary, roleStandalone], let s := tickAt ready0 tckLocked r 5000 5
      let w : Word := BitVec.ofNat 32 (p.1 + p.2 * 2 ^ 24)
      s.tckRole = r ∧ s.tck.change = none ∧ s.formes = [] ∧ bits w.toNat 13 0 = p.1 ∧ bits w.toNat 31 24 = p.2)
    ∧ (let s := tickAt ready0 tckLocked rolePrimary 5000 5
       let s := { s with tck := { s.tck with change := some (1, 2 ^ 14 - 1, 255) } }
       s.tickDue = true ∧ 1 ≤ s.nextTick)
    ∧ (∀ r ∈ [(0 : Nat), 1, 2, 3], let w : Word := BitVec.ofNat 32 (2 ^ 31 + r * 2 ^ 26)
       ready0.fget F.TCK_CTRL_EN = 0 ∧ bit w.toNat 31 = true ∧ bits w.toNat 27 26 = r
        ∧ (ready0.fget F.MGT_CAP_SUM_STANDALONE = 0 ∨ r = roleStandalone))
    ∧ (tickAt ready0 tckLocked rolePrimary 5000 5).fget F.TCK_CTRL_EN = 1
    ∧ (let s := { tickAt ready0 tckLocked roleStandby 0 0 with timeUs := 2 * ready0.periodUs + 1 }
       s.tckState = tckLocked ∧ s.tckRole = roleStandby ∧ s.fget F.TCK_STAT_SRC = 0
        ∧ s.tck.lastAt + 2 * s.periodUs < s.timeUs ∧ s.follows = true ∧ s.evq.length + s.evFlying + 1 ≤ 4096)
    ∧ (let s := (tickAt ready0 tckLocked roleFollower 0 0).fset F.TCK_STB_FAB_FAB 3
       let s := { s with tck := { s.tck with stbAt := 1 }, timeUs := 2 * ready0.periodUs + 1 }
       s.tckState = tckLocked ∧ s.follows = true ∧ s.fget F.TCK_STAT_SRC = 0 ∧ s.tck.lastAt + 2 * s.periodUs < s.timeUs
        ∧ s.tckRole = roleFollower ∧ s.fget F.TCK_STB_FAB_FAB ≠ 0 ∧ s.tck.stbAt ≠ 0 ∧ s.timeUs ≤ s.tck.stbAt + 2 * s.periodUs)
    ∧ (let s := { tickAt ready0 tckHoldover roleStandby 0 0 with timeUs := 1000 * ready0.fget F.TCK_HOLD_HOLD_MAX }
       s.tckState = tckHoldover ∧ s.tck.hold + 1000 * s.fget F.TCK_HOLD_HOLD_MAX ≤ s.timeUs
        ∧ s.evq.length + s.evFlying + 1 ≤ 4096) := by decide +kernel

/-- A cell from module 2 to this one with `pl` at the start of its payload. -/
def cellOf (ty tc addr valid : Nat) (pl : List Byte) : Cell :=
  ⟨ty, tc, true, 1, 2, 0, 0, valid, true, addr, pl ++ List.replicate (256 - pl.length) 0⟩

/-- `s` with the bytes of cell `c` waiting at port 0. -/
def arrived (s : State) (c : Cell) : State := (fabric s).modLink 0 fun l => { l with rxq := [c.bytes 0] }

/-- The bytes of `c` spell `c`, of type `ty`: `arrived s c` has it at its front. -/
def spellsB (c : Cell) (ty : Nat) : Bool := decide (Cell.parse (c.bytes 0) = c) && c.type == ty

theorem front_arrived {s : State} {c : Cell} {ty : Nat} (h : spellsB c ty = true) :
    (arrived s c).front 0 ty = some (c, c.bytes 0) := by
  simp only [spellsB, Bool.and_eq_true, decide_eq_true_eq, beq_iff_eq] at h
  have hq : ((arrived s c).link 0).rxq = [c.bytes 0] := by simp [arrived, State.modLink, State.link]
  simp only [State.front, hq, h.1, if_pos h.2]

/-- Everything `ControlPasses` asks of the bytes of cell `c`, checked at once; that the check value holds is
`Cell.checkPasses_bytes`. -/
def controlB (s : State) (c : Cell) : Bool :=
  s.fget F.FAB_SELF_FAB == c.dst && c.devAddr == 0 && c.seq == 0 && leAt (c.bytes 0) 276 4 == foldOf c.dst 0 0 && (Cell.parse (c.bytes 0)).ok

theorem controlB_spec {s : State} {c : Cell} (h : controlB s c = true) : ControlPasses s (c.bytes 0) := by
  simp only [controlB, Bool.and_eq_true, beq_iff_eq] at h
  have p := c.checkPasses_bytes 0
  rw [h.1.1.1.2, h.1.1.2] at p
  exact ⟨by rw [h.1.1.1.1]; exact p, by rw [h.1.1.1.1]; exact h.1.2, h.2⟩

/-- Everything `DataPasses` asks of the bytes of cell `c` with landing address `land`, checked at once. -/
def dataB (s : State) (c : Cell) (land : Nat) : Bool :=
  s.peerValid c.src && (c.resync || ((s.rxFlow c.src c.tc).resync == false && (s.rxFlow c.src c.tc).seq == c.seq)) && s.fget F.FAB_SELF_FAB == c.dst && c.devAddr == land
    && (foldOf c.dst land c.seq ^^^ leAt (c.bytes 0) 276 4) == s.rget R.FAB_MEMB_EPOCH && c.ok

theorem dataB_spec {s : State} {c : Cell} {land : Nat} (h : dataB s c land = true) : DataPasses s c (c.bytes 0) land := by
  simp only [dataB, Bool.and_eq_true, Bool.or_eq_true, beq_iff_eq] at h
  obtain ⟨⟨⟨⟨⟨hp, hr⟩, hd⟩, ha⟩, he⟩, hk⟩ := h
  have hs : (if c.resync then c.seq else (s.rxFlow c.src c.tc).seq) = c.seq := by
    split
    · rfl
    · exact (hr.resolve_left ‹_›).2
  refine ⟨hp, hr.imp_right And.left, ?_, ?_, hk⟩
  · rw [hs, hd, ← ha]; exact c.checkPasses_bytes 0
  · rw [hs, hd]; exact he

/-- TickCellsDiscipline: the closing of a list with one follower, and a follower's path measurement. -/
theorem test_witness_tickCells :
    (let s := fabric (tickAt ready0 tckLocked rolePrimary 5000 5)
     let s := { s with tck := { s.tck with followers := [(2, 0)] } }
     s.closeDue = true ∧ s.tck.followers = [(2, 0)] ∧ s.tick ≤ 0 + 64 ∧ s.tck.gather = [])
    ∧ (let s := fabric ((tickAt ready0 tckAcquiring roleStandby 0 0).fset F.TCK_PRI_FAB_FAB 2)
       s.tckState ≠ tckOff ∧ s.follows = true ∧ s.tck.delayAt = none ∧ s.masters = [2]) := by decide +kernel

/-- TickCellsDiscipline: a tick cell from the primary, an answer, and at a primary a DELAY_REQ and slip requests for an
open tick and for one that has passed. -/
theorem test_witness_tickCellsArriving :
    (∀ ty ∈ [tyTick, tyDelayResp], let c := cellOf ty 7 0 0 (leBytes 32 4)
       let s := arrived ((tickAt ready0 tckAcquiring roleStandby 0 0).fset F.TCK_PRI_FAB_FAB 2) c
       spellsB c ty = true ∧ controlB s c = true ∧ s.tckState = tckAcquiring
        ∧ s.follows = true ∧ s.fget F.TCK_STAT_SRC = 0 ∧ 2 = s.fget F.TCK_PRI_FAB_FAB ∧ s.tck.lists = []
        ∧ leAt c.payload 6 1 = 0)
    ∧ (∀ n ∈ [(0 : Nat), 5], ∀ ty ∈ [tyDelayReq, tySlipReq], ∀ role ∈ [rolePrimary, roleStandby],
       let c := cellOf ty 7 0 0 (leBytes 32 (if ty = tySlipReq then n + 3 * 2 ^ 64 else n))
       let s := arrived (tickAt ready0 tckLocked role 5000 5) c
       spellsB c ty = true ∧ controlB s c = true ∧ s.tckState ≠ tckOff
          ∧ s.tckRole = role ∧ leAt c.payload 0 6 = n ∧ (n = 0 ∨ n ≠ s.tck.closed)) := by
  decide +kernel

/-! ### The fabric ports and their links -/

/-- Port `p` of a READY module in state `st`, EN being `en`. -/
def portAt (p st en : Nat) : State :=
  sets ready0 [(F.FAB_PORT_STAT_STATE (p / 24) (p % 24), st), (F.FAB_PORT_CTRL_EN (p / 24) (p % 24), en)]

/-- PortStates (and SpareTakesEffectOnlyWhileDisabled), at the first and the last port. -/
theorem test_witness_portStates : ∀ p ∈ [(0 : Fin 48), 47],
    ((portAt p portActive 1).link p).waiting = [] ∧ (portAt p portActive 1).ended = []
    ∧ (let s := portAt p portDisabled 0
     s.fget (F.FAB_PORT_CTRL_EN (p / 24) (p % 24)) = 0 ∧ bit (0xC0000000 : Word).toNat 31 = true)
    ∧ (let s := portAt p portActive 1
       s.fget (F.FAB_PORT_CTRL_EN (p / 24) (p % 24)) = 1 ∧ bit (0 : Word).toNat 31 = false)
    ∧ (let s := { portAt p portFailed 1 with timeUs := 1000000 }.modLink p fun l => { l with retrains := 2 }
       bit (0x20000000 : Word).toNat 29 = true ∧ s.portState p = portFailed ∧ s.fget (F.FAB_PORT_CTRL_EN (p / 24) (p % 24)) = 1
        ∧ (s.link p).retrains < 3 ∧ (s.link p).failedAt + 1000000 ≤ s.timeUs)
    ∧ (∀ f ∈ [true, false], let s := { portAt p portTraining 1 with timeUs := 300000 }.modLink p fun l => { l with failedOnce := f }
       s.portState p = portTraining ∧ s.evq.length + s.evFlying + 1 ≤ 4096 ∧ (s.link p).failedAt + 300000 ≤ s.timeUs)
    ∧ (∀ v ∈ [portSpare, portHold], (portAt p v 1).portState p = v)
    ∧ (let s := portAt p portActive 1
       s.portState p = portActive ∧ (∀ q : PortId, s.portState q ≠ portSpare) ∧ (s.standsFor p).getD p < 48
        ∧ s.evq.length + s.evFlying + 2 ≤ 4096)
    ∧ (let s := { portAt p portActive 1 with timeUs := 999999 }.modLink p fun l => { l with uncMark := 2 ^ 32 }
       s.linkUp p = true ∧ s.timeUs < (s.link p).uncAt + 1000000 ∧ s.fget F.FAB_FEC_DEG_THRESH < (s.link p).uncMark
        ∧ s.lastEvent.find (0x0505 * 65536 + p) = none ∧ s.evq.length + s.evFlying + 1 ≤ 4096) := by decide +kernel

/-- PortStates: a SPARE port of the same edge die, and one of the other, where it is the only one. -/
theorem test_witness_portSubstitutes : ∀ x ∈ [((0 : Fin 48), (23 : Fin 48)), (47, 24), (0, 47), (47, 0)],
    let s := (portAt x.1 portActive 1).fset (F.FAB_PORT_STAT_STATE (x.2 / 24) (x.2 % 24)) portSpare
    s.portState x.1 = portActive ∧ s.standsFor x.1 = none ∧ s.portState x.2 = portSpare
      ∧ (s.link x.2).lostRoles.contains x.1.val = false ∧ (∀ r : PortId, s.portState r = portSpare → r = x.2) := by decide +kernel

/-- A frame in a replay buffer, sent `n` times. -/
def frame1 (n : Nat) : Frame := ⟨4095, 1, [], n, 0⟩

/-- LinkFramesAndReplay: a good frame at the highest LSEQ, one that fails, an ACK and a NAK of the oldest frame, an expiry
before and at the ninth transmission, and an ACK owed. -/
theorem test_witness_linkFrames :
    (let s := (portAt 0 portActive 1).modLink 0 fun l => { l with rxSeq := 4095, owed := 1 }
     let c := cellOf tyWrite 1 64 0 []
     s.ended = [] ∧ (c.bytes 0).length = 280 ∧ Cell.parse (c.bytes 0) = c ∧ typeOk c.type c.tc = true ∧ s.portState 0 = portActive
      ∧ (s.link 0).rxSeq < 4096 ∧ (s.link 0).waiting = [] ∧ s.linkUp 0 = true ∧ (s.link 0).nakked = false ∧ (s.link 0).owed ≠ 0)
    ∧ (∀ n ∈ [8, 9], let s := { portAt 0 portSpare 1 with timeUs := 4 }.modLink 0 fun l => { l with replay := [frame1 n] }
       (s.link 0).replay = [frame1 n] ∧ (frame1 n).lseq = (4095 : Fin 4096) ∧ (s.link 0).waiting = [] ∧ s.linkUp 0 = true
        ∧ (s.link 0).quietAt + 4 ≤ s.timeUs ∧ (n = 8 → ∀ x ∈ [frame1 n], x.tries < 9)) := by decide +kernel

/-- LinkFramesAndReplay: a frame of 288 bytes that fails its LCRC. -/
theorem test_witness_linkFrameCrc : ∃ f : List Byte, f.length = 288 ∧ crc32 (f.take 280 ++ leBytes 4 (leAt f 284 4)) ≠ leAt f 280 4 := by
  have w : ∀ n ∈ [0, 1], let f : List Byte := List.replicate 280 0 ++ leBytes 4 n ++ leBytes 4 0
      f.length = 288 ∧ f.take 280 = List.replicate 280 0 ∧ leAt f 284 4 = 0 ∧ leAt f 280 4 = n := by decide +kernel
  by_cases h : crc32 (List.replicate 280 0 ++ leBytes 4 0) = 0
  · obtain ⟨a, b, c, d⟩ := w 1 (by decide)
    exact ⟨_, a, by rw [b, c, d, h]; decide⟩
  · obtain ⟨a, b, c, d⟩ := w 0 (by decide)
    exact ⟨_, a, by rw [b, c, d]; exact h⟩

/-! ### Cells -/

/-- Bytes may be landed at `a` (`LandsClean`), checked at once. -/
def landsB (s : State) (a : Nat) : Bool :=
  decide (s.ecc = .empty) && decide (s.badSeg = .empty) && Memory.wf s.mem
    && (match place a with | .oc g => decide ((s.core g).sums = []) | _ => true)

theorem landsB_spec {s : State} {a : Nat} (h : landsB s a = true) : LandsClean s a := by
  simp only [landsB, Bool.and_eq_true, decide_eq_true_eq] at h
  refine ⟨⟨h.1.1.1, h.1.1.2⟩, h.1.2, fun g hg => ?_⟩
  have := h.2
  rw [hg] at this
  simpa using this

/-- DataCellsTakeEffect: a WRITE and a READ_REQ of 64 bytes into the window of a RUNNING context. -/
theorem test_witness_dataCells_writeRead :
    (∀ p ∈ [(true, false), (true, true), (false, false), (false, true)],
      let got : List Byte := if p.1 then [] else List.replicate 64 7
      let c := { cellOf tyWrite 1 (if p.1 then 64 else 65) 0 [] with resync := p.1, last := p.2, seq := if p.1 then 0 else 1 }
      let s := (arrived run0 c).modPeer 2 fun q => { q with rx := q.rx.set 1 ⟨1, false, none, some ⟨0, false, 4096, List.replicate 64 7⟩⟩ }
      s.ended = [] ∧ spellsB c tyWrite = true ∧ c.last = p.2 ∧ c.resync = p.1 ∧ dataB s c (4096 + got.length) = true
        ∧ (s.rxFlow c.src c.tc).req = some ⟨0, false, 4096, List.replicate 64 7⟩ ∧ s.arrival c.ctx true 4096 (got ++ c.used).length = .land
        ∧ landsB s 4096 = true ∧ (s.ctx c.ctx).streams = [])
    ∧ (let c := cellOf tyWrite 1 64 0 []
     let s := arrived run0 c
     s.ended = [] ∧ spellsB c tyWrite = true ∧ dataB s c (64 * c.addr) = true ∧ c.last = true ∧ c.resync = true
      ∧ s.arrival c.ctx true (64 * c.addr) c.used.length = .land ∧ landsB s (64 * c.addr) = true ∧ (s.ctx c.ctx).streams = [])
    ∧ (let c := cellOf tyReadReq 1 64 0 []
       let s := arrived run0 c
       let n := 64 * (leAt c.payload 6 1 % 32 + 1)
       spellsB c tyReadReq = true ∧ dataB s c (64 * c.addr) = true ∧ s.arrival c.ctx false (64 * c.addr) n = .land
        ∧ s.ecc = .empty ∧ s.badSeg = .empty) := by decide +kernel

/-- A READ request of context 0 for `n` bytes to be returned to 4096. -/
def read1 (n : Nat) : Xfer := ⟨3, 2, 1, 0, 0, .read, 8192, [], 4096, n, .pull 0 0 0 0, 9, 1, false, false, none, 0, []⟩

/-- DataCellsTakeEffect: READ_DATA that does not end its response, and READ_DATA that does. -/
theorem test_witness_dataCells_readData :
    ∀ n ∈ [(128 : Nat), 64], let c := { cellOf tyReadData 1 64 0 [] with last := n == 64 }
      let s := { arrived run0 c with xfers := [read1 n] }
      spellsB c tyReadData = true ∧ dataB s c (64 * c.addr) = true ∧ s.ctxState c.ctx = ctxRunning
      ∧ s.xfers.find? (fun x => x.kind == .read && x.fab == c.src && x.tc == c.tc && x.ctx == c.ctx
        && x.ret + x.got.length == 64 * c.addr) = some (read1 n)
      ∧ (if n = 128 then (read1 n).got.length + c.used.length < n ∧ c.last = false else n ≤ (read1 n).got.length + c.used.length)
      ∧ isMem (read1 n).ret = true ∧ s.xfeReach c.ctx true (read1 n).ret (read1 n).len = true ∧ (s.ctx 0).streams = [] ∧ Memory.wf s.mem = true := by decide +kernel

/-- DataCellsTakeEffect: an ACK of the only request, a QUPD that is new and one that has been applied. -/
theorem test_witness_dataCells_ackQupd :
    (let c := cellOf tyAck 1 0 0 (leBytes 3 9)
     let s := { arrived run0 c with xfers := [xfer1] }
     spellsB c tyAck = true ∧ dataB s c 0 = true ∧ leAt c.payload 3 1 = 0
      ∧ (s.xfers.filter fun y => y.fab == c.src && !y.busy).find? (fun y => (y.seq + y.cells - 1) % 2 ^ 24 == leAt c.payload 0 3)
        = some xfer1 ∧ xfer1.kind ≠ .read ∧ xfer1.owner = .quoin)
    ∧ (∀ u ∈ [none, some 7], let c := cellOf tyQupd 1 0 0 (leBytes 2 600 ++ leBytes 2 5 ++ leBytes 2 7)
       let s := (arrived run0 c).modPeer 2 fun p => { p with rx := p.rx.set 1 { RxFlow.new with upd := u } }
       spellsB c tyQupd = true ∧ dataB s c 0 = true ∧ s.ctxState c.ctx = ctxRunning ∧ (s.rxFlow c.src c.tc).upd = u
        ∧ leAt c.payload 4 2 = 7 ∧ leAt c.payload 0 2 % 1024 = 600 ∧ leAt c.payload 0 2 / 1024 % 4 = 0
        ∧ (s.ctx c.ctx).forme = some forme1 ∧ (forme1.quoins.any fun r => r.die == 0 && r.num == 600 && r.remote) = true) := by
  decide +kernel

/-- DataCellsTakeEffect: a cell of each data type whose source is no peer. -/
theorem test_witness_dataCells_unknown :
    ∀ ty ∈ [tyWrite, tyReadReq, tyReadData, tyAck, tyQupd, tyBucket], let c := { cellOf ty 1 0 0 [] with src := 3 }
      spellsB c ty = true ∧ (arrived run0 c).peer c.src = none := by decide +kernel

/-- The same states as `front_arrived` has them: the front of the port does not depend on anything but the links. -/
theorem front_same {s t : State} {p ty : Nat} (h : s.links = t.links) : s.front p ty = t.front p ty := by
  simp only [State.front, State.link, h]

/-- A bucket of two blocks for a ring of two members, and a forme with it in a step that has started. -/
def bdesc : BucketDesc := ⟨1, 0, 0, false, false, 0, 0, 2, 2, 0, 0x20000, 0x21000, 0x22000, 0x23000, 0, 0, 0⟩
def formeR : Forme :=
  { forme1 with slots := ⟨0x10000, 16, 0x8000, 0x8100, 0x8200, [bdesc],
                          [⟨0, 10, 0, 0, 0, 0, 3, 0⟩, ⟨0, 10, 0, 1, 0, 0, 3, 0⟩], [(0, 1), (1, 1)]⟩
                imps := [⟨10, 0, 2, true, false, 0, [0]⟩] }

/-- The imposition of the ring: this module, at rank 0, and module 2. -/
def impR : Imposition :=
  ⟨1, 0, 2, 1, false, [2, 1, 1, 1, 1], 1, 1, 1, 0, 0, [1, 2], [1, 1], [[0, 1]], [(0, 1), (1, 1)], some [], 0, [], none⟩

/-- Context 0 runs `formeR` with `impR` in force, between steps, on the fabric. -/
def ring0 : State :=
  ((fabric run0).fset (F.RDX_CTRL_EN 0) 1).modCtx 0 fun x =>
    { x with forme := some formeR, coll := { x.coll with imp := some impR, segs := [(0, 1), (1, 1)] } }

/-- A block of ones at exponent 127, and a reduce unit that carries it as block 0 of segment 0 of the bucket. -/
def block1 : Block := ⟨127, false, false, List.replicate 64 1⟩
def unit1 (phase : Nat) : RUnit := ⟨bucketTag 0 1 0 0 0, 0, 0, 1, 2 * phase, Trailer.zero, [1], [block1]⟩

/-- DataCellsTakeEffect: a BUCKET unit that Table 9-7 admits into the first staging frame. -/
theorem test_witness_dataCells_bucket :
    let c := cellOf tyBucket 4 (0x10000 / 64) 3 (unit1 0).bytes
    let s := (arrived ring0 c)
    spellsB c tyBucket = true ∧ dataB s c (64 * c.addr) = true ∧ c.last = true ∧ c.resync = true ∧ s.ctxState c.ctx = ctxRunning
      ∧ s.inStaging c.ctx (64 * c.addr) = true ∧ RUnit.parse c.used = some (unit1 0)
      ∧ (s.lay c.ctx (bits (unit1 0).tag 27 12) (bits (unit1 0).tag 59 44)) = some ⟨bdesc, [1, 2], 0, [(0, 1), (1, 1)]⟩
      ∧ (unit1 0).tag / 2 ^ 60 = c.ctx ∧ bits (unit1 0).tag 43 28 = (s.ctx c.ctx).step % 65536
      ∧ (unit1 0).tag % 4096 < Lay.segCount ⟨bdesc, [1, 2], 0, [(0, 1), (1, 1)]⟩ ∧ (unit1 0).dir = 0
      ∧ Lay.span ⟨bdesc, [1, 2], 0, [(0, 1), (1, 1)]⟩ 0 0 = (0, 1) ∧ (unit1 0).first + (unit1 0).n ≤ 0 + 1 ∧ (unit1 0).phase = 0
      ∧ Lay.inRange ⟨bdesc, [1, 2], 0, [(0, 1), (1, 1)]⟩ (unit1 0) = true
      ∧ (∀ f ∈ (s.coll c.ctx).frames, f.addr ≠ 64 * c.addr) ∧ landsB s (64 * c.addr) = true := by decide +kernel

/-! ### Membership and the planes -/

/-- Part `p` of the manager's membership of epoch 5, adding peers 1 and 2; it is the last where `p` = `n` - 1. -/
def membPl (p n : Nat) : List Byte :=
  leBytes 4 5 ++ leBytes 1 p ++ leBytes 1 (if p + 1 = n then 0 else 1) ++ leBytes 1 0 ++ leBytes 1 2 ++ List.replicate 120 0 ++ leBytes 3 1
    ++ leBytes 3 2

/-- MembershipAndRoutes: the first and the last routing entry need no hypothesis; a membership, and LEAVING. -/
theorem test_witness_membership :
    (∀ n ∈ [(1 : Nat), 2], ∀ keep ∈ [true, false], let c := cellOf tyMembership 7 0 3 (membPl (n - 1) n)
     let s := arrived (sets ready0 [(F.FAB_MGR_VALID, 1), (F.FAB_MGR_FAB, 2)]) c
     let s := { s with
       parts := if keep then [⟨5, 0, n == 2, [3], [2]⟩] else []
       peers := [Peer.new 2, { Peer.new 3 with st := .left }, { Peer.new 4 with st := .left }] }
     let m : MembPart := ⟨5, n - 1, false, fabList c.payload 8 (leAt c.payload 6 1), fabList c.payload 128 (leAt c.payload 7 1)⟩
     let parts := s.parts.filter (fun x => !(x.epoch == 5 && x.part == n - 1)) ++ [m]
     controlB s c = true ∧ s.ended = [] ∧ s.xfers = [] ∧ spellsB c tyMembership = true ∧ s.fget F.FAB_MGR_VALID = 1
      ∧ c.src = s.fget F.FAB_MGR_FAB ∧ s.rget R.FAB_MEMB_EPOCH < leAt c.payload 0 4 ∧ leAt c.payload 0 4 = 5
      ∧ leAt c.payload 4 1 = n - 1 ∧ bit (leAt c.payload 5 1) 0 = false ∧ s.evq.length + s.evFlying + 2 ≤ 4096
      ∧ (∀ d : CtxId, (s.ctx d).streams = [])
      ∧ (wholeParts parts 5 16 0).isSome = (n == 1 || keep)
      ∧ m.added.contains 2 = true ∧ m.added.contains (s.fget F.FAB_SELF_FAB) = true)
    ∧ (let c := cellOf tyLeaving 7 0 0 (leBytes 5 (2 ^ 32))
       let s := arrived ready0 c
       controlB s c = true ∧ spellsB c tyLeaving = true ∧ s.ended = [] ∧ s.xfers = [] ∧ s.evq.length + s.evFlying + 1 ≤ 4096 ∧ (∀ d : CtxId, (s.ctx d).streams = [])) := by decide +kernel

/-- PlanesGoDownAndReturn. -/
theorem test_witness_planes :
    (∀ m : MgcId, let s := ready0.fset F.MGT_PLANE_STAT_MGC_ALIVE 15
      bit (s.fget F.MGT_PLANE_STAT_MGC_ALIVE) m = true ∧ s.phase = .ready ∧ s.fget F.MGT_PLANE_STAT_CTRL_DOWN = 0
        ∧ s.fget F.MGT_PLANE_STAT_MGMT_DOWN = 0)
    ∧ (let s := ready0.fset F.MGT_PLANE_STAT_MGC_ALIVE 3
       let k := cmdOf 3 [] .waitCores
       let t := ctxAt ctxIdle k
       s.running = true ∧ (t.ring 0 0).cur = some k ∧ k.stage = .waitCores ∧ transientState (t.ctxState 0) = false
        ∧ s.fget F.MGT_PLANE_STAT_MGC_ALIVE / 4 = 0 ∧ s.fget F.MGT_PLANE_STAT_MGC_ALIVE % 4 ≠ 0 ∧ s.fget F.MGT_PLANE_STAT_MGMT_DOWN = 0 ∧ s.evq.length + s.evFlying + 1 ≤ 4096)
    ∧ (∀ t ∈ [99999, 100000], let k := cmdOf 4 [] .heldMgmt
       let s := { (ctxAt ctxRunning k).fset F.MGT_PLANE_STAT_MGMT_DOWN 1 with timeUs := t }
       s.fget F.MGT_PLANE_STAT_MGMT_DOWN = 1 ∧ (s.ring 0 0).cur = some k ∧ k.stage = .heldMgmt
        ∧ (if t = 100000 then k.since + 100000 ≤ s.timeUs else s.timeUs < k.since + 100000))
    ∧ (let s := { ready0 with timeUs := 1000 * ready0.fget F.MGT_HANG_CTRL_HB_PERIOD_MS }
       s.running = true ∧ s.fget F.MGT_PLANE_STAT_MGMT_DOWN = 0 ∧ s.hpt.hbAt + 1000 * s.fget F.MGT_HANG_CTRL_HB_PERIOD_MS ≤ s.timeUs
        ∧ s.pausedAt 7 = false ∧ s.hpt.held = []) := by decide +kernel

/-! ### Hang detection, resets and the colophon -/

/-- `s` a second of every limit later. -/
def later (s : State) : State := { s with timeUs := 1000000000 }

/-- Everything `MayDetect` asks, checked at once. -/
def detectsB (s : State) : Bool :=
  s.running && decide (s.rst.running = []) && decide (s.rst.capture = none) && s.captureSlot.isSome
    && decide (s.ended = []) && decide (s.evq.length + s.evFlying + 1 ≤ 4096)
    && (List.finRange 8).all fun c => decide (s.ctxState c ≠ ctxMigrating)

theorem detectsB_spec {s : State} (h : detectsB s = true) : MayDetect s := by
  simp only [detectsB, Bool.and_eq_true, decide_eq_true_eq] at h
  have m := fun c => of_decide_eq_true (List.all_eq_true.mp h.2 c (List.mem_finRange c))
  exact ⟨h.1.1.1.1.1.1, h.1.1.1.1.1.2, h.1.1.1.1.2, h.1.1.1.2, h.1.1.2, h.1.2, fun c hc => absurd hc (m c)⟩

/-- A request held by the transfer engine since 0. -/
def held0 : Slot := ⟨⟨0, .copy, lsBase 0, 4096, 64, 5 * 512, 0x20000⟩, false, 0, 0, [], 0, [], some 0⟩
/-- The same from core 0 to edge die 1, over the bank of device 8 there. -/
def held1 : Slot := { held0 with req := { held0.req with dst := lpxBase + lpxEdge, bank := 0x10000 + 16 * 8 } }
def fill0 : Refetch := ⟨false, 0, ⟨0, 0, 511, 1, false, 0⟩, false, 0⟩

/-- A VXE instruction that has begun. -/
def begun : State := run0.modCore 0 fun k => { k with vq := [addE] }

/-- DetectorsBeginCaptures, on a core: the matrix engine, the transfer engine, a thread, a request and a generation. -/
theorem test_witness_detectors_core :
    (let s := later (run0.modCore 0 fun k => { k with tiles := [tile1 []], slots := [held0] })
     detectsB s = true ∧ s.engineHung 0 0 = true ∧ s.engineHung 0 2 = true ∧ (later begun).engineHung 0 1 = true
      ∧ detectsB (later begun) = true
      ∧ ((s.core 0).slots ++ (s.core 0).waits)[0]? = some held0
      ∧ held0.issued + 1000 * s.fget F.MGT_HANG_CTRL_XFER_TO_MS ≤ s.timeUs ∧ s.live 0 = true ∧ held0.req.kind = .copy
      ∧ (∀ b ∈ [held0.req.bank, held0.req.bank2], b < 0x20000 → b < 0x10000 ∧ b / 512 / 3 = 1))
    ∧ (let x : Slot := { held0 with req := { held0.req with bank := 0, bank2 := 6143 } }
       let s := later (run0.modCore 0 fun k => { k with slots := [x] })
       detectsB s = true ∧ ((s.core 0).slots ++ (s.core 0).waits)[0]? = some x ∧ s.live 0 = true
        ∧ x.issued + 1000 * s.fget F.MGT_HANG_CTRL_XFER_TO_MS ≤ s.timeUs ∧ x.req.bank / 512 / 3 = 0 ∧ x.req.bank2 / 512 / 3 = 3)
    ∧ (let s := later (prog [ctcW 1 1 2 3 0] [])
       detectsB s = true ∧ s.live 0 = true ∧ s.thrCode 0 0 = 1
        ∧ (s.core 0).thrAt.getD 0 0 + 1000 * s.fget F.MGT_HANG_CTRL_ENG_WDOG_MS ≤ s.timeUs)
    ∧ (let s := later (run0.modCore 0 fun k => { k with refetch := [fill0], quoin := k.quoin.set 511 1 })
       detectsB s = true ∧ s.occupant 0 = some 0 ∧ s.live 0 = true ∧ fill0 ∈ (s.core 0).refetch ∧ s.quoin 0 fill0.fill.gq % 2 = 1
        ∧ fill0.since + 1000 * s.fget F.MGT_HANG_CTRL_XFER_TO_MS ≤ s.timeUs) := by decide +kernel

/-- DetectorsBeginCaptures, on a context and on the module. -/
theorem test_witness_detectors_module :
    (let s := run0.modCtx 0 fun x => { x with slipTicks := 100000000 }
     detectsB s = true ∧ s.ctxState 0 = ctxRunning ∧ (s.ctx 0).faultStop = false ∧ s.evq.length + s.evFlying + 2 ≤ 4096
      ∧ 1000 * s.fget F.TCK_OVR_LIMIT_LIMIT_MS < (s.ctx 0).slipTicks * s.periodUs)
    ∧ (let s := later ((run0.fset (F.CTX_STAT_STATE 0) ctxTearing).modCtx 0 fun x => { x with tearing := some 0 })
       detectsB s = true ∧ s.ctxState 0 = ctxTearing ∧ (s.ctx 0).tearing = some 0 ∧ s.occupied 0 = [0]
        ∧ 0 + 300 ≤ s.timeUs)
    ∧ (let s := later (run0.modCore 0 fun k => { k with slots := [held1] })
       detectsB s = true ∧ s.countWarm.2 = .warm ∧ ((s.core 0).slots ++ (s.core 0).waits)[0]? = some held1 ∧ s.live 0 = true
        ∧ held1.issued + 1000 * s.fget F.MGT_HANG_CTRL_XFER_TO_MS ≤ s.timeUs ∧ 0x10000 ≤ held1.req.bank ∧ held1.req.bank < 0x20000
        ∧ s.edgeEngineHung 14 (1000 * s.fget F.MGT_HANG_CTRL_ENG_WDOG_MS) = true ∧ s.bridgeStalled 1 = true)
    ∧ (let s := later (ready0.fset F.MGT_PLANE_STAT_MGC_ALIVE 0xC)
       detectsB s = true ∧ s.countWarm.2 = .warm ∧ s.phase ≠ .recovering ∧ s.fget F.MGT_PLANE_STAT_MGC_ALIVE % 4 = 0
        ∧ s.fget F.MGT_PLANE_STAT_MGC_ALIVE / 4 ≠ 0 ∧ s.fget F.MGT_PLANE_STAT_MGMT_DOWN = 0 ∧ s.fget F.MGT_PLANE_STAT_CTRL_DOWN = 0)
    ∧ (let s := later (ready0.fset F.MGT_PLANE_STAT_MGC_ALIVE 0)
       detectsB s = true ∧ s.countWarm.2 = .warm ∧ s.fget F.MGT_PLANE_STAT_MGC_ALIVE = 0
        ∧ s.rst.silentAt + 990000 ≤ s.timeUs) := by decide +kernel

/-- A capture of one full record, waiting for slot 0, that is to apply `act`. -/
def capOf (act : ResetAct) : Capture Event Snap := ⟨act, { col1 with sectMask := 0 }, some 0, 0⟩

/-- CapturesEndAndResetsApply: the end of a capture that leaves a teardown to go on, and of one that resets a core. -/
theorem test_witness_captures :
    ∀ a ∈ [ResetAct.ctxDown 0, .core 127], let s := { ready0 with rst := { ready0.rst with capture := some (capOf a) }, timeUs := 10 }
      s.rst.capture = some (capOf a) ∧ (capOf a).since + 10 ≤ s.timeUs ∧ (capOf a).record.unreach = [] ∧ s.rst.ram.length = 4
        ∧ (capOf a).record.full = true ∧ s.rst.waiting = [] ∧ s.rst.running = [] ∧ s.ended = [] ∧ s.evq.length + s.evFlying + 2 ≤ 4096
        ∧ s.occupant 127 = none := by decide +kernel

/-- The public keys 2G and 3G (R414), and the flash image that they sign: a 1,024-byte header over 3,072 bytes of zeros.
The digests and signatures were computed outside the model. -/
def key2 : List Byte := leBytes 96 0x8e80f1fa5b1b3cedb7bfe8dffd6dba74b275d875bc6cc43e904e505f256ab4255ffd43e94d39e22d61501e700a940e8008d999057ba3d2d969260045c55b97f089025959a6f434d651d207d19fb96e9e4fe0e86ebe0e64f85b96a9c75295df61
def key3 : List Byte := leBytes 96 0xc995f7ca0b0c42837d0bbe9602a9fc998520b41c85115aa5f7684c0edc111eacc24abd6be4b5d298b65f28600a2f1df1077a41d4606ffa1464793c7e5fdc7d98cb9d3910202dcd06bea4f240d3566da6b408bbae5026580d02d7e5c70500c831
def bootImage : List Byte :=
  leBytes 4 0x4946574B ++ leBytes 2 1 ++ leBytes 2 1024 ++ leBytes 4 4096 ++ leBytes 4 0x4B081536 ++ leBytes 16 0
    ++ leBytes 48 0xfefd6bfeed2b63da119cecbe6e2aa314f4b3d09645783554319a356daecf085abb5d71b6e338d8cb408b3073ba121f60 ++ leBytes 176 0 ++ key2 ++ key3 ++ leBytes 32 0
    ++ leBytes 96 0x1f51ebcb964b1bb8d5084fd202520625418b0b46d2aafc882ebbef255a0085065d772f652da4685321ae8ec40034d15fd8a17e55b8e2f47bc369fd9616695ce273dce4e307830a65f5a4a9aa8967c987aeea7ad365677a13bfd65c3fe5a66939 ++ leBytes 96 0xe18f926589aa3ac24e7c4f3a0c3d83014130a1ee3c0fc51acbc1e853fb58e9eb6cbafb04d51d477b35bfbf727861410fd8a17e55b8e2f47bc369fd9616695ce273dce4e307830a65f5a4a9aa8967c987aeea7ad365677a13bfd65c3fe5a66939 ++ leBytes 3424 0

/-- `s` with that image, and the digest of 2G fused. -/
def booting (s : State) : State :=
  { s with sec := { s.sec with image := bootImage, rootHash0 := leBytes 48 0x2f36c54ae57e5b52122d6b4d22a1c499c976de806b4d41f9e8d67c002139e408454b51139b79e321e99e9b999a12577 } }

/-- ResetsAreOrderedAndEnd. -/
theorem test_witness_resets :
    (let s := { ready0 with rst := { ready0.rst with running := [(.core 5, 0)] } }
     s.rst.running = [(.core 5, s.timeUs)] ∧ s.rst.capture = none)
    ∧ (let s := { ready0 with rst := { ready0.rst with running := [(.die 3, 7)] } }
       s.rst.running = [(.die 3, 7)] ∧ s.pwr.tripped.contains 3 = false
        ∧ (∀ b ∈ [(0 : BitVec 4), 1, 2, 3, 15], ((b.getLsbD 0 || b.getLsbD 1) && !(bit (s.fget (F.MGT_CAP_DIE_BRIDGES 3)) 0 && !b.getLsbD 0)
          && !(bit (s.fget (F.MGT_CAP_DIE_BRIDGES 3)) 1 && !b.getLsbD 1)) = decide (b = 3 ∨ b = 15)))
    ∧ (let s := { ready0 with rst := { ready0.rst with running := [(.core 5, 0)] }, timeUs := 1000 }
       s.rst.running = [(.core 5, 0)] ∧ 0 + 1000 ≤ s.timeUs ∧ s.captureSlot.isSome = true ∧ s.ended = []
        ∧ s.rst.capture = none ∧ (∀ c : CtxId, s.ctxState c ≠ ctxMigrating) ∧ s.evq.length + s.evFlying + 1 ≤ 4096)
    ∧ (∀ ph ∈ [Phase.resetting, .recovering], let s := { ready0 with phase := ph, timeUs := 6000000 }
       s.phase = ph ∧ s.rst.capture = none ∧ s.rst.decided + 6000000 ≤ s.timeUs ∧ s.countRestart.countWarm.2 = .warm)
    ∧ (let w : Word := 0x574B0001
       bits w.toNat 31 16 = 0x574B ∧ bit w.toNat 0 = true ∧ bit w.toNat 1 = false ∧ bit w.toNat 2 = false
        ∧ ready0.phase = .ready ∧ { ready0 with phase := .starting }.countWarm.2 = .warm ∧ ready0.rst.capture = none ∧ ready0.countWarm.2 = .warm ∧ ready0.running = true) := by
  decide +kernel

/-- ResetsAreOrderedAndEnd: the heartbeat and the end of a recovery with every unit reporting ready, the boot ROM's checks passing
on the signed image (R409) and failing on an empty one. -/
theorem test_witness_warmRecoveryDone :
    ∀ ph ∈ [Phase.resetting, .recovering], let s := { ready0 with phase := ph }
    s.phase = ph ∧ s.rst.capture = none ∧ s.bootCheck ≠ 0 ∧ (booting s).bootCheck = 0 ∧ (booting s).rst.capture = none
      ∧ (booting s).evq.length + (booting s).evFlying + 1 ≤ 4096
      ∧ ((booting s).warmStart.reportUnits [] [3000, 3000, 3000, 3000]).serviceable = true := by decide +kernel

/-- A module with a record in slot 3 whose energy was last measured at `m` - 1, and a bank of capacitance 1, measured. -/
def colAt (sum m : Nat) : State :=
  let s := sets ready0 [(F.PWR_HOLDUP_CAP, 1), (F.COL_STAT_SUM_DONE, sum)]
  { s with
    rst := { s.rst with ram := [none, none, none, some col1], measuredAt := [0, 0, 0, m], capAt := 1 }
    pwr := { s.pwr with mgt := true }, timeUs := 60000000 }

/-- ColophonsPersist: every number of tenths of a joule up to 200 can be measured. -/
theorem test_witness_energies (n : Nat) (h : n ≤ 200) (sum m : Nat) (c : (colAt sum m).fget F.PWR_HOLDUP_CAP = 1) :
    ∃ mv, (colAt sum m).holdupE mv = n := by
  have v := Config.holdupMinMv.isLt
  generalize he : Config.holdupMinMv.toNat = m0 at v
  let q := m0 * m0 + n * 2000000000
  have a := Nat.sqrt_le q
  have b := Nat.lt_succ_sqrt q
  refine ⟨Nat.sqrt q + 1, ?_⟩
  have hs : Nat.sqrt q ≤ 1000000 := by
    have : q < 1000001 * 1000001 := by
      have : m0 * m0 ≤ 65535 * 65535 := Nat.mul_le_mul (by omega) (by omega)
      simp only [q]; omega
    exact Nat.le_of_lt_succ (Nat.sqrt_lt.mpr this)
  have e : (Nat.sqrt q + 1) * (Nat.sqrt q + 1) = Nat.sqrt q * Nat.sqrt q + 2 * Nat.sqrt q + 1 := by ring
  simp only [State.holdupE, bankSpan, c, he, one_mul]
  simp only [Nat.succ_eq_add_one] at b
  generalize Nat.sqrt q * Nat.sqrt q = z at *
  have : (Nat.sqrt q + 1) * (Nat.sqrt q + 1) - m0 * m0 = n * 2000000000 + (z + 2 * Nat.sqrt q + 1 - q) := by
    simp only [q] at *; omega
  rw [this]
  have : z + 2 * Nat.sqrt q + 1 - q ≤ 2 * 1000000 + 1 := by omega
  omega

/-- ColophonsPersist: a first measurement and a repeated one, before and after a summary, with the energies on both sides of
1.5 J and 12 J. -/
theorem test_witness_colophons :
    (∀ sum ∈ [(0 : Nat), 8], ∀ m ∈ [(0 : Nat), 1], let s := colAt sum m
      s.rst.ram.getD 3 none = some col1 ∧ col1.full = true ∧ s.rst.flash.length = 32 ∧ s.rst.measuredAt.length = 4
        ∧ s.mayPersist = true ∧ s.phase ≠ .off ∧ s.rst.persist = none ∧ s.pendingSlots = [3] ∧ s.evq.length + s.evFlying + 1 ≤ 4096
        ∧ s.fget F.PWR_HOLDUP_CAP = 1 ∧ bit (s.fget F.COL_STAT_SUM_DONE) 3 = (sum == 8)
        ∧ (m = 0 → s.pendingSlots.find? (fun j => s.rst.measuredAt.getD j 0 == 0) = some 3)
        ∧ (m = 1 → s.rst.measuredAt.getD 3 0 ≠ 0 ∧ s.rst.measuredAt.getD 3 0 + 60000000 ≤ s.timeUs + 1))
    ∧ ready0.rst.capAt = 0 ∧ (colAt 0 0).pwr.mgt = true := by decide +kernel
theorem test_witness_energyBounds : ∀ n ∈ [14, 15, 119, 120], ∀ sum ∈ [(0 : Nat), 8], ∀ m ∈ [(0 : Nat), 1],
    ∃ mv, (colAt sum m).holdupE mv = n := by
  intro n hn sum hs m hm
  refine test_witness_energies n ?_ sum m ?_
  · revert n; decide
  · revert sum m; decide +kernel

/-- ColophonsPersist: the end of a persist, in service and after the input has failed; and of one whose energy was to be measured
again, where it covers every number of bytes, and where it does not cover `left` of them. -/
theorem test_witness_persistEnds :
    (∀ full ∈ [true, false], ∀ ph ∈ [Phase.ready, .off], let s := { colAt 0 1 with phase := ph }
      let s := { s with
        rst := { s.rst with persist := some ⟨3, 31, full, false⟩, flash := listSet s.rst.flash 31 (some ⟨col1, false, false⟩) }
        pwr := { s.pwr with bad := ph == Phase.off, pins := [⟨true, none, [], 0, true, false⟩, .low, .low] } }
      s.mayPersist = true ∧ (s.phase ≠ .off ∨ s.pwr.bad = true ∧ s.pwr.byPin = false ∧ s.level 0 = true)
        ∧ s.rst.persist = some ⟨3, 31, full, false⟩ ∧ s.rst.flash.getD 31 none = some ⟨col1, false, false⟩
        ∧ s.rst.flash.length = 32 ∧ s.evq.length + s.evFlying + 1 ≤ 4096)
    ∧ (let s := { colAt 0 1 with phase := .off }
       let s := { s with
         rst := { s.rst with persist := some ⟨3, 31, true, true⟩, flash := listSet s.rst.flash 31 (some ⟨col1, false, false⟩) }
         pwr := { s.pwr with bad := true, pins := [⟨true, none, [], 0, true, false⟩, .low, .low] } }
       s.mayPersist = true ∧ s.phase = .off ∧ s.pwr.bad = true ∧ s.pwr.byPin = false ∧ s.level 0 = true
        ∧ s.rst.persist = some ⟨3, 31, true, true⟩ ∧ s.rst.flash.getD 31 none = some ⟨col1, false, false⟩
        ∧ s.rst.ram.getD 3 none = some col1) := by decide +kernel
theorem test_witness_persistCovers (c : (colAt 0 1).fget F.PWR_HOLDUP_CAP = 1) :
    (∃ mv, ∀ left ≤ 0x100000, (colAt 0 1).holdupCovers mv left = true)
    ∧ ∃ mv, 15 ≤ (colAt 0 1).holdupE mv ∧ ∀ left ≤ 0x100000, 0x30000 ≤ left → (colAt 0 1).holdupCovers mv left = false := by
  obtain ⟨a, ha⟩ := test_witness_energies 121 (by decide) 0 1 c
  obtain ⟨b, hb⟩ := test_witness_energies 15 (by decide) 0 1 c
  simp only [State.holdupE, State.holdupCovers, c, one_mul, decide_eq_true_eq, decide_eq_false_iff_not] at *
  exact ⟨⟨a, fun l hl => by omega⟩, b, by omega, fun l _ hl => by omega⟩

/-! ### Start-up and trust -/

/-- A step of network recovery. -/
def netAt (st : NetStep) (blk : Nat) : State :=
  { ready0 with phase := .network, sec := { ready0.sec with net := some ⟨st, 1000, 0, 0x123456, [1], [], blk, 1, 0, [], [], 0⟩ }
                timeUs := 10000000 }

/-- An Advertise of that transaction with a server identifier of one byte (option 2). -/
def advertise : List Byte := [2, 0x12, 0x34, 0x56, 0, 2, 0, 1, 9]

/-- StartAndNetworkRecovery. -/
theorem test_witness_start :
    (State.reset.phase = .off ∧ State.reset.pwr.mgt = false ∧ State.reset.pwr.bad = false ∧ State.reset.pwr.pins.length = 3
      ∧ State.reset.pin 0 = .low)
    ∧ (let s := { ready0 with phase := .starting }
       s.rst.capture = none ∧ (s.reportUnits [176] [1000]).serviceable = true ∧ (s.reportUnits [176] [1000]).evq.length + (s.reportUnits [176] [1000]).evFlying + 2 ≤ 4096)
    ∧ (let s := netAt .solicit 0
       let n : Net := ⟨.solicit, 1000, 0, 0x123456, [1], [], 0, 1, 0, [], [], 0⟩
       s.netAt .solicit = some n ∧ beNat (advertise.take 1) = 2 ∧ beNat (slice advertise 1 3) = n.xid
        ∧ dhcpFind 2 (advertise.length + 1) (advertise.drop 4) = some [9] ∧ n.since + 900 * n.interval ≤ s.timeUs)
    ∧ (∀ st ∈ [NetStep.readReq, .data, .retry], let s := netAt st 1024
       s.netAt st = some ⟨st, 1000, 0, 0x123456, [1], [], 1024, 1, 0, [], [], 0⟩ ∧ 0 + 10000000 ≤ s.timeUs) := by decide +kernel

/-- The signatures of the records of KeyRecordsApply, by OP, under the owner key 2G. -/
def keySigs : List Nat :=
  [0, 0x2904adc096fe093e43d13644764391de1da6b33e74613bb0fed695bda24032ed4d6ba4251f1cbac9fffbf5cfd1f9d05dd8a17e55b8e2f47bc369fd9616695ce273dce4e307830a65f5a4a9aa8967c987aeea7ad365677a13bfd65c3fe5a66939, 0x11ae9ab8d38ce57c1c82d0fab1d5bbf336959be9393b36664c3a12d2c4b0787aaf63ce2e2874f9e6392afa741faf8955d8a17e55b8e2f47bc369fd9616695ce273dce4e307830a65f5a4a9aa8967c987aeea7ad365677a13bfd65c3fe5a66939,
    0x4bde0694babe7c540b54cf257addd22610f2c9bd11eded55071704252f12dfeb9526a906e90dc2370e34c552bf68e288d8a17e55b8e2f47bc369fd9616695ce273dce4e307830a65f5a4a9aa8967c987aeea7ad365677a13bfd65c3fe5a66939, 0x541679bb2d79d67f812ba54c16598b401d8c3380213593d4f6558c6883689f63e9647812bee69cffa60438858eb5df1ad8a17e55b8e2f47bc369fd9616695ce273dce4e307830a65f5a4a9aa8967c987aeea7ad365677a13bfd65c3fe5a66939,
    0x615292588f926eaecf73c956597396531af6abceebf2bdbeab5e217fa5dc46c80dcf34e724ce488513d3c8cf16145a71d8a17e55b8e2f47bc369fd9616695ce273dce4e307830a65f5a4a9aa8967c987aeea7ad365677a13bfd65c3fe5a66939]

/-- The submitted record of operation `op`, with the sequence number 1. -/
def keyRec (op : Nat) : List Byte :=
  leBytes 4 0x5246574B ++ leBytes 4 1 ++ leBytes 8 op ++ (if op = 1 ∨ op = 5 then key2 else leBytes 96 0) ++ leBytes 16 0
    ++ leBytes 96 (keySigs.getD op 0) ++ leBytes 32 0

def keyState (op : Nat) (owner : Option (List Byte)) : State :=
  let s := (List.range 64).foldl (fun s i => s.rset (R.SEC_KEYREC i) (leAt (keyRec op) (4 * i) 4)) ready0
  { s with sec := { s.sec with ownerKey := owner } }

/-- KeyRecordsApply: each operation accepted, SET_OWNER under its own key, and each refused under another owner key. -/
theorem test_witness_keyRecords_accepted : ∀ op ∈ [(1 : Nat), 2, 3, 4, 5],
    let s := keyState op (if op = 5 then none else some key2)
    s.running = true ∧ leAt s.keyRecord 8 1 = op ∧ s.keyRecordOk s.keyRecord = true := by decide +kernel
theorem test_witness_keyRecords_refused : ∀ op ∈ [(1 : Nat), 2, 3, 4, 5], let s := keyState op (some [])
    s.running = true ∧ leAt s.keyRecord 8 1 = op ∧ s.keyRecordOk s.keyRecord = false ∧ s.evq.length + s.evFlying + 1 ≤ 4096 := by
  decide +kernel

/-! ### Power, thermal and pins -/

/-- A READY module whose inputs have the levels `l` (bit i for input i), all steady. -/
def pinsAt (ph : Phase) (l : Nat) : State :=
  let s := sets ready0 [(F.PWR_PIN_STAT_LEVEL, l)]
  { s with phase := ph, pwr := { s.pwr with mgt := true, pgood := true, pins := (List.range 3).map fun i => ⟨bit l i, none, [], 0, bit l i, false⟩ } }

/-- InputsAndPins: the inputs and their accepted changes. -/
theorem test_witness_inputs :
    (let s := pinsAt .ready 7
     s.pwr.pins.length = 3 ∧ s.phase = .ready ∧ s.level 0 = true ∧ s.pwr.bad = false ∧ s.pwr.byPin = false ∧ s.evq.length + s.evFlying + 1 ≤ 4096
      ∧ (∀ i : Fin 3, s.pin i = ⟨true, none, [], 0, true, false⟩ ∧ s.level i = true ∧ s.pinFaulty i = false)
      ∧ bit (s.fget F.MGT_CAP_SUM_CD_PRESENT) 3 = true ∧ s.pwr.tripped.contains 3 = false)
    ∧ (let s := pinsAt .off 1
       let s := { s with pwr := { s.pwr with bad := true } }
       s.pwr.bad = true ∧ s.phase = .off ∧ s.persistDue = false ∧ { s with rst := { s.rst with persist := some ⟨0, 0, true, true⟩ } }.persistDue = true
        ∧ s.pwr.byPin = false ∧ s.level 0 = true ∧ s.level 1 = false ∧ s.pwr.mgt = true)
    ∧ (let s := pinsAt .held 1
       s.pin 1 = ⟨false, none, [], 0, false, false⟩ ∧ s.level 1 = false ∧ s.pinFaulty 1 = false)
    ∧ (let s := pinsAt .ready 3
       s.pin 2 = ⟨false, none, [], 0, false, false⟩ ∧ s.level 2 = false ∧ s.pinFaulty 2 = false)
    ∧ (let s := { (pinsAt .ready 3).fset F.PWR_STAT_THROTTLED 1 with timeUs := 10000000 }
       s.running = true ∧ s.fget F.PWR_STAT_THROTTLED = 1 ∧ s.pwr.throttleTold = false ∧ s.pwr.throttleAt + 10000000 ≤ s.timeUs) := by
  decide +kernel

/-- InputsAndPins: the end of a window, a change within one, the change after the thousandth, and a faulty input that has been
steady. -/
theorem test_witness_pinWindows :
    (∀ t ∈ [(5 : Nat), 6], let s := { pinsAt .ready 7 with timeUs := 5 }
      let s := s.setPin 2 ⟨true, some t, [], 0, true, false⟩
      (s.pin 2).window = some t ∧ s.ended = [] ∧ (s.pin 2).level = s.level 2
        ∧ ((s.pin 2).changes.filter fun x => decide (s.timeUs < x + 1000000)).length < 1000 ∧ (t = 6 → s.timeUs < t))
    ∧ (∀ p ∈ [((0 : Fin 3), (7 : Nat)), (1, 7), (2, 3)],
       let s := { pinsAt .ready p.2 with timeUs := 5 }
       let s := s.setPin p.1 ⟨true, some 6, List.replicate 1000 5, 0, bit p.2 p.1, false⟩
       (s.pin p.1).window = some 6 ∧ s.timeUs < 6 ∧ ((s.pin p.1).changes.filter fun x => decide (s.timeUs < x + 1000000)).length = 1000
        ∧ s.pinFaulty p.1 = false ∧ (p.1.val = 1 → s.level 1 = true) ∧ (p.1.val = 2 → s.level 2 = false) ∧ s.ended = []
        ∧ s.evq.length + s.evFlying + 1 ≤ 4096 ∧ s.pwr.pins.length = 3)
    ∧ (let s := { (pinsAt .ready 7).setPin 2 ⟨true, none, [], 0, true, true⟩ with timeUs := 10000000 }
       s.ended = [] ∧ s.pinFaulty 2 = true ∧ (s.pin 2).lastAt + 10000000 ≤ s.timeUs ∧ (s.pin 2).level = s.level 2) := by decide +kernel

/-- PowerAndThermalControl: caps at both ends of the range, a requested cap, a step of the power manager, the limiter, the
floors of one busy die, and cool samples. -/
theorem test_witness_power :
    (∀ w ∈ [1800, 3600], Legal.capStep.ok (bits (BitVec.ofNat 32 w : Word).toNat 15 0) = true)
    ∧ (let s := { ready0 with pwr := { ready0.pwr with capAt := some 0 }, timeUs := 1000 }
       s.phase = .ready ∧ s.running = true ∧ s.pwr.capAt ≠ none ∧ s.evq.length + s.evFlying + 1 ≤ 4096 ∧ s.fget F.MGT_PLANE_STAT_MGMT_DOWN = 0
        ∧ s.pwr.stepAt + 1000 ≤ s.timeUs ∧ bit (s.fget F.MGT_CAP_SUM_CD_PRESENT) 3 = true ∧ s.pwr.tripped.contains 3 = false
        ∧ s.fget F.PWR_STAT_THROTTLED = 0 ∧ s.floorMhz 3 ≤ 3000 ∧ s.pwr.thermAt + 100 ≤ s.timeUs ∧ s.pwr.tripped = [])
    ∧ (let s := run0
       s.atFloor = true ∧ s.pwr.floorAt = 0 ∧ (List.range 4).filter s.dieBusy = [0] ∧ s.ended = [] ∧ s.phase = .ready
        ∧ 0 < s.floorExcess [4000, 0, 0, 0] 0 ∧ s.floorExcess [0, 0, 0, 0] 0 ≤ 0 ∧ s.evq.length + s.evFlying + 1 ≤ 4096
        ∧ (s.runningOn 0).map (·.1) = [0])
    ∧ (∀ l ∈ [[104, 104, 104, 104], ([] : List Nat)], ∀ d < 8, l.getD d 0 < 105) := by decide +kernel

/-! ### Collectives, impositions and resilience -/

/-- Work on segment `k` that is not done, and a bucket of epoch 1 in state `st` with work on both segments. -/
def workOf (k : Nat) : SegWork := ⟨k, 0, [], 0, Trailer.zero, 0, false, 0, 0, [], false⟩
def bucket1 (st : BSt) : Bucket := ⟨0, 1, 0, st, false, false, 0, 0, [workOf 0, workOf 1], .empty, .empty, [], 0⟩
def lay1 : Lay := ⟨bdesc, [1, 2], 0, [(0, 1), (1, 1)]⟩

/-- `ring0` with its bucket in state `st`. -/
def ringAt (st : BSt) : State := ring0.modColl 0 fun k => { k with buckets := [bucket1 st] }

/-- Everything `SegmentBegins` asks, checked at once. -/
def beginsB (s : State) (c : Nat) (k : Bucket) (l : Lay) (w : SegWork) (dir : Nat) : Bool :=
  decide ((s.serving c k.idx).head? = some k) && decide (s.bucket? c k.idx k.iepoch = some k)
    && decide (s.lay c k.idx k.iepoch = some l) && l.d.kind != 3
    && s.slotStarted c k.idx 0 dir [0] (k.iepoch != s.curEpoch c)
    && decide (k.work.find? (fun w => w.dir == dir && !w.reduced && l.hop w.seg dir == 0) = some w)
    && (l.span w.seg dir).2 == 1 && decide (w.pack = []) && w.whole == false && l.dist w.seg dir != 0
    && s.peerValid (l.fab (l.next dir)) && (s.portFor (l.fab (l.next dir)) 4).isSome && decide (s.ecc = .empty)
    && decide (s.badSeg = .empty) && decide (s.ended = [])

theorem beginsB_spec {s : State} {c : Nat} {k : Bucket} {l : Lay} {w : SegWork} {dir : Nat} (h : beginsB s c k l w dir = true) :
    SegmentBegins s c k l w dir := by
  simp only [beginsB, Bool.and_eq_true, decide_eq_true_eq, beq_iff_eq, bne_iff_ne] at h
  obtain ⟨⟨⟨⟨⟨⟨⟨⟨⟨⟨⟨⟨⟨⟨h1, h2⟩, h3⟩, h4⟩, h5⟩, h6⟩, h7⟩, h8⟩, h9⟩, h10⟩, h11⟩, h12⟩, h13⟩, h14⟩, h15⟩ := h
  exact ⟨h1, h2, h3, h4, h5, h6, h7, h8, h9, h10, h11, h12, ⟨h13, h14⟩, h15⟩

/-- BucketsRunAndImpositionsTakeEffect: a waiting bucket, a segment that begins here, a stall and a drain. -/
theorem test_witness_buckets :
    (let s := ringAt .waiting
     s.ended = [] ∧ s.desc? 0 0 = some bdesc ∧ s.bucket? 0 0 (s.curEpoch 0) = some (bucket1 .waiting) ∧ s.ctxState 0 = ctxRunning
      ∧ s.fget (F.RDX_CTRL_EN bdesc.rdx) = 1 ∧ s.entries bdesc.rdx < 64 ∧ (s.coll 0).drain = none ∧ bdesc.wq = 0
      ∧ s.lay 0 0 (s.curEpoch 0) = some lay1)
    ∧ beginsB (ringAt .reduce) 0 (bucket1 .reduce) lay1 (workOf 1) 0 = true
    ∧ (let s := { (ringAt .reduce).fset (F.CTX_CFG_PEER_TO_MS 0) 1 with timeUs := 1000000 }
       let limit := 1000 * s.fget (F.CTX_CFG_PEER_TO_MS 0)
       (s.coll 0).buckets = [bucket1 .reduce] ∧ (bucket1 .reduce).opened = true ∧ s.bucketsRun 0 = true
        ∧ Nat.max (bucket1 .reduce).progress (s.ctx 0).slipEnd + limit ≤ s.timeUs ∧ (s.ctx 0).slipping = false
        ∧ (s.unitDue 0 (bucket1 .reduce)).any (fun x => x.1 == 2 && decide (x.2 + 1000 * limit ≤ 1000 * s.timeUs)) = true
        ∧ 2 ∉ (s.coll 0).told ∧ s.evq.length + s.evFlying + 1 ≤ 4096)
    ∧ (let s := (ringAt .done).modColl 0 fun k => { k with drain := some ⟨impR, []⟩ }
       (s.coll 0).drain ≠ none ∧ (∀ k ∈ (s.coll 0).buckets, k.opened = true → k.iepoch = s.curEpoch 0)) := by decide +kernel

/-- BucketsRunAndImpositionsTakeEffect: a gather unit of segment 1 in its frame. -/
theorem test_witness_gatherHop :
    let u : RUnit := { unit1 1 with tag := bucketTag 0 1 0 0 1 }
    let f : UnitIn := ⟨0x23000, 130, .arrived, u.bytes.take 64⟩
    let s := { (ringAt .gather).modColl 0 fun k => { k with frames := [f] } with mem := memPutList [] 0x23000 u.bytes }
    (s.serving 0 0).head? = some (bucket1 .gather) ∧ s.bucket? 0 0 1 = some (bucket1 .gather) ∧ s.lay 0 0 1 = some lay1
      ∧ lay1.d.kind ≠ 3 ∧ lay1.d.last = false ∧ (s.coll 0).frames = [f] ∧ RUnit.parse (s.unitBytes f) = some u
      ∧ u.phase = 1 ∧ u.dir = 0 ∧ u.last = false ∧ u.missing = false ∧ u.blocks = [block1] ∧ u.obs = [1]
      ∧ s.slotStarted 0 0 1 0 (lay1.gatherSlot 1 0 false) ((1 : Nat) != s.curEpoch 0) = true ∧ lay1.gatherNext 1 0 = []
      ∧ (bucket1 .gather).work? 1 0 = some (workOf 1) ∧ (workOf 1).whole = false
      ∧ landsB s (lay1.d.out + 256 * ((lay1.seg 1).1 + u.first)) = true := by decide +kernel

/-- BucketsRunAndImpositionsTakeEffect: a pending imposition at a step boundary, and one that a drain has held. -/
theorem test_witness_impositionTakesEffect :
    ∀ e ∈ [((0xFFFFFFFF : Nat), false), (0, false), (7, true)], let k := cmdOf 9 [] .active
      let p : PendImp := ⟨impR, e.1, 0, e.2⟩
      let s := (ctxAt ctxIdle k).modCtx 0 fun x => { x with forme := some formeR, coll := { x.coll with pend := some p } }
      s.atBoundary 0 = true ∧ (s.coll 0).pend = some p ∧ (e.1 = 0xFFFFFFFF ∨ e.1 = (s.ctx 0).step ∨ e.2 = true)
        ∧ (s.coll 0).drain = none ∧ s.repeatChecks 0 impR = 0 ∧ (s.coll 0).imp = none ∧ impR.rmap = none ∧ impR.iepoch < 65536
        ∧ (s.ring 0 0).cur = some k ∧ s.ended = [] ∧ s.evq.length + s.evFlying + 1 ≤ 4096 := by decide +kernel

/-- A stream of 64 bytes whose first fallback is rank 1, and its state since 0. -/
def stream1 : StreamRec := ⟨0, 0, 0, true, 1, 0xFFFF, 0, 1000, 64, 100, 0, 4096, 0, [(1, 8192), (0xFFFF, 0), (0xFFFF, 0)]⟩
def stream0 : Stream := ⟨0, 0, .empty, [], 0, false, false⟩

/-- StreamsGatesRepairsAndOrders: a stream at its deadline, a LAST bucket at its gate, and a repair with nothing left. -/
theorem test_witness_streamsGates :
    (let s := ring0.modCtx 0 fun x => { x with forme := some { formeR with streams := [stream1] }, streams := [stream0] }
     s.ended = [] ∧ (s.ctx 0).streams.find? (fun x => x.idx == 0) = some stream0 ∧ s.streamRec 0 0 = some stream1
      ∧ 1000 * stream0.startedAt + stream1.deadline ≤ 1000 * s.timeUs ∧ stream0.complete stream1 = false ∧ s.ctxState 0 = ctxRunning
      ∧ (List.range stream1.units).filter (fun u => !stream0.has stream1 u) = [0] ∧ stream1.fallback.head? = some (1, 8192)
      ∧ (s.coll 0).imp = some impR ∧ 1 ≠ impR.self ∧ s.peerValid (impR.ranks.getD 1 0) = true
      ∧ (s.portFor (impR.ranks.getD 1 0) 1).isSome = true ∧ s.evq.length + s.evFlying + 1 ≤ 4096)
    ∧ (let d := { bdesc with last := true }
       let s := ((ringAt .reduce).fset (F.RES_STAT_GATE_WAIT 0) 1).modCtx 0 fun x =>
         { x with forme := some { formeR with slots := { formeR.slots with buckets := [d] } } }
       s.fget (F.RES_STAT_GATE_WAIT 0) = 1 ∧ (s.slotsSec 0).buckets.findIdx? (fun d => d.last) = some 0
        ∧ s.bucket? 0 0 (s.curEpoch 0) = some (bucket1 .reduce) ∧ s.gateOpen 0 0 = true ∧ (s.coll 0).lastStarted = false
        ∧ beginsB s 0 (bucket1 .reduce) { lay1 with d := d } (workOf 1) 0 = true)
    ∧ (let s := ring0.modColl 0 fun k => { k with repair := some ⟨2, []⟩ }
       (s.coll 0).repair = some ⟨2, []⟩) := by decide +kernel

/-- A resilience table of one extent (Table 11-2), and an order for generation 5 from the live copy (Table 11-6). -/
def resTable : List Byte :=
  leBytes 4 0x5254574B ++ leBytes 2 1 ++ leBytes 2 0xFFFF ++ leBytes 2 0xFFFF ++ leBytes 2 0xFFFF ++ leBytes 2 0xFFFF
    ++ leBytes 2 1 ++ leBytes 48 0 ++ leBytes 8 0x20000 ++ leBytes 4 1 ++ leBytes 4 0
def orderRec : List Byte := leBytes 1 1 ++ leBytes 1 1 ++ leBytes 2 0xFFFF ++ leBytes 4 5 ++ leBytes 56 0

/-- An order that has its result. -/
def order1 : Order := ⟨0x3000, 1, 0xFFFF, 5, true, 1, false, 5, .empty, .empty, [], some 0⟩

/-- StreamsGatesRepairsAndOrders: an order that begins, and one that ends. -/
theorem test_witness_orders :
    (let s := sets (ring0.fset (F.CTX_STAT_STATE 0) ctxIdle) [(F.RES_ORDER_LO_ADDR_LO 0, 0x3000), (F.RES_TBL_LO_ADDR_LO 0, 0x4000),
        (F.RES_TBL_HI_VALID 0, 1), (F.RES_STAT_LIVE_VALID 0, 1), (F.RES_LIVE_GEN_LIVE_GEN 0, 5)]
     let s := { s with mem := memPutList (memPutList [] 0x3000 orderRec) 0x4000 resTable }
     let w : Word := 0x80000000
     w.getLsbD 31 = true ∧ 0x3000 = s.fget (F.RES_ORDER_LO_ADDR_LO 0) + 2 ^ 32 * (w.toNat % 65536) ∧ s.ctxState 0 = ctxIdle
      ∧ (s.coll 0).order = none ∧ (s.ctx 0).forme = some formeR ∧ formeR.inRegionW 0x3000 64 = true ∧ s.ecc = .empty
      ∧ s.badSeg = .empty ∧ leAt (s.bytes 0x3000 64) 0 1 = 1 ∧ leAt (s.bytes 0x3000 64) 1 1 = 1
      ∧ leAt (s.bytes 0x3000 64) 2 2 = 0xFFFF ∧ (∀ i < 64, 8 ≤ i ∧ i < 32 ∨ 40 ≤ i → s.byte (0x3000 + i) = 0) ∧ (s.coll 0).imp = some impR
      ∧ (((s.latch 0).readTable 0).coll 0).table ≠ [] ∧ s.fget (F.RES_STAT_LIVE_VALID 0) = 1
      ∧ s.fget (F.RES_LIVE_GEN_LIVE_GEN 0) = leAt (s.bytes 0x3000 64) 4 4)
    ∧ (let s := ring0.modColl 0 fun k => { k with order := some order1 }
       (s.coll 0).order = some order1 ∧ formeR.inRegionW order1.addr 64 = true ∧ landsB s (order1.addr + 32) = true
        ∧ order1.source < 256 ∧ order1.want < 2 ^ 32 ∧ s.evq.length + s.evFlying + 1 ≤ 4096) := by decide +kernel

/-- StreamsGatesRepairsAndOrders: the outbox of a parity capture with ten members. -/
theorem test_witness_parityRead :
    let p := { impR with m := 10, ranks := (List.range 10).map (· + 1), groups := [List.range 10] }
    let t : Task := ⟨.parityRead, 4, [], [], 0, true⟩
    let s := ring0.modColl 0 fun k => { k with imp := some p, tasks := [t] }
    s.ctxState 0 ≠ ctxMigrating ∧ (s.coll 0).tasks = [t] ∧ (s.coll 0).imp = some p ∧ s.ecc = .empty ∧ s.badSeg = .empty
      ∧ (let grp := p.groups.getD (tPgroup (s.coll 0).table) []
         let at_ := fun j => p.ranks.getD (grp.getD ((grp.idxOf p.self + j) % 10) 0) 0
         at_ 0 = s.fget F.FAB_SELF_FAB ∧ at_ 1 ≠ s.fget F.FAB_SELF_FAB ∧ s.peerValid (at_ 1) = true
           ∧ (s.portFor (at_ 1) 0).isSome = true) := by decide +kernel

/-! ### The host port and the mailboxes -/

/-- A READY module whose host link is up, with the queue pairs `l`. -/
def hostAt (l : List HostQp) : State :=
  let s := run0.fset F.HPT_STAT_LINK 1
  { s with hpt := { s.hpt with qps := l, cfg := { s.hpt.cfg with allow := [([], 0)], ip4 := [10, 0, 0, 1], ip6 := List.replicate 16 1 } } }

/-- A CONNECT of a command queue pair for context 7 with path MTU code `mtu`, and a DISCONNECT of `qp1`. -/
def connectMsg (mtu : Nat) : List Byte :=
  leBytes 4 0x4E43574B ++ leBytes 1 1 ++ leBytes 1 1 ++ leBytes 2 7 ++ leBytes 4 9 ++ leBytes 4 100 ++ leBytes 28 0 ++ leBytes 1 mtu
def disconnectMsg : List Byte := leBytes 4 0x4E43574B ++ leBytes 4 2 ++ leBytes 4 9 ++ leBytes 36 0

/-- What leaves on priority `p` leaves at once (`State.prioFree`), checked at once. -/
def freeB (s : State) (p : Nat) : Bool := s.pausedAt p == false && s.hpt.held.all fun x => x.1 != p

theorem freeB_spec {s : State} {p : Nat} (h : freeB s p = true) : s.prioFree p := by
  simp only [freeB, Bool.and_eq_true, beq_iff_eq, List.all_eq_true, bne_iff_ne] at h
  exact h

/-- Everything `InSequence` asks, checked at once. -/
def inSeqB (s : State) (n p : Nat) (q : HostQp) (h : FrameHead) : Bool :=
  decide (s.qp? n = some q) && q.err == false && s.hostUp && s.running && p == q.hostPsn && s.planeUp q.kind && s.frameIn true h
    && freeB s (s.qpPrio q) && h.ce == false && decide (s.ended = [])

theorem inSeqB_spec {s : State} {n p : Nat} {q : HostQp} {f : FrameHead} (h : inSeqB s n p q f = true) : InSequence s n p q f := by
  simp only [inSeqB, Bool.and_eq_true, decide_eq_true_eq, beq_iff_eq] at h
  obtain ⟨⟨⟨⟨⟨⟨⟨⟨⟨h1, h2⟩, h3⟩, h4⟩, h5⟩, h6⟩, h7⟩, h8⟩, h9⟩, h10⟩ := h
  exact ⟨h1, h2, h3, h4, h5, h6, h7, freeB_spec h8, h9, h10⟩

/-- A request that `qp1` has sent, of kind `read`, for `own`. -/
def reqOf (read : Bool) (own : QOwn Rec Event) : HostReq := ⟨39, 1, read, 0, 0, 32, [], own⟩
def ev1 : Event := ⟨0x0901, none, 0, 0, 0, []⟩

/-- QueuePairsConnectAndTransfer: CONNECT at both ends of the path MTU, DISCONNECT, and requests in sequence. -/
theorem test_witness_queuePairs :
    (∀ mtu ∈ [3, 5], let s := hostAt []
      let m := connectMsg mtu
      s.running = true ∧ s.hostUp = true ∧ s.frameIn true head1 = true ∧ freeB s 7 = true ∧ (49851 : BitVec 16).toNat = s.hpt.cfg.mgmtPort
        ∧ { s with hpt := { s.hpt with cfg := { s.hpt.cfg with allow := [] } } }.allowed [] = false ∧ s.evq.length + s.evFlying + 1 ≤ 4096
        ∧ leAt m 0 4 = 0x4E43574B ∧ leAt m 4 1 = 1 ∧ s.allowed [] = true ∧ leAt m 5 1 < 2
        ∧ leAt m 6 1 < 8 ∧ leAt m 44 1 = mtu ∧ 45 ≤ m.length ∧ (List.range 4096).find? (fun n => (s.qp? n).isNone) = some 0)
    ∧ (let s := hostAt [qp1]
       let m := disconnectMsg
       leAt m 0 4 = 0x4E43574B ∧ leAt m 4 1 = 2
        ∧ s.hpt.qps.find? (fun q => q.hostQpn == leAt m 8 3 && q.gid == slice m 16 16) = some qp1 ∧ s.qp? qp1.num = some qp1
        ∧ qp1.sent = [])
    ∧ (let s := hostAt [qp1]
       inSeqB s 5 100 qp1 head1 = true ∧ qp1.kind = 1 ∧ (2 ^ 48 + 4096) / 2 ^ 48 = 1 ∧ (0x77 : Nat) = qp1.rkey
        ∧ s.inWindows qp1.ctx true 4096 64 = true ∧ s.inWindows qp1.ctx false 4096 64 = true ∧ landsB s 4096 = true
        ∧ (0x78 : Nat) ≠ qp1.rkey)
    ∧ (∀ h ∈ [⟨some 1, true, true, false⟩, ⟨none, false, true, false⟩, ⟨none, true, false, false⟩], (hostAt [qp1]).pair 5 h = none)
    ∧ (hostAt []).pair 5 head1 = none ∧ (hostAt []).ended = [] := by decide +kernel

/-- QueuePairsConnectAndTransfer: a response for an image, and what acknowledges, retries and slows a pair. -/
theorem test_witness_queuePairTimers :
    (let q := { qp1 with sent := [reqOf true (.image 0 0)] }
     let s := (hostAt [q]).modCtx 0 fun x => { x with loading := some ⟨0, [], 64, false, 1⟩ }
     s.pair 5 head1 = some q ∧ head1.ce = false ∧ (reqOf true (.image 0 0)).read = true
      ∧ (s.ctx 0).loading = some ⟨0, [], 64, false, 1⟩)
    ∧ (∀ n ∈ [6, 7], let q := { qp1 with sent := [reqOf false (.event ev1)], tries := n }
       let s := { hostAt [q] with timeUs := 100 }
       s.qp? 5 = some q ∧ s.pair 5 head1 = some q ∧ q.err = false ∧ s.planeUp q.kind = true ∧ freeB s (s.qpPrio q) = true ∧ psnLe (39 + 1 - 1) 39 = true ∧ q.since + 100 ≤ s.timeUs ∧ s.evq.length + s.evFlying + 2 ≤ 4096
        ∧ q.cutAt = none ∧ q.riseAt + 55 ≤ s.timeUs ∧ (n = 6 → q.tries < 7) ∧ (n = 7 → 7 ≤ q.tries))
    ∧ (let s := hostAt [qp1]
       s.pair 5 head1 = some qp1 ∧ qp1.sent = [] ∧ s.evq.length + s.evFlying + 1 ≤ 4096) := by decide +kernel

/-- HostLinkServices: offsets at the ends of the lock range and beyond it, and the port's own addresses. -/
theorem test_witness_hostLink :
    (let s := (hostAt []).fset F.HPT_STAT_PTP_LOCK 1
     s.hostUp = true ∧ s.running = true ∧ s.frameIn true head1 = true ∧ s.frameIn false head1 = true ∧ freeB s 0 = true
      ∧ s.frameIn false ⟨some 1, true, true, false⟩ = false ∧ (-1000 : Int) ≤ 1000 ∧ (1000 : Int) < 1001 ∧ s.fget F.HPT_STAT_PTP_LOCK = 1
      ∧ s.evq.length + s.evFlying + 1 ≤ 4096)
    ∧ ((hostAt []).hpt.cfg.ip4.length = 4 ∧ (hostAt []).own6 (List.replicate 16 1) = true)
    ∧ ([8, 0, 0, 0, 0, 0, 0, 0] : List Byte).take 2 = [8#8, 0#8] ∧ ([128, 0, 0, 0, 0, 0, 0, 0] : List Byte).take 2 = [128#8, 0#8] := by
  decide +kernel

/-- A submission ring with a TEARDOWN in its first entry. -/
def ringOne : Ring := { Ring.empty with buf := Tbl.empty.set 0 8, prod := 1 }

/-- A completion record. -/
def rec1 : Rec := ⟨1, 8, 0, 0, 7, 0, 0, 0, 0, 0⟩

/-- RingsAndRecords: a doorbell that fills the ring and one beyond it, the ring's configuration, and a command to take. -/
theorem test_witness_rings :
    (let s := hostAt [qp1]
     s.running = true ∧ s.planeUp 1 = true ∧ (s.ctx 0).rings.length = 4 ∧ (64 + 65536 - (s.ring 0 3).cons) % 65536 ≤ 64
      ∧ (64 + 65536 - (s.ring 0 3).prod) % 65536 < 32768 ∧ 64 < (65 + 65536 - (s.ring 0 3).cons) % 65536 ∧ s.evq.length + s.evFlying + 1 ≤ 4096
      ∧ s.qp? 5 = some qp1 ∧ qp1.kind = 1 ∧ qp1.ctx = 0 ∧ bits (0x80000004 : Word).toNat 3 0 = 4 ∧ bits (12 : Word).toNat 3 0 = 12)
    ∧ (let s := (hostAt []).modRing 0 3 fun _ => ringOne
       s.fget F.MGT_PLANE_STAT_CTRL_DOWN = 0 ∧ s.backlogBlocks 0 = false ∧ s.phase ≠ .out ∧ s.mayTake 0 3 = true
        ∧ (∀ q : RingId, q ≠ 3 → s.mayTake 0 q = false) ∧ legalCommand (s.nextEntry 0 3) = true) := by decide +kernel

/-- RingsAndRecords: a completion record and an event record with room in their rings. -/
theorem test_witness_records :
    (let s := (hostAt [qp1]).modCtx 0 fun x => { x with backlog := [rec1], crQp := some 5, crCfg := 0x80000004 }
     (s.ctx 0).backlog = [rec1] ∧ (s.ctx 0).crQp = some 5 ∧ s.qp? 5 = some qp1 ∧ bit (s.ctx 0).crCfg 31 = true
      ∧ s.qpReady qp1 = true ∧ freeB s (s.qpPrio qp1) = true
      ∧ ((s.ctx 0).crK + 2 ^ 32 - (s.ctx 0).crCi % 2 ^ 32) % 2 ^ 32 < 2 ^ bits (s.ctx 0).crCfg 3 0)
    ∧ (let q := { qp1 with kind := 0 }
       let s := { sets (hostAt [q]) [(F.HPT_ER_HI_QP, 5), (F.HPT_ER_HI_EN, 1), (F.HPT_ER_HI_LOG2, 4)] with evq := [ev1] }
       s.evq = [ev1] ∧ s.qp? (s.fget F.HPT_ER_HI_QP) = some q ∧ s.fget F.HPT_ER_HI_EN = 1 ∧ s.qpReady q = true ∧ freeB s (s.qpPrio q) = true
        ∧ (s.hpt.erK + 2 ^ 32 - s.fget F.HPT_ER_CI_CI) % 2 ^ 32 < 2 ^ s.fget F.HPT_ER_HI_LOG2) := by decide +kernel

/-- RegistersAndMailboxes: the ends of a reserved range, and a mailbox in each of its states, for a secure and a plain
initiator. -/
theorem test_witness_registers :
    ready0.running = true ∧ ready0.ended = [] ∧ reservedRange 0x600000 = true ∧ reservedRange 0xFFFFFC = true
    ∧ mbxChannel 0x600000 = none ∧ mbxChannel 0x400000 = none ∧ mbxChannel 0xFFFFFC = none ∧ (Width.byte ≠ Width.word)
    ∧ (∀ n ∈ [(0 : Nat), 15], (sets ready0 [(F.MBX_STAT_FULL n, 1)]).fget (F.MBX_STAT_FULL n) = 1
      ∧ (sets ready0 [(F.MBX_STAT_FULL n, 1)]).evq.length + (sets ready0 [(F.MBX_STAT_FULL n, 1)]).evFlying + 2 ≤ 4096)
    ∧ (0x20000000 : Word).getLsbD 29 = true ∧ ready0.evq.length + ready0.evFlying + 1 ≤ 4096
    ∧ secureWorld .sec false = true ∧ secureWorld (.mgc 0) true = true
    ∧ (∀ n ∈ [(0 : Nat), 15, 31],
      (ready0.fget (F.MBX_STAT_FULL n) = 0 ∧ ready0.fget (F.MBX_STAT_CLAIMED n) = 0)
      ∧ (let s := { sets ready0 [(F.MBX_STAT_CLAIMED n, 1), (F.MBX_STAT_CLAIMANT n, Initiator.sec.id), (F.MBX_CFG_RCV n, 1)] with
            timeUs := 100, hpt := { ready0.hpt with claims := Tbl.empty.set n 0 } }
         s.fget (F.MBX_STAT_FULL n) = 0 ∧ s.fget (F.MBX_STAT_CLAIMED n) = 1 ∧ s.fget (F.MBX_STAT_CLAIMANT n) = Initiator.sec.id
          ∧ s.fget (F.MBX_CFG_RCV n) ≠ 0x20 ∧ s.hpt.claims.find n = some 0 ∧ 0 + 100 ≤ s.timeUs)
      ∧ (let s := sets ready0 [(F.MBX_STAT_FULL n, 1), (F.MBX_CFG_RCV n, Initiator.sec.id)]
         s.fget (F.MBX_STAT_FULL n) = 1 ∧ s.fget (F.MBX_CFG_RCV n) = Initiator.sec.id)) := by decide +kernel

/-! ### Attestation and the sideband -/

/-- A READY module whose sideband target has an address. -/
def sideUp : State := { ready0 with pwr := { ready0.pwr with mgt := true }, side := { ready0.side with dyn := some 8 } }

/-- An MCTP packet for the null endpoint, and its sender. -/
def mctp1 : MctpHead := ⟨0, 9, 1⟩
def peer1 : SpdmPeer := ⟨7, [10, 0, 0, 2], 5, 49851, head1, mctp1⟩

/-- `sideUp` with the negotiation of transport 0 at `p`. -/
def spdmAt (p : Spdm) : State := sideUp.setSpdm 0 p

/-- Everything `SpdmAsks` asks, checked at once. -/
def asksB (s : State) (t : Nat) (m : List Byte) (code : Nat) (p : Spdm) : Bool :=
  leAt m 1 1 == code && decide (4 ≤ m.length) && decide (m.length ≤ 4096) && s.spdmUp t peer1
    && (code == 0x84 || leAt m 0 1 == 0x12) && decide (s.spdm t = p) && s.sec.spdm.length == 2

theorem asksB_spec {s : State} {t : Nat} {m : List Byte} {code : Nat} {p : Spdm} (h : asksB s t m code p = true) :
    SpdmAsks s t peer1 m code p := by
  simp only [asksB, Bool.and_eq_true, Bool.or_eq_true, decide_eq_true_eq, beq_iff_eq] at h
  exact ⟨h.1.1.1.1.1.1, h.1.1.1.1.1.2, h.1.1.1.1.2, h.1.1.1.2, h.1.1.2, h.1.2, h.2⟩

/-- SpdmRequestsAreAnswered: each request where the negotiation stands before it, and a request with an unknown code. -/
theorem test_witness_spdm :
    asksB (spdmAt Spdm.zero) 0 [0x10, 0x84, 0, 0] 0x84 Spdm.zero = true
    ∧ (let p := { Spdm.zero with ver := true }
       asksB (spdmAt p) 0 [0x12, 0xE1, 0, 0] 0xE1 p = true ∧ p.ver = true ∧ p.algs = false)
    ∧ (let p := { Spdm.zero with ver := true, caps := true }
       asksB (spdmAt p) 0 [0x12, 0xE3, 0, 0] 0xE3 p = true ∧ p.caps = true ∧ p.algs = false)
    ∧ (let p : Spdm := ⟨true, true, true, [], [], []⟩
       p.algs = true ∧ asksB (spdmAt p) 0 [0x12, 0x81, 0, 0] 0x81 p = true ∧ asksB (spdmAt p) 0 [0x12, 0x82, 0, 0] 0x82 p = true
        ∧ leAt [0x12, 0x82, 0, 0] 2 1 = 0 ∧ leAt [0x12, 0x82, 0, 0] 4 2 = 0
        ∧ (let m : List Byte := [0x12, 0x83, 0, 0] ++ List.replicate 32 5
           asksB (spdmAt p) 0 m 0x83 p = true ∧ leAt m 2 1 = 0 ∧ leAt m 3 1 = 0 ∧ 36 ≤ m.length)
        ∧ (∀ i ∈ measIndices, let m : List Byte := [0x12, 0xE0, 0, BitVec.ofNat 8 i]
           asksB (spdmAt p) 0 m 0xE0 p = true ∧ bit (leAt m 2 1) 0 = false ∧ leAt m 3 1 = i)
        ∧ (spdmAt p).spdmUp 0 peer1 = true ∧ (hostAt []).spdmUp 1 peer1 = true ∧ leAt [0x12, 0xE4, 0, 0] 1 1 ∉ spdmCodes) := by decide +kernel

/-- SpdmRequestsAreAnswered: the first byte of the chain can be asked for. -/
theorem test_witness_certificate (s : State) : leAt [0x12, 0x82, 0, 0] 4 2 < s.certChain.length := by
  have h : leAt ([0x12, 0x82, 0, 0] : List Byte) 4 2 = 0 := by decide
  simp only [h, State.certChain, List.length_append, leBytes_length]
  omega

/-- SidebandAnswers: the states in which the target, the endpoint and the terminus answer, a colophon, the first PDR and
each kind of sensor. -/
theorem test_witness_sideband :
    sideUp.busUp = true ∧ sideUp.mctpUp mctp1 = true ∧ sideUp.side.dyn.isSome = true
    ∧ (let s := { sideUp with side := { sideUp.side with dyn := none } }
       s.busUp = true ∧ s.side.dyn = none)
    ∧ (let s := { sideUp with rst := { sideUp.rst with ram := [some col1, none, none, none] } }
       s.mctpUp mctp1 = true ∧ s.colFind 7 = some col1 ∧ 0 + 1 ≤ col1.size)
    ∧ (∀ k ∈ [(1 : Nat), 2, 3, 4, 7, 8, 9, 10, 21, 22], (sideUp.sensor k).isSome = true)
    ∧ 1800 % 25 = 0 ∧ 3600 % 25 = 0 := by decide +kernel
theorem test_witness_pdr : pdrs[(1 : BitVec 32).toNat - 1]? = some (numericSensor 1 1 5 0xFE) ∧ pdrs[23]? = some (numericEffecter 24 40) :=
  ⟨rfl, rfl⟩

/-! ### The whole machine -/

/-- StepRunsFrontCommand: an idle step at which one of two pauses ends. -/
theorem test_witness_idle :
    let s := { State.reset with hpt := { State.reset.hpt with held := [(0, ⟨.ether, 0, []⟩), (1, ⟨.ether, 1, []⟩)], paused := [1, 2] } }
    s.pending = [] ∧ (s.hpt.held.filter fun x => decide (s.hpt.paused.getD x.1 0 ≤ s.timeUs + 1)) = [(0, ⟨.ether, 0, []⟩)] := by
  decide +kernel

/-- StepKeepsMemoryAndQueue: a step from reset with a command in front. -/
theorem test_witness_step :
    let s := { State.reset with pending := [Instr.hostLinkDown] }
    Memory.wf s.mem = true ∧ (match step s with | .next t => t.pending == [] | _ => false) = true := by decide +kernel

/-! ### Cells, blocks and units -/

/-- Everything `Block.Fits` asks, checked at once. -/
def blockB (b : Block) : Bool :=
  decide (1 ≤ b.exp) && decide (b.exp ≤ 254) && decide (b.vals.length = 64)
    && (!b.poison || decide (b.vals = List.replicate 64 0))
    && b.vals.all fun v => if b.escape = true then decide (-32768 ≤ v ∧ v < 32768) else decide (-128 ≤ v ∧ v < 128)

theorem blockB_spec {b : Block} (h : blockB b = true) : b.Fits := by
  simp only [blockB, Bool.and_eq_true, Bool.or_eq_true, decide_eq_true_eq, List.all_eq_true, Bool.not_eq_true'] at h
  refine ⟨⟨h.1.1.1.1, h.1.1.1.2⟩, h.1.1.2, fun p => h.1.2.resolve_left (by simp [p]), fun v hv => ?_⟩
  have := h.2 v hv
  split at this <;> simp_all

/-- Everything `RUnit.Fits` asks but what it asks of the blocks themselves, checked at once. -/
def unitB (u : RUnit) : Bool :=
  decide (u.tag < 2 ^ 64 ∧ u.first < 2 ^ 16 ∧ u.hop < 4096 ∧ u.n ≤ 30 ∧ u.uflags < 16)
    && (u.last || decide (u.tr = Trailer.zero))
    && decide (u.tr.flags < 64 ∧ u.tr.origin < 2 ^ 16 ∧ u.tr.slackRank < 2 ^ 16 ∧ u.tr.slack < 2 ^ 16 ∧ u.tr.ssLocal < 2 ^ 32
      ∧ u.tr.ssRed < 2 ^ 32)
    && decide (u.obs.length = u.n) && u.obs.all (fun x => decide (x < 256))
    && decide (u.blocks.length = if u.missing = true then 0 else u.n) && u.blocks.all blockB
    && (!u.missing || u.obs.all fun x => decide (x = 0)) && decide (u.n ≠ 0 ∨ u.last = true ∨ u.missing = true)

theorem unitB_spec {u : RUnit} (h : unitB u = true) : u.Fits := by
  simp only [unitB, Bool.and_eq_true, Bool.or_eq_true, decide_eq_true_eq, List.all_eq_true, Bool.not_eq_true'] at h
  obtain ⟨⟨⟨⟨⟨⟨⟨⟨h1, h2⟩, h3⟩, h4⟩, h5⟩, h6⟩, h7⟩, h8⟩, h9⟩ := h
  exact ⟨h1.1, h1.2.1, h1.2.2.1, h1.2.2.2.1, h1.2.2.2.2, fun p => h2.resolve_left (by simp [p]), h3, ⟨h4, h5⟩, h6,
    fun b hb => blockB_spec (h7 b hb), fun p => h8.resolve_left (by simp [p]), h9⟩

/-- A unit at the top of every range: 30 blocks, every other one escaped, and the trailer of a last unit. -/
def unitMax : RUnit :=
  ⟨2 ^ 64 - 1, 65535, 4095, 30, 7, ⟨63, 65535, 65535, 65535, 2 ^ 32 - 1, 2 ^ 32 - 1⟩, List.replicate 30 255,
    (List.replicate 15 [⟨1, false, false, List.replicate 64 (-128)⟩, ⟨254, false, true, List.replicate 64 32767⟩]).flatten⟩

/-- CellsAndUnitsRoundTrip and BlocksDecodeToFp32: cells, blocks and units at both ends of their ranges. -/
theorem test_witness_cellFits :
    (⟨15, 7, true, 2 ^ 24 - 1, 2 ^ 24 - 1, 2 ^ 24 - 1, 7, 3, true, 2 ^ 42 - 1, List.replicate 256 255⟩ : Cell).Fits
    ∧ (⟨0, 0, false, 0, 0, 0, 0, 0, false, 0, List.replicate 64 255 ++ List.replicate 192 0⟩ : Cell).Fits
    ∧ isControl 0 = false := by
  refine ⟨⟨?_, ?_, ?_, ?_, ?_, ?_, ?_, ?_, ?_, ?_⟩, ⟨?_, ?_, ?_, ?_, ?_, ?_, ?_, ?_, ?_, ?_⟩, ?_⟩ <;> decide +kernel
theorem test_witness_blockFits :
    (⟨1, false, false, List.replicate 63 (-128) ++ [127]⟩ : Block).Fits
    ∧ (⟨254, false, true, List.replicate 63 (-32768) ++ [32767]⟩ : Block).Fits
    ∧ (⟨127, true, false, List.replicate 64 0⟩ : Block).Fits :=
  ⟨blockB_spec (by decide +kernel), blockB_spec (by decide +kernel), blockB_spec (by decide +kernel)⟩
theorem test_witness_unitFits :
    unitMax.Fits ∧ (unit1 0).Fits ∧ (⟨0, 0, 0, 2, 8, Trailer.zero, [0, 0], []⟩ : RUnit).Fits :=
  ⟨unitB_spec (by decide +kernel), unitB_spec (by decide +kernel), unitB_spec (by decide +kernel)⟩

/-! ### Known answers -/

/-- The published check values of the CRCs over the ASCII digits 1 to 9 (R249, R253, R331). -/
def digits : List Byte := (List.range 9).map fun i => BitVec.ofNat 8 (0x31 + i)
theorem test_crc32c_check : crc32c digits = 0xE3069283 := by decide +kernel
theorem test_crc32_check : crc32 digits = 0xCBF43926 := by decide +kernel
theorem test_crc64_check : crc64 digits = 0x6C40DF5F0B497347 := by decide +kernel

/-- The first published vector of Philox4x32-10 (R55). -/
theorem test_philox_zero : philox 0 0 0 0 0 0 = (0x6627E8D5, 0xE169C58D, 0xBC57AC4C, 0x9B00DBD8) := by decide +kernel

/-- SHA-384 of the ASCII bytes a, b, c, as FIPS 180-4 publishes it. -/
theorem test_sha384_abc : sha384 [0x61, 0x62, 0x63] =
    (leBytes 48 0xcb00753f45a35e8bb5a03d699ac65007272c32ab0eded1631a8b605a43ff5bed8086072ba1e7cc2358baeca134c825a7).reverse := by
  decide +kernel

/-- FP8 E4M3 and FP32 codes of IEEE and OCP (Table 2-1): 1.0, and the largest finite value 448. -/
theorem test_e4m3_one : convert .e4m3 .fp32 0 0 0 .rne false 0 0x38 = ⟨0x3F800000, false, false, false, true⟩ := by decide +kernel
theorem test_e4m3_max : (convert .e4m3 .fp32 0 0 0 .rne false 0 0x7E).code = 0x43E00000 := by decide +kernel

/-- R51, R68: 1 at EXP 127 and 3 at EXP 126 decode to 1.0 and 1.5; 2 at EXP 254 lies beyond FP32 and is counted. -/
theorem test_bs8_decode :
    (bsDecode ⟨127, false, false, 1 :: List.replicate 63 (-3)⟩).1.take 2 = [0x3F800000, 0xC0400000]
    ∧ (bsDecode ⟨126, false, false, List.replicate 64 3⟩).1.head? = some 0x3FC00000
    ∧ bsDecode ⟨254, false, false, 2 :: List.replicate 63 0⟩ = (0x7F7FFFFF :: List.replicate 63 0, 1) := by decide +kernel

/-! ### Small steps -/

/-- `f` of the state that `i` leaves from `s`. -/
def after (i : Instr) (s : State) (f : State → Nat) : Option Nat :=
  match exec i s with
  | .next t => some (f t)
  | _ => none

/-- Table 4-3: ALU ADD wraps modulo 2^64, SRA keeps the sign, MUL keeps the low 64 bits; ADDI sign-extends. -/
theorem test_alu_add_wraps :
    after (.alu 0) (prog [ctcW 1 5 1 2 0] [(1, 2 ^ 64 - 1), (2, 3)]) (fun t => t.sreg 0 0 5) = some 2 := by decide +kernel
theorem test_alu_sra_negative :
    after (.alu 0) (prog [ctcW 1 5 1 2 7] [(1, 2 ^ 63), (2, 63)]) (fun t => t.sreg 0 0 5) = some (2 ^ 64 - 1) := by decide +kernel
theorem test_addi_sign_extends :
    after (.addi 0) (prog [ctcW 2 5 5 31 0x7FF] [(5, 0)]) (fun t => t.sreg 0 0 5) = some (2 ^ 64 - 1) := by decide +kernel
/-- S0 is a general register: ORSH shifts it and takes its immediate without a sign. -/
theorem test_orsh_s0 :
    after (.orsh 0) (prog [ctcW 3 0 0 31 0x7FF] [(0, 1)]) (fun t => t.sreg 0 0 0) = some 0x1FFFF := by decide +kernel
/-- R110: BLT compares as signed and counts its displacement in words from this word. -/
theorem test_blt_signed :
    after (.blt 0) (prog [ctcW 8 2 1 0 2] [(1, 1), (2, 2 ^ 64 - 1)]) (fun t => (t.thread 0 0).pc) = some 8 := by
  decide +kernel
/-- ST counts its immediate in 8 bytes and writes the least significant byte first. -/
theorem test_st_little_endian :
    after (.st 0) (prog [ctcW 5 1 2 0 8] [(1, 0x0102), (2, 4096)]) (fun t => leAt (t.bytes (lsBase 0 + 4160) 2) 0 2) =
      some 0x0102 := by decide +kernel
/-- R152: QADD adds its signed immediate modulo 2^32. -/
theorem test_qadd_wraps :
    after (.qadd 0) (prog [ctcW 10 0 2 31 0x7FF] [(2, 600)]) (fun t => t.quoin 0 600) = some (2 ^ 32 - 1) := by decide +kernel
/-- R116: the sums of INT8 saturate at ±127 with SAT = 1 and wrap with SAT = 0. -/
theorem test_int8_add :
    intOp 1 .int8 true .rne 0 100 100 0 = 127 ∧ intOp 1 .int8 true .rne 0 0x80 0x80 0 = 0x81
    ∧ intOp 1 .int8 false .rne 0 100 100 0 = 200 := by decide +kernel

end Sys2Proof.Tests
end

section
/-!
PROOFS. Control space (R8, R444 to R446) and the mailboxes (R400 to R402): the rules of an access (its checks, what it does
where they pass and where they fail), the rules of a mailbox's states, and with them the statement RegistersAndMailboxes.
-/

namespace Sys2Proof.Machine

/-! ### Words and fields -/

/-- A field as wide as the register is the register's word. -/
theorem bits_word {v : Nat} (h : v < 2 ^ 32) : bits v 31 0 = v := by
  simp only [bits, Nat.pow_zero, Nat.div_one]; exact Nat.mod_eq_of_lt h

/-- Setting a field as wide as the register replaces the word. -/
theorem setBits_word {w v : Nat} (hw : w < 2 ^ 32) (hv : v < 2 ^ 32) : setBits w 31 0 v = v := by
  simp only [setBits]; omega

/-- Two adjacent fields that make up a word, set one after the other, give the word. -/
theorem setBits_split {v : Nat} (h : v < 2 ^ 32) :
    setBits (setBits 0 31 24 (bits v 31 24)) 23 0 (bits v 23 0) = v := by
  simp only [setBits, bits]; omega

/-- A one-bit field whose mask has bit 0 clear is 0 (W1C). -/
theorem one_bit_cleared {x : Nat} (h : x < 2) : x &&& (2 ^ 32 - 1 - 1) = 0 := by
  interval_cases x <;> decide

theorem satAdd_le {m a b : Nat} : satAdd m a b ≤ m := by unfold satAdd; split <;> omega

/-- Every initiator's identifier fits in a byte (R400). -/
theorem initiator_id_lt (who : Initiator) : who.id < 256 := by
  cases who with
  | mgc m => simp only [Initiator.id]; omega
  | sec => decide
  | host => decide

section
variable (s : State) {off hi lo hi' lo' : Nat}

/-- A field reads as the value it was set to, where the value fits. -/
theorem State.fget_fset_self {v : Nat} (h : lo ≤ hi ∧ hi < 32) (hv : v < 2 ^ (hi - lo + 1)) :
    (s.fset ⟨off, hi, lo⟩ v).fget ⟨off, hi, lo⟩ = v :=
  (s.fget_fset_same ⟨off, hi, lo⟩ v h.1 h.2).trans (Nat.mod_eq_of_lt hv)

/-- A field apart from the one set, of the same register, keeps its value. -/
theorem State.fget_fset_apart (v : Nat) (h : lo ≤ hi ∧ hi < 32 ∧ lo' ≤ hi' ∧ (hi' < lo ∨ hi < lo')) :
    (s.fset ⟨off, hi, lo⟩ v).fget ⟨off, hi', lo'⟩ = s.fget ⟨off, hi', lo'⟩ :=
  s.fget_fset_field (f := ⟨off, hi, lo⟩) (p := ⟨off, hi', lo'⟩) h.1 h.2.2.1 h.2.1 h.2.2.2 rfl v

/-- A saturating counter reads as its sum (R8). -/
theorem State.fget_fadd_self (n : Nat) (h : lo ≤ hi ∧ hi < 32) :
    (s.fadd ⟨off, hi, lo⟩ n).fget ⟨off, hi, lo⟩ = satAdd (2 ^ (hi - lo + 1) - 1) (s.fget ⟨off, hi, lo⟩) n :=
  s.fget_fset_self h (Nat.lt_of_le_of_lt satAdd_le (Nat.sub_lt (Nat.two_pow_pos _) Nat.one_pos))

end

/-! ### Events with room in the queue -/

/-- R25: with room, an event is one record at the queue's end. -/
theorem State.raise_of_room {s : State} (h : s.eventRoom 1) (code : Nat) (ctx : Option Nat) (unit : Nat) (data : List Nat) :
    s.raise code ctx unit data = { s with
      evq := s.evq ++ [⟨code, ctx, s.evSeq, s.tick, unit, data⟩], evSeq := s.evSeq + 1
      evLog := s.evLog.drop (s.evLog.length - 2047) ++ [⟨code, ctx, s.evSeq, s.tick, unit, data⟩] } :=
  if_pos (Nat.lt_of_succ_le h)

theorem State.raise_regs_of_room {s : State} (h : s.eventRoom 1) (code : Nat) (ctx : Option Nat) (unit : Nat)
    (data : List Nat) : (s.raise code ctx unit data).regs = s.regs := by
  rw [State.raise_of_room h]

theorem State.rget_of_regs {s u : State} (h : u.regs = s.regs) (o : Nat) : u.rget o = s.rget o := by
  rw [State.rget, State.rget, h]

theorem State.fget_of_regs {s u : State} (h : u.regs = s.regs) (f : Fld) : u.fget f = s.fget f := by
  rw [State.fget, State.fget, State.rget_of_regs h]

/-- An event takes one place of the queue's room. -/
theorem State.eventRoom_raise {s : State} {n : Nat} (h : s.eventRoom (n + 1)) (code : Nat) (ctx : Option Nat) (unit : Nat)
    (data : List Nat) : (s.raise code ctx unit data).eventRoom n := by
  have h1 : s.eventRoom 1 := by unfold State.eventRoom at *; omega
  rw [State.raise_of_room h1]
  unfold State.eventRoom at *
  simp only [List.length_append, List.length_singleton]
  exact Nat.le_trans (Nat.le_of_eq (by simp only [State.evFlying]; omega)) h

/-- With room, an event adds what it says to the queue. -/
theorem raises_raise {s : State} (h : s.eventRoom 1) (code : Nat) (ctx : Option Nat) (unit : Nat) (data : List Nat) :
    Raises s (s.raise code ctx unit data) [(code, ctx, unit, data)] := by
  rw [Raises, State.raise_of_room h, List.map_append]
  rfl

theorem Raises.trans {s u v : State} {l l' : List (Nat × Option Nat × Nat × List Nat)} (h : Raises s u l)
    (h' : Raises u v l') : Raises s v (l ++ l') := by
  rw [Raises, h', h, List.append_assoc]

/-! ### What register updates and events leave unchanged -/

theorem SameRegsBut.refl (s : State) (l : List Nat) : SameRegsBut s s l := fun _ _ => rfl

theorem SameRegsBut.rset {s u : State} {l : List Nat} (h : SameRegsBut s u l) {o : Nat} (ho : o ∈ l) (v : Nat) :
    SameRegsBut s (u.rset o v) l :=
  fun p hp => (u.rget_rset_ne (ne_of_mem_of_not_mem ho hp).symm v).trans (h p hp)

theorem SameRegsBut.fset {s u : State} {l : List Nat} (h : SameRegsBut s u l) {f : Fld} (ho : f.off ∈ l) (v : Nat) :
    SameRegsBut s (u.fset f v) l := h.rset ho _

theorem SameRegsBut.fadd {s u : State} {l : List Nat} (h : SameRegsBut s u l) {f : Fld} (ho : f.off ∈ l) (n : Nat) :
    SameRegsBut s (u.fadd f n) l := h.rset ho _

theorem SameRegsBut.of_regs {s u v : State} {l : List Nat} (h : SameRegsBut s u l) (hv : v.regs = u.regs) :
    SameRegsBut s v l := fun p hp => (State.rget_of_regs hv p).trans (h p hp)

theorem SameRegsBut.raise {s u : State} {l : List Nat} (h : SameRegsBut s u l) (hr : u.eventRoom 1) (code : Nat)
    (ctx : Option Nat) (unit : Nat) (data : List Nat) : SameRegsBut s (u.raise code ctx unit data) l :=
  h.of_regs (State.raise_regs_of_room hr ..)

theorem SameRegsBut.trans {s u v : State} {l l' : List Nat} (h : SameRegsBut s u l) (h' : SameRegsBut u v l') :
    SameRegsBut s v (l ++ l') :=
  fun p hp => (h' p fun e => hp (List.mem_append_right l e)).trans (h p fun e => hp (List.mem_append_left l' e))

theorem OnlyRegsEvents.refl (s : State) : OnlyRegsEvents s s := rfl

theorem OnlyRegsEvents.trans {s u v : State} (h : OnlyRegsEvents s u) (h' : OnlyRegsEvents u v) : OnlyRegsEvents s v := by
  unfold OnlyRegsEvents at *
  rw [h'.trans (by rw [h])]

theorem OnlyRegsEvents.fset {s u : State} (h : OnlyRegsEvents s u) (f : Fld) (v : Nat) : OnlyRegsEvents s (u.fset f v) :=
  h.trans rfl

theorem OnlyRegsEvents.fadd {s u : State} (h : OnlyRegsEvents s u) (f : Fld) (n : Nat) : OnlyRegsEvents s (u.fadd f n) :=
  h.trans rfl

theorem OnlyRegsEvents.raise {s u : State} (h : OnlyRegsEvents s u) (code : Nat) (ctx : Option Nat) (unit : Nat)
    (data : List Nat) : OnlyRegsEvents s (u.raise code ctx unit data) :=
  h.trans (by unfold State.raise; split <;> rfl)

/-! ### The checks of an access (R444, R445) -/

/-- Below the dies' blocks the target of an accepted access answers while the firmware runs: R402 lets a mailbox of a management
core fail only while these are in reset. -/
theorem State.targetDown_of_running {s : State} (hr : s.running = true) {off : Nat} (h : off < 0x1000000) :
    s.targetDown off = false := by
  have hd : dieBlock off = none := if_neg (by omega)
  have he : edgeBlock off = none := if_neg (by omega)
  have hk : rdxBlock off = none := if_neg (by omega)
  simp only [State.targetDown, hd, he, hk]
  cases mbxChannel off with
  | none => rfl
  | some n => simp [State.receiverDown, hr]

/-- A word at an aligned offset of the ranges below the dies' blocks, outside those of the secure world, passes the checks. -/
theorem State.csCheck_ok {s : State} (hr : s.running = true) {who : Initiator} {sec : Bool} {off : Nat} (ha : off % 4 = 0)
    (hlt : off < 0x600000)
    (hs : secureWorld who sec = true ∨ ¬ ((0x101100 ≤ off ∧ off < 0x200000) ∨ (0x200100 ≤ off ∧ off < 0x200200))) :
    s.csCheck who sec false .word off = .ok := by
  have hres : reservedRange off = false := by
    simp only [reservedRange, Bool.or_eq_false_iff, Bool.and_eq_false_iff, decide_eq_false_iff_not]; omega
  have hsec : ¬ (secureWorld who sec = false ∧ ((0x101100 ≤ off ∧ off < 0x200000) ∨ (0x200100 ≤ off ∧ off < 0x200200))) :=
    fun h => hs.elim (fun e => by simp [h.1] at e) (fun e => e h.2)
  have hdown := s.targetDown_of_running hr (off := off) (by omega)
  unfold State.csCheck
  rw [if_neg (by simp [ha]), if_neg (by simp [hres]), if_neg hsec, if_neg (by simp [hdown])]

/-- R444, R445: an access that is no word, in a reserved range or to a silent target does not pass. -/
theorem State.csCheck_ne_ok (s : State) (who : Initiator) (sec : Bool) {mute : Bool} {n : Width} {off : Nat}
    (h : n ≠ Width.word ∨ mute = true ∨ reservedRange off = true) : s.csCheck who sec mute n off ≠ .ok := by
  unfold State.csCheck
  split_ifs with h1 h2 h3 h4
  · exact CsCheck.noConfusion
  · exact CsCheck.noConfusion
  · exact CsCheck.noConfusion
  · exact CsCheck.noConfusion
  · rcases h with h | h | h
    · exact absurd (Or.inr h) h1
    · exact absurd (Or.inr h) h4
    · exact absurd h h2

/-! ### Reads and writes, by the outcome of the checks -/

section
variable {s : State} {who : Initiator} {sec mute : Bool} {n : Width} {off w : Nat}

theorem State.csWrite_accepted (hc : s.csCheck who sec mute n off = .ok) (hm : mbxChannel off = none) :
    s.csWrite who sec mute n off w = (s.regWrite off w, true) := by
  simp only [State.csWrite, hc, hm]

theorem State.csWrite_mailbox_done (hc : s.csCheck who sec mute n off = .ok) {k : Nat} (hm : mbxChannel off = some k)
    {t : State} (ht : s.mbxWrite who k off w = (t, true)) : s.csWrite who sec mute n off w = (t, true) := by
  simp only [State.csWrite, hc, hm, ht, if_true]

theorem State.csWrite_mailbox_refused (hc : s.csCheck who sec mute n off = .ok) {k : Nat} (hm : mbxChannel off = some k)
    {t : State} (ht : s.mbxWrite who k off w = (t, false)) : s.csWrite who sec mute n off w = (t.csFailed who off, false) := by
  simp only [State.csWrite, hc, hm, ht, if_neg Bool.false_ne_true]

/-- R445: a write outside the mailboxes that does not pass the checks fails and does nothing else. -/
theorem State.csWrite_failed (hc : s.csCheck who sec mute n off ≠ .ok) (hm : mbxChannel off = none) :
    s.csWrite who sec mute n off w = (s.csFailed who off, false) := by
  unfold State.csWrite
  cases h : s.csCheck who sec mute n off with
  | ok => exact absurd h hc
  | bus v => simp only [hm]
  | err => rfl

theorem State.csRead_accepted (hc : s.csCheck who sec mute n off = .ok) (hm : mbxChannel off = none) :
    s.csRead who sec mute n off = (s.afterRead off, s.regValue off, true) := by
  simp only [State.csRead, hc, hm]

theorem State.csRead_mailbox (hc : s.csCheck who sec mute n off = .ok) {k : Nat} (hm : mbxChannel off = some k) :
    s.csRead who sec mute n off = (s.mbxRead who k off, s.regValue off, true) := by
  simp only [State.csRead, hc, hm]

/-- R387: the host's read outside the mailboxes that does not pass the checks fails and returns all ones. -/
theorem State.csRead_failed_host (hc : s.csCheck .host sec mute n off ≠ .ok) (hm : mbxChannel off = none) :
    s.csRead .host sec mute n off = (s.csFailed .host off, 0xFFFFFFFF, false) := by
  unfold State.csRead
  cases h : s.csCheck .host sec mute n off with
  | ok => exact absurd h hc
  | bus v => simp only [hm, if_true]
  | err => rfl

end

/-- With no ended request to settle, `flush` changes nothing. -/
theorem State.flushN_of_ended_nil {s : State} (h : s.ended = []) (k : Nat) : s.flushN k = s := by
  cases k with
  | zero => rfl
  | succ k => simp only [State.flushN, h]

theorem State.initiates_of_running {s : State} (hr : s.running = true) (who : Initiator) : s.initiates who = true := by
  simp [State.initiates, hr]

/-- REGISTER_WRITE and the mailbox writes, while the firmware runs: the write, where it ends no request. -/
theorem State.writeRow_eq {s t : State} {who : Initiator} {sec mute ok : Bool} {n : Width} {off v : Nat}
    (hr : s.running = true) (h : s.csWrite who sec mute n off v = (t, ok)) (he : t.ended = []) :
    s.writeRow who sec mute n off v = t := by
  rw [State.writeRow, if_pos (State.initiates_of_running hr who), h]
  exact State.flushN_of_ended_nil he _

/-- READ_CLEAR and the other reads, while the firmware runs: the read, and its word sent back. -/
theorem State.readRow_eq {s t : State} {who : Initiator} {sec mute ok : Bool} {n : Width} {off v : Nat}
    (hr : s.running = true) (h : s.csRead who sec mute n off = (t, v, ok)) :
    s.readRow who sec mute n off = { t with out := t.out ++ [⟨.bus, who.id, leBytes 4 v⟩] } := by
  rw [State.readRow, if_pos (State.initiates_of_running hr who), h]
  rfl

/-! ### The registers of the statement -/

theorem findReg_hptErRkey : findReg R.HPT_ER_RKEY = some ⟨R.HPT_ER_RKEY, [], .warm, 0, [⟨31, 0, .rw, .any⟩]⟩ := by
  decide +kernel

theorem findReg_hptStat : findReg R.HPT_STAT =
    some ⟨R.HPT_STAT, [], .cold, 0, [⟨31, 31, .ro, .any⟩, ⟨30, 30, .ro, .any⟩, ⟨29, 29, .w1c, .any⟩, ⟨15, 0, .rc, .any⟩]⟩ := by
  decide +kernel

theorem findReg_hptCsErr :
    findReg R.HPT_CS_ERR = some ⟨R.HPT_CS_ERR, [], .warm, 0, [⟨31, 24, .rc, .any⟩, ⟨23, 0, .ro, .any⟩]⟩ := by
  decide +kernel

theorem findReg_tckNumLo : findReg R.TCK_NUM_LO = some ⟨R.TCK_NUM_LO, [], .cold, 0, [⟨31, 0, .ro, .any⟩]⟩ := by
  decide +kernel

/-- HPT_ER_RKEY and HPT_STAT are no registers whose writes do more than store (R8). -/
theorem State.regWrite_plain (s : State) (w : Nat) {off : Nat} (h : off = R.HPT_ER_RKEY ∨ off = R.HPT_STAT) :
    s.regWrite off w = s.fieldWrite off w := by
  have hz : w / 2 ^ 0 * 2 ^ 0 = w := by rw [Nat.pow_zero, Nat.div_one, Nat.mul_one]
  rcases h with rfl | rfl
  · exact congrArg (s.fieldWrite R.HPT_ER_RKEY) hz
  · exact congrArg (s.fieldWrite R.HPT_STAT) hz

theorem State.fieldWrite_hptErRkey (s : State) (v : Word) :
    s.fieldWrite R.HPT_ER_RKEY v.toNat = s.rset R.HPT_ER_RKEY v.toNat := by
  simp only [State.fieldWrite, findReg_hptErRkey, List.foldl_cons, List.foldl_nil, Legal.ok, if_true, bits_word v.isLt,
    State.fset, setBits_word (s.rget_lt _) v.isLt]

theorem State.fieldWrite_hptStat (s : State) (w : Nat) :
    s.fieldWrite R.HPT_STAT w =
      s.fset F.HPT_STAT_RING_ERR (s.fget F.HPT_STAT_RING_ERR &&& (2 ^ 32 - 1 - bits w 29 29)) := by
  simp only [State.fieldWrite, findReg_hptStat, List.foldl_cons, List.foldl_nil]

/-- What one field adds to the word that a read of value `v` returns (R8, R10). -/
def readStep (v a : Nat) (f : FldDesc) : Nat := if f.acc.readable then setBits a f.hi f.lo (bits v f.hi f.lo) else a

theorem readStep_readable {f : FldDesc} (h : f.acc.readable = true) (v a : Nat) :
    readStep v a f = setBits a f.hi f.lo (bits v f.hi f.lo) := if_pos h

theorem State.regValue_eq (s : State) {off v base reset : Nat} {dims : List (Nat × Nat)} {dom : Domain} {fs : List FldDesc}
    (h : findReg off = some ⟨base, dims, dom, reset, fs⟩) (hv : (s.liveValue off).getD (s.rget off) = v) :
    s.regValue off = fs.foldl (readStep v) 0 := by
  rw [State.regValue, h, ← hv]; rfl

theorem State.regValue_hptCsErr (s : State) : s.regValue R.HPT_CS_ERR = s.rget R.HPT_CS_ERR := by
  rw [s.regValue_eq findReg_hptCsErr rfl, List.foldl_cons, List.foldl_cons, List.foldl_nil, readStep_readable rfl,
    readStep_readable rfl]
  exact setBits_split (s.rget_lt _)

theorem State.afterRead_hptCsErr (s : State) : s.afterRead R.HPT_CS_ERR = s.fset F.HPT_CS_ERR_COUNT 0 := by
  simp only [State.afterRead, findReg_hptCsErr]
  rfl

theorem State.regValue_tckNumLo (s : State) : s.regValue R.TCK_NUM_LO = s.tick % 2 ^ 32 := by
  have hlt : s.tick % 2 ^ 32 < 2 ^ 32 := Nat.mod_lt _ (Nat.two_pow_pos 32)
  rw [s.regValue_eq findReg_tckNumLo rfl, List.foldl_cons, List.foldl_nil, readStep_readable rfl]
  exact (congrArg (setBits 0 31 0) (bits_word hlt)).trans (setBits_word (Nat.two_pow_pos 32) hlt)

theorem State.afterRead_tckNumLo (s : State) :
    s.afterRead R.TCK_NUM_LO = s.fset F.TCK_NUM_HI_TICK_HI (s.tick / 2 ^ 32) := if_pos rfl

/-! ### Commands that write and read registers -/

section
variable {s : State} (who : Initiator) (sec : Bool)

/-- R8: HPT_ER_RKEY holds the word written to it. -/
theorem exec_registerWrite_hptErRkey (hr : s.running = true) (he : s.ended = []) (v : Word) :
    ∃ u, exec (.registerWrite who sec false ⟨(BitVec.ofNat 32 R.HPT_ER_RKEY), .word⟩ v) s = .next u
      ∧ u.rget R.HPT_ER_RKEY = v.toNat ∧ SameRegsBut s u [R.HPT_ER_RKEY] ∧ OnlyRegsEvents s u ∧ u.evq = s.evq := by
  have hw : s.csWrite who sec false .word R.HPT_ER_RKEY v.toNat = (s.rset R.HPT_ER_RKEY v.toNat, true) := by
    rw [State.csWrite_accepted (State.csCheck_ok hr (by decide) (by decide) (.inr (by decide))) rfl,
      s.regWrite_plain _ (.inl rfl), s.fieldWrite_hptErRkey]
  refine ⟨_, congrArg Host.Outcome.next (State.writeRow_eq hr hw he), ?_, ?_, rfl, rfl⟩
  · rw [State.rget_rset_same, Nat.mod_eq_of_lt v.isLt]
  · exact (SameRegsBut.refl s _).rset (by simp) _

/-- R8: a 1 written to HPT_STAT.RING_ERR clears it, and no other field. -/
theorem exec_registerWrite_hptStat (hr : s.running = true) (he : s.ended = []) (v : Word) (hv : v.getLsbD 29 = true) :
    ∃ u, exec (.registerWrite who sec false ⟨(BitVec.ofNat 32 R.HPT_STAT), .word⟩ v) s = .next u
      ∧ u.fget F.HPT_STAT_RING_ERR = 0 ∧ u.fget F.HPT_STAT_LINK = s.fget F.HPT_STAT_LINK
      ∧ u.fget F.HPT_STAT_SEND_DISC = s.fget F.HPT_STAT_SEND_DISC ∧ SameRegsBut s u [R.HPT_STAT] ∧ OnlyRegsEvents s u := by
  have hb : bits v.toNat 29 29 = 1 := by
    rw [BitVec.getLsbD, Nat.testBit_eq_decide_div_mod_eq, decide_eq_true_eq] at hv
    exact hv
  have hclear : s.fget F.HPT_STAT_RING_ERR &&& (2 ^ 32 - 1 - bits v.toNat 29 29) = 0 := by
    rw [hb]; exact one_bit_cleared (bits_lt _ 29 29)
  have hw : s.csWrite who sec false .word R.HPT_STAT v.toNat = (s.fset F.HPT_STAT_RING_ERR 0, true) := by
    rw [State.csWrite_accepted (State.csCheck_ok hr (by decide) (by decide) (.inr (by decide))) rfl,
      s.regWrite_plain _ (.inr rfl), s.fieldWrite_hptStat, hclear]
  refine ⟨_, congrArg Host.Outcome.next (State.writeRow_eq hr hw he), ?_, ?_, ?_, ?_, rfl⟩
  · exact s.fget_fset_self (by decide) (by decide)
  · exact s.fget_fset_apart _ (by decide)
  · exact s.fget_fset_apart _ (by decide)
  · exact (SameRegsBut.refl s _).fset (by simp) _

/-- R8: reading HPT_CS_ERR returns its word and clears COUNT. -/
theorem exec_readClear_hptCsErr (hr : s.running = true) :
    ∃ u, exec (.readClear who sec false ⟨(BitVec.ofNat 32 R.HPT_CS_ERR), .word⟩) s = .next u
      ∧ u.fget F.HPT_CS_ERR_COUNT = 0 ∧ u.fget F.HPT_CS_ERR_OFFSET = s.fget F.HPT_CS_ERR_OFFSET
      ∧ SameRegsBut s u [R.HPT_CS_ERR]
      ∧ u = { s with regs := u.regs, out := s.out ++ [⟨.bus, who.id, leBytes 4 (s.rget R.HPT_CS_ERR)⟩] } := by
  have hw : s.csRead who sec false .word R.HPT_CS_ERR = (s.fset F.HPT_CS_ERR_COUNT 0, s.rget R.HPT_CS_ERR, true) := by
    rw [State.csRead_accepted (State.csCheck_ok hr (by decide) (by decide) (.inr (by decide))) rfl,
      s.afterRead_hptCsErr, s.regValue_hptCsErr]
  refine ⟨_, congrArg Host.Outcome.next (State.readRow_eq hr hw), ?_, ?_, ?_, rfl⟩
  · exact s.fget_fset_self (by decide) (by decide)
  · exact s.fget_fset_apart _ (by decide)
  · exact (SameRegsBut.refl s _).fset (f := F.HPT_CS_ERR_COUNT) (by simp) 0

/-- R445: reading TCK_NUM_LO latches the rest of the tick in TCK_NUM_HI. -/
theorem exec_tckNumLoRead (hr : s.running = true) :
    ∃ u, exec (.tckNumLoRead ⟨who, false⟩) s = .next u ∧ u.fget F.TCK_NUM_HI_TICK_HI = s.tick / 2 ^ 32 % 65536
      ∧ SameRegsBut s u [R.TCK_NUM_HI]
      ∧ u = { s with regs := u.regs, out := s.out ++ [⟨.bus, who.id, leBytes 4 (s.tick % 2 ^ 32)⟩] } := by
  have hw : s.csRead who false false .word R.TCK_NUM_LO =
      (s.fset F.TCK_NUM_HI_TICK_HI (s.tick / 2 ^ 32), s.tick % 2 ^ 32, true) := by
    rw [State.csRead_accepted (State.csCheck_ok hr (by decide) (by decide) (.inr (by decide))) rfl,
      s.afterRead_tckNumLo, s.regValue_tckNumLo]
  refine ⟨_, congrArg Host.Outcome.next (State.readRow_eq hr hw), ?_, ?_, rfl⟩
  · exact s.fget_fset_same F.TCK_NUM_HI_TICK_HI _ (by decide) (by decide)
  · exact (SameRegsBut.refl s _).fset (f := F.TCK_NUM_HI_TICK_HI) (by simp) _

end

/-! ### Accesses that fail (R387, R445) -/

/-- What a failed access of the host does: HPT_CS_ERR counts it and holds its offset, and event 0x0A05 tells it. -/
theorem State.csFailed_host {s : State} (off : Nat) (hr : s.eventRoom 1) :
    OnlyRegsEvents s (s.csFailed .host off) ∧ SameRegsBut s (s.csFailed .host off) [R.HPT_CS_ERR]
      ∧ (s.csFailed .host off).fget F.HPT_CS_ERR_COUNT = satAdd 0xFF (s.fget F.HPT_CS_ERR_COUNT) 1
      ∧ (s.csFailed .host off).fget F.HPT_CS_ERR_OFFSET = off % 2 ^ 24
      ∧ Raises s (s.csFailed .host off) [(0x0A05, none, 0, [])] := by
  have hroom : ((s.fadd F.HPT_CS_ERR_COUNT 1).fset F.HPT_CS_ERR_OFFSET off).eventRoom 1 := hr
  have hf := fun f => State.fget_of_regs (State.raise_regs_of_room hroom 0x0A05 none 0 []) f
  simp only [State.csFailed, if_true]
  refine ⟨?_, ?_, ?_, ?_, ?_⟩
  · exact (((OnlyRegsEvents.refl s).fadd _ _).fset _ _).raise ..
  · exact (((SameRegsBut.refl s [R.HPT_CS_ERR]).fadd (by simp) _).fset (by simp) _).raise hroom _ _ _ _
  · rw [hf]
    exact (State.fget_fset_apart _ _ (by decide)).trans (s.fget_fadd_self _ (by decide))
  · rw [hf]
    exact State.fget_fset_same _ _ _ (by decide) (by decide)
  · exact raises_raise hroom 0x0A05 none 0 []

section
variable {s : State} (sec : Bool) {mute : Bool} {n : Width} {off : Word}

theorem exec_registerWrite_failed_host (hr : s.running = true) (he : s.ended = []) (hm : mbxChannel off.toNat = none)
    (hbad : n ≠ Width.word ∨ mute = true ∨ reservedRange off.toNat = true) (hroom : s.eventRoom 1) (v : Word) :
    ∃ u, exec (.registerWrite .host sec mute ⟨off, n⟩ v) s = .next u ∧ OnlyRegsEvents s u
      ∧ SameRegsBut s u [R.HPT_CS_ERR] ∧ u.fget F.HPT_CS_ERR_COUNT = satAdd 0xFF (s.fget F.HPT_CS_ERR_COUNT) 1
      ∧ u.fget F.HPT_CS_ERR_OFFSET = off.toNat % 2 ^ 24 ∧ Raises s u [(0x0A05, none, 0, [])] := by
  have h := State.csFailed_host (s := s) off.toNat hroom
  have hended : (s.csFailed .host off.toNat).ended = [] := by rw [h.1]; exact he
  exact ⟨_, congrArg Host.Outcome.next
    (State.writeRow_eq hr (State.csWrite_failed (s.csCheck_ne_ok .host sec hbad) hm) hended), h⟩

theorem exec_readClear_failed_host (hr : s.running = true) (hm : mbxChannel off.toNat = none)
    (hbad : n ≠ Width.word ∨ mute = true ∨ reservedRange off.toNat = true) (hroom : s.eventRoom 1) :
    ∃ u, exec (.readClear .host sec mute ⟨off, n⟩) s = .next u ∧ OnlyRegsEvents { s with out := u.out } u
      ∧ SameRegsBut s u [R.HPT_CS_ERR] ∧ u.out = s.out ++ [⟨.bus, Initiator.host.id, leBytes 4 0xFFFFFFFF⟩] := by
  obtain ⟨hframe, hregs, -⟩ := State.csFailed_host (s := s) off.toNat hroom
  refine ⟨_, congrArg Host.Outcome.next (State.readRow_eq hr (State.csRead_failed_host (s.csCheck_ne_ok .host sec hbad) hm)),
    ?_, hregs, ?_⟩
  · unfold OnlyRegsEvents at *
    rw [hframe]
  · have hout : (s.csFailed .host off.toNat).out = s.out := by rw [hframe]
    exact congrArg (· ++ _) hout

/-- R445: a failed write of a management core or of the SEC is a data abort of its initiator. -/
theorem exec_registerWrite_failed_other (hr : s.running = true) (he : s.ended = []) (hm : mbxChannel off.toNat = none)
    (hbad : n ≠ Width.word ∨ mute = true ∨ reservedRange off.toNat = true) {who : Initiator} (hw : who ≠ .host) (v : Word) :
    ∃ u, exec (.registerWrite who sec mute ⟨off, n⟩ v) s = .next u ∧ Sends s u .bus (0x200 + who.id) [] := by
  have hfail : s.csFailed who off.toNat = s.emitOut .bus (0x200 + who.id) [] := if_neg hw
  have hc := State.csWrite_failed (w := v.toNat) (s.csCheck_ne_ok who sec hbad) hm
  rw [hfail] at hc
  exact ⟨_, congrArg Host.Outcome.next (State.writeRow_eq hr hc he), rfl⟩

end

/-! ### Mailboxes (R400 to R402, Table 13-11) -/

/-- The state with the claims of the mailboxes, and when each began, replaced. -/
def State.withClaims (s : State) (c : Tbl Nat) : State := { s with hpt := { s.hpt with claims := c } }

theorem mem_pair_right (a b : Nat) : b ∈ [a, b] := List.mem_cons_of_mem _ (List.mem_singleton_self b)

/-- The state in which `who` has claimed mailbox `n` with low word `w`. -/
def State.mbxClaimedBy (s : State) (who : Initiator) (n w : Nat) : State :=
  (((s.rset (R.MBX_LO n) w).fset (F.MBX_STAT_CLAIMED n) 1).fset (F.MBX_STAT_CLAIMANT n) who.id).withClaims
    (s.hpt.claims.set n s.timeUs)

/-- The state in which mailbox `n` is full, with high word `hi`, and its claim has ended. -/
def State.mbxFilled (s : State) (n hi : Nat) : State :=
  (((s.rset (R.MBX_HI n) hi).fset (F.MBX_STAT_FULL n) 1).fset (F.MBX_STAT_CLAIMED n) 0).withClaims (s.hpt.claims.erase n)

/-- The sixteen bytes of a channel. -/
theorem mbxChannel_eq (n : Channel) {k : Nat} (h : k < 16) : mbxChannel (0x200000 + k + 16 * n.val) = some n.val := by
  have hn := n.isLt
  rw [mbxChannel, if_pos (by omega)]
  congr 1
  omega

/-- A word of a mailbox that its initiator may reach (R401) passes the checks. -/
theorem State.csCheck_mailbox {s : State} (hr : s.running = true) {who : Initiator} {sec : Bool} {n : Channel}
    (hn : n.val < 16 ∨ secureWorld who sec = true) {k : Nat} (hk : k < 16) (h4 : k % 4 = 0) :
    s.csCheck who sec false .word (0x200000 + k + 16 * n.val) = .ok := by
  have h := n.isLt
  exact State.csCheck_ok hr (by omega) (by omega) (hn.elim (fun h' => .inr (by omega)) .inl)

section
variable {s : State} {who : Initiator} {n : Nat}

theorem State.mbxWrite_full (h : s.fget (F.MBX_STAT_FULL n) = 1) (off w : Nat) :
    s.mbxWrite who n off w = (s.mbxError who n, false) := by
  simp only [State.mbxWrite, h, beq_self_eq_true, if_true]

/-- A write of MBX_LO claims a free mailbox and notes when. -/
theorem State.mbxWrite_claim (hf : s.fget (F.MBX_STAT_FULL n) = 0) (hc : s.fget (F.MBX_STAT_CLAIMED n) = 0) (w : Nat) :
    s.mbxWrite who n (R.MBX_LO n) w = (s.mbxClaimedBy who n w, true) := by
  have hoff : R.MBX_LO n % 16 = 0 := by unfold R.MBX_LO; omega
  simp [State.mbxWrite, hf, hc, hoff, State.mbxClaimedBy, State.withClaims]

/-- The claimant's write of MBX_HI posts the slug. -/
theorem State.mbxWrite_post (hf : s.fget (F.MBX_STAT_FULL n) = 0) (hc : s.fget (F.MBX_STAT_CLAIMED n) = 1)
    (hw : s.fget (F.MBX_STAT_CLAIMANT n) = who.id) (w : Nat) :
    s.mbxWrite who n (R.MBX_HI n) w = (s.mbxPost who n w, true) := by
  have hoff : R.MBX_HI n % 16 = 4 := by unfold R.MBX_HI; omega
  simp [State.mbxWrite, hf, hc, hw, hoff]

/-- The registers of a mailbox stand at different offsets. -/
theorem mbxStat_ne (n : Nat) : R.MBX_LO n ≠ R.MBX_STAT n ∧ R.MBX_HI n ≠ R.MBX_STAT n ∧ R.MBX_CFG n ≠ R.MBX_STAT n
    ∧ R.MBX_CFG n ≠ R.MBX_HI n := by
  unfold R.MBX_LO R.MBX_HI R.MBX_CFG R.MBX_STAT; omega

theorem State.mbxFilled_regs (s : State) (n hi : Nat) : (s.mbxFilled n hi).regs =
    (((s.rset (R.MBX_HI n) hi).fset (F.MBX_STAT_FULL n) 1).fset (F.MBX_STAT_CLAIMED n) 0).regs := rfl

theorem State.mbxFilled_rcv (s : State) (n hi : Nat) :
    (s.mbxFilled n hi).fget (F.MBX_CFG_RCV n) = s.fget (F.MBX_CFG_RCV n) := by
  obtain ⟨-, -, hstat, hhi⟩ := mbxStat_ne n
  rw [State.fget_of_regs (s.mbxFilled_regs n hi), State.fget_fset_reg (f := F.MBX_STAT_CLAIMED n) _ hstat,
    State.fget_fset_reg (f := F.MBX_STAT_FULL n) _ hstat, State.fget_rset_reg _ hhi]

theorem State.mbxFilled_hi (s : State) (n : Nat) {hi : Nat} (h : hi < 2 ^ 32) : (s.mbxFilled n hi).rget (R.MBX_HI n) = hi := by
  obtain ⟨-, hne, -⟩ := mbxStat_ne n
  rw [State.rget_of_regs (s.mbxFilled_regs n hi), State.rget_fset_ne (f := F.MBX_STAT_CLAIMED n) _ hne,
    State.rget_fset_ne (f := F.MBX_STAT_FULL n) _ hne, State.rget_rset_same, Nat.mod_eq_of_lt h]

theorem State.mbxFilled_full (s : State) (n hi : Nat) : (s.mbxFilled n hi).fget (F.MBX_STAT_FULL n) = 1 := by
  rw [State.fget_of_regs (s.mbxFilled_regs n hi)]
  exact (State.fget_fset_apart _ _ (by decide)).trans (State.fget_fset_self _ (by decide) (by decide))

theorem State.mbxFilled_claimed (s : State) (n hi : Nat) : (s.mbxFilled n hi).fget (F.MBX_STAT_CLAIMED n) = 0 := by
  rw [State.fget_of_regs (s.mbxFilled_regs n hi)]
  exact State.fget_fset_self _ (by decide) (by decide)

theorem State.mbxFilled_sameRegs (s : State) (n hi : Nat) : SameRegsBut s (s.mbxFilled n hi) [R.MBX_HI n, R.MBX_STAT n] :=
  ((((SameRegsBut.refl s [R.MBX_HI n, R.MBX_STAT n]).rset List.mem_cons_self hi).fset (f := F.MBX_STAT_FULL n)
    (mem_pair_right _ _) 1).fset (f := F.MBX_STAT_CLAIMED n) (mem_pair_right _ _) 0).of_regs (s.mbxFilled_regs n hi)

theorem State.mbxClaimedBy_regs (s : State) (who : Initiator) (n w : Nat) : (s.mbxClaimedBy who n w).regs =
    (((s.rset (R.MBX_LO n) w).fset (F.MBX_STAT_CLAIMED n) 1).fset (F.MBX_STAT_CLAIMANT n) who.id).regs := rfl

theorem State.mbxClaimedBy_lo (s : State) (who : Initiator) (n : Nat) {w : Nat} (h : w < 2 ^ 32) :
    (s.mbxClaimedBy who n w).rget (R.MBX_LO n) = w := by
  obtain ⟨hne, -⟩ := mbxStat_ne n
  rw [State.rget_of_regs (s.mbxClaimedBy_regs who n w), State.rget_fset_ne (f := F.MBX_STAT_CLAIMANT n) _ hne,
    State.rget_fset_ne (f := F.MBX_STAT_CLAIMED n) _ hne, State.rget_rset_same, Nat.mod_eq_of_lt h]

theorem State.mbxClaimedBy_claimed (s : State) (who : Initiator) (n w : Nat) :
    (s.mbxClaimedBy who n w).fget (F.MBX_STAT_CLAIMED n) = 1 := by
  rw [State.fget_of_regs (s.mbxClaimedBy_regs who n w)]
  exact (State.fget_fset_apart _ _ (by decide)).trans (State.fget_fset_self _ (by decide) (by decide))

theorem State.mbxClaimedBy_claimant (s : State) (who : Initiator) (n w : Nat) :
    (s.mbxClaimedBy who n w).fget (F.MBX_STAT_CLAIMANT n) = who.id := by
  rw [State.fget_of_regs (s.mbxClaimedBy_regs who n w)]
  exact State.fget_fset_self _ (by decide) (initiator_id_lt who)

theorem State.mbxClaimedBy_sameRegs (s : State) (who : Initiator) (n w : Nat) :
    SameRegsBut s (s.mbxClaimedBy who n w) [R.MBX_LO n, R.MBX_STAT n] :=
  ((((SameRegsBut.refl s [R.MBX_LO n, R.MBX_STAT n]).rset List.mem_cons_self w).fset (f := F.MBX_STAT_CLAIMED n)
    (mem_pair_right _ _) 1).fset (f := F.MBX_STAT_CLAIMANT n) (mem_pair_right _ _) who.id).of_regs
    (s.mbxClaimedBy_regs who n w)

/-- A slug for a receiver other than the host is told on the bus (R401). -/
theorem State.mbxPost_eq (hrcv : s.fget (F.MBX_CFG_RCV n) ≠ 0x20) (w : Nat) :
    s.mbxPost who n w = (s.mbxFilled n (who.id * 2 ^ 24 + w % 2 ^ 24)).emitOut .bus (0x100 + s.fget (F.MBX_CFG_RCV n))
      (leBytes 1 n) := by
  rw [← State.mbxFilled_rcv s n (who.id * 2 ^ 24 + w % 2 ^ 24)] at hrcv ⊢
  exact if_neg hrcv

/-- The receiver's read of MBX_HI empties the mailbox. -/
theorem State.mbxRead_hi (hf : s.fget (F.MBX_STAT_FULL n) = 1) (hw : s.fget (F.MBX_CFG_RCV n) = who.id) :
    s.mbxRead who n (R.MBX_HI n) = s.fset (F.MBX_STAT_FULL n) 0 :=
  if_pos ⟨by unfold R.MBX_HI; omega, hf, hw⟩

end

section
variable {s : State} {who : Initiator} {sec : Bool} {n : Channel}

theorem exec_mbxLoWrite_claims (hr : s.running = true) (hn : n.val < 16 ∨ secureWorld who sec = true) (he : s.ended = [])
    (hf : s.fget (F.MBX_STAT_FULL n) = 0) (hc : s.fget (F.MBX_STAT_CLAIMED n) = 0) (v : Word) :
    ∃ u, exec (.mbxLoWrite n ⟨who, false⟩ sec v) s = .next u ∧ u.rget (R.MBX_LO n) = v.toNat
      ∧ u.fget (F.MBX_STAT_CLAIMED n) = 1 ∧ u.fget (F.MBX_STAT_CLAIMANT n) = who.id
      ∧ SameRegsBut s u [R.MBX_LO n, R.MBX_STAT n] ∧ SameButHost s u ∧ u.hpt.claims.find n = some s.timeUs := by
  have hw := State.csWrite_mailbox_done (State.csCheck_mailbox hr hn (k := 0) (by decide) (by decide))
    (mbxChannel_eq n (by decide)) (State.mbxWrite_claim (who := who) hf hc v.toNat)
  exact ⟨_, congrArg Host.Outcome.next (State.writeRow_eq hr hw he), s.mbxClaimedBy_lo who n v.isLt,
    s.mbxClaimedBy_claimed who n v.toNat, s.mbxClaimedBy_claimant who n v.toNat, s.mbxClaimedBy_sameRegs who n v.toNat, rfl,
    Tbl.find_set_same _ _ _⟩

theorem exec_mbxHiWrite_posts (hr : s.running = true) (hn : n.val < 16 ∨ secureWorld who sec = true) (he : s.ended = [])
    (hf : s.fget (F.MBX_STAT_FULL n) = 0) (hc : s.fget (F.MBX_STAT_CLAIMED n) = 1)
    (hw : s.fget (F.MBX_STAT_CLAIMANT n) = who.id) (hrcv : s.fget (F.MBX_CFG_RCV n) ≠ 0x20) (v : Word) :
    ∃ u, exec (.mbxHiWrite n ⟨who, false⟩ sec v) s = .next u
      ∧ u.rget (R.MBX_HI n) = who.id * 2 ^ 24 + v.toNat % 2 ^ 24 ∧ u.fget (F.MBX_STAT_FULL n) = 1
      ∧ u.fget (F.MBX_STAT_CLAIMED n) = 0 ∧ SameButHost s u ∧ SameRegsBut s u [R.MBX_HI n, R.MBX_STAT n]
      ∧ u.out = s.out ++ [⟨.bus, 0x100 + s.fget (F.MBX_CFG_RCV n), leBytes 1 n⟩] := by
  have hlt : who.id * 2 ^ 24 + v.toNat % 2 ^ 24 < 2 ^ 32 := by have := initiator_id_lt who; omega
  have hpost := State.mbxWrite_post hf hc hw v.toNat
  rw [State.mbxPost_eq hrcv] at hpost
  have hcs := State.csWrite_mailbox_done (State.csCheck_mailbox hr hn (k := 4) (by decide) (by decide))
    (mbxChannel_eq n (by decide)) hpost
  generalize who.id * 2 ^ 24 + v.toNat % 2 ^ 24 = hi at hlt hcs ⊢
  have hregs : ((s.mbxFilled n hi).emitOut .bus (0x100 + s.fget (F.MBX_CFG_RCV n)) (leBytes 1 n)).regs
    = (s.mbxFilled n hi).regs := rfl
  exact ⟨_, congrArg Host.Outcome.next (State.writeRow_eq hr hcs he), (State.rget_of_regs hregs _).trans (s.mbxFilled_hi n hlt),
    (State.fget_of_regs hregs _).trans (s.mbxFilled_full n hi), (State.fget_of_regs hregs _).trans (s.mbxFilled_claimed n hi),
    rfl, (s.mbxFilled_sameRegs n hi).of_regs hregs, rfl⟩

theorem exec_mbxHiRead_empties (hr : s.running = true) (hn : n.val < 16 ∨ secureWorld who sec = true)
    (hf : s.fget (F.MBX_STAT_FULL n) = 1) (hw : s.fget (F.MBX_CFG_RCV n) = who.id) :
    ∃ u, exec (.mbxHiRead n ⟨who, false⟩ sec) s = .next u ∧ u.fget (F.MBX_STAT_FULL n) = 0
      ∧ SameRegsBut s u [R.MBX_STAT n]
      ∧ u = { s with regs := u.regs, out := s.out ++ [⟨.bus, who.id, leBytes 4 (s.regValue (R.MBX_HI n))⟩] } := by
  have hcs := State.csRead_mailbox (State.csCheck_mailbox hr hn (k := 4) (by decide) (by decide))
    (mbxChannel_eq n (by decide))
  rw [show s.mbxRead who n (0x200000 + 4 + 16 * n.val) = _ from State.mbxRead_hi hf hw] at hcs
  refine ⟨_, congrArg Host.Outcome.next (State.readRow_eq hr hcs), ?_, ?_, rfl⟩
  · exact s.fget_fset_self (by decide) (by decide)
  · exact (SameRegsBut.refl s [R.MBX_STAT n]).fset (f := F.MBX_STAT_FULL n) (by simp) 0

/-- R402: a claim held for 100 µs ends, its slug's low word is cleared, and event 0x0A03 tells it. -/
theorem exec_mbxClaimTimeout_ends {t : Nat} (ht : s.hpt.claims.find n = some t) (hlate : t + 100 ≤ s.timeUs)
    (hc : s.fget (F.MBX_STAT_CLAIMED n) = 1) (hroom : s.eventRoom 1) :
    ∃ u, exec (.mbxClaimTimeout n) s = .next u ∧ u.fget (F.MBX_STAT_CLAIMED n) = 0 ∧ u.rget (R.MBX_LO n) = 0
      ∧ SameButHost s u ∧ SameRegsBut s u [R.MBX_LO n, R.MBX_STAT n] ∧ Raises s u [(0x0A03, none, n.val, [])] := by
  have hexec : exec (.mbxClaimTimeout n) s = .next
      ((((s.withClaims (s.hpt.claims.erase n)).fset (F.MBX_STAT_CLAIMED n) 0).rset (R.MBX_LO n) 0).raise 0x0A03 none n []) := by
    change execMbxClaimTimeout n s = _
    simp only [execMbxClaimTimeout, ht, if_pos (And.intro hlate hc), State.withClaims]
  rw [State.raise_of_room (by exact hroom)] at hexec
  obtain ⟨hlo, -⟩ := mbxStat_ne n
  refine ⟨_, hexec, ?_, ?_, rfl, ?_, ?_⟩
  · exact (State.fget_rset_reg _ hlo.symm 0).trans (s.fget_fset_self (by decide) (by decide))
  · exact State.rget_rset_same (s.fset (F.MBX_STAT_CLAIMED n) 0) (R.MBX_LO n) 0
  · exact ((SameRegsBut.refl s [R.MBX_LO n, R.MBX_STAT n]).fset (f := F.MBX_STAT_CLAIMED n) (by simp) 0).rset (by simp) 0
  · exact List.map_append

end

/-- R402: what a bus error of the host on a mailbox does, before its access fails. -/
theorem State.mbxError_host {s : State} {n : Nat} (hf : s.fget (F.MBX_STAT_FULL n) = 1) (hroom : s.eventRoom 2) :
    OnlyRegsEvents s (s.mbxError .host n) ∧ SameRegsBut s (s.mbxError .host n) [R.MBX_STAT n]
      ∧ (s.mbxError .host n).fget (F.MBX_STAT_FULL n) = 1
      ∧ (s.mbxError .host n).fget (F.MBX_STAT_ERR_CNT n) = satAdd 0xFF (s.fget (F.MBX_STAT_ERR_CNT n)) 1
      ∧ Raises s (s.mbxError .host n) [(0x0A02, none, n, [])] ∧ (s.mbxError .host n).eventRoom 1 := by
  have hr2 : (s.fadd (F.MBX_STAT_ERR_CNT n) 1).eventRoom 2 := hroom
  have hr1 : (s.fadd (F.MBX_STAT_ERR_CNT n) 1).eventRoom 1 := Nat.le_of_succ_le hroom
  have hfg := fun f => State.fget_of_regs (State.raise_regs_of_room hr1 0x0A02 none n []) f
  simp only [State.mbxError, if_true]
  refine ⟨?_, ?_, ?_, ?_, ?_, State.eventRoom_raise hr2 ..⟩
  · exact ((OnlyRegsEvents.refl s).fadd _ _).raise ..
  · exact ((SameRegsBut.refl s [R.MBX_STAT n]).fadd (by simp) _).raise hr1 _ _ _ _
  · rw [hfg]
    exact (s.fget_fset_apart _ (by decide)).trans hf
  · rw [hfg]
    exact s.fget_fadd_self _ (by decide)
  · exact raises_raise hr1 0x0A02 none n []

/-- R402: while a mailbox is FULL, the host's write of any of its registers is a bus error, which it counts and tells. -/
theorem exec_registerWrite_full_mailbox {s : State} {sec : Bool} {n : Channel} (hr : s.running = true) (hn : n.val < 16)
    (he : s.ended = []) (hf : s.fget (F.MBX_STAT_FULL n) = 1) (hroom : s.eventRoom 2) (v : Word) {k : Nat} (hk : k < 16)
    (h4 : k % 4 = 0) :
    ∃ u, exec (.registerWrite .host sec false ⟨(BitVec.ofNat 32 (0x200000 + k + 16 * n.val)), .word⟩ v) s = .next u
      ∧ OnlyRegsEvents s u ∧ SameRegsBut s u [R.MBX_STAT n, R.HPT_CS_ERR] ∧ u.fget (F.MBX_STAT_FULL n) = 1
      ∧ u.fget (F.MBX_STAT_ERR_CNT n) = satAdd 0xFF (s.fget (F.MBX_STAT_ERR_CNT n)) 1
      ∧ Raises s u [(0x0A02, none, n.val, []), (0x0A05, none, 0, [])] := by
  obtain ⟨hframe, hregs, hfull, hcnt, hev, hroom1⟩ := State.mbxError_host hf hroom
  obtain ⟨hframe', hregs', -, -, hev'⟩ := State.csFailed_host (0x200000 + k + 16 * n.val) hroom1
  have hcs := State.csWrite_mailbox_refused (State.csCheck_mailbox hr (who := .host) (sec := sec) (.inl hn) hk h4)
    (mbxChannel_eq n hk) (State.mbxWrite_full (who := .host) hf (0x200000 + k + 16 * n.val) v.toNat)
  have honly := hframe.trans hframe'
  have hended : ((s.mbxError .host n).csFailed .host (0x200000 + k + 16 * n.val)).ended = [] := by rw [honly]; exact he
  have hoff : (BitVec.ofNat 32 (0x200000 + k + 16 * n.val)).toNat = 0x200000 + k + 16 * n.val := by
    rw [BitVec.toNat_ofNat]; omega
  have hstat : R.MBX_STAT n ∉ [R.HPT_CS_ERR] := by rw [List.mem_singleton]; unfold R.MBX_STAT R.HPT_CS_ERR; omega
  refine ⟨_, congrArg Host.Outcome.next ?_, honly, hregs.trans hregs', ?_, ?_, hev.trans hev'⟩
  · rw [hoff]
    exact State.writeRow_eq hr hcs hended
  · rw [State.fget, hregs' _ hstat]; exact hfull
  · rw [State.fget, hregs' _ hstat]; exact hcnt

/-! ### The statement -/

/-- Settles O54: each clause is the rule above of its command. The bus records of a data abort (entry 62) and of a mailbox's
interrupt (entry 75), and the UNIT of the mailbox events (entry 31), are the model's choices. -/
theorem registersAndMailboxes : Obligations.RegistersAndMailboxes := by
  unfold Obligations.RegistersAndMailboxes
  intro who sec s hr
  refine ⟨fun he => ⟨exec_registerWrite_hptErRkey who sec hr he, exec_registerWrite_hptStat who sec hr he, ?_⟩,
    exec_readClear_hptCsErr who sec hr, exec_tckNumLoRead who hr, fun n hn => ⟨fun he => ⟨?_, ?_, ?_⟩, ?_, ?_⟩⟩
  · intro off v mute w hm hbad
    refine ⟨?_, fun hw => exec_registerWrite_failed_other sec hr he hm hbad hw v⟩
    rintro rfl hroom
    exact ⟨exec_registerWrite_failed_host sec hr he hm hbad hroom v, exec_readClear_failed_host sec hr hm hbad hroom⟩
  · exact fun v hf hc => exec_mbxLoWrite_claims hr hn he hf hc v
  · exact fun v hf hc hw hrcv => exec_mbxHiWrite_posts hr hn he hf hc hw hrcv v
  · rintro v hf rfl hroom off hoff
    have hn16 : n.val < 16 := hn.resolve_right Bool.false_ne_true
    have hreg := fun {k : Nat} => exec_registerWrite_full_mailbox (sec := sec) hr hn16 he hf hroom v (k := k)
    simp only [List.mem_cons, List.not_mem_nil, or_false] at hoff
    rcases hoff with rfl | rfl | rfl | rfl
    · exact hreg (k := 0) (by decide) (by decide)
    · exact hreg (k := 4) (by decide) (by decide)
    · exact hreg (k := 8) (by decide) (by decide)
    · exact hreg (k := 12) (by decide) (by decide)
  · exact exec_mbxHiRead_empties hr hn
  · exact fun t ht hlate hc hroom => exec_mbxClaimTimeout_ends ht hlate hc hroom

end Sys2Proof.Machine
end

section
/-!
PROOFS. Rules that the planes and the tick share: left folds that touch a place once, fields apart from those that a command
sets, single bits, what an event leaves, and the rings of commands.
-/

namespace Sys2Proof.Machine

/-! ### Folds -/

section
variable {σ ι α : Type} {f : σ → ι → σ} {l : List ι}

/-- What no step of a fold changes, the fold does not change. -/
theorem foldl_view_same {view : σ → α} (h : ∀ s, ∀ j ∈ l, view (f s j) = view s) (s : σ) : view (l.foldl f s) = view s :=
  List.foldlRecOn (motive := fun t => view t = view s) l f rfl fun t ht j hj => (h t j hj).trans ht

/-- What a single step of a fold changes, the fold changes as that step does. -/
theorem foldl_view_once {view : σ → α} {i : ι} (hi : i ∈ l) (hl : l.Nodup)
    (h : ∀ s, ∀ j ∈ l, j ≠ i → view (f s j) = view s) (s : σ) :
    ∃ t, view t = view s ∧ view (l.foldl f s) = view (f t i) := by
  obtain ⟨a, b, rfl⟩ := List.mem_iff_append.mp hi
  have hnd := List.nodup_append.mp hl
  refine ⟨a.foldl f s, ?_, ?_⟩
  · exact foldl_view_same (fun t j hj => h t j (List.mem_append_left _ hj)
      fun e => hnd.2.2 j hj i List.mem_cons_self e) s
  · rw [List.foldl_append, List.foldl_cons]
    exact foldl_view_same (fun t j hj => h t j (List.mem_append_right _ (List.mem_cons_of_mem _ hj))
      fun e => (List.nodup_cons.mp hnd.2.1).1 (e ▸ hj)) _

/-- A relation that every step of a fold keeps holds between the fold's ends. -/
theorem foldl_rel {rel : σ → σ → Prop} (hrefl : ∀ s, rel s s) (htrans : ∀ {s t u}, rel s t → rel t u → rel s u)
    (h : ∀ s, ∀ j ∈ l, rel s (f s j)) (s : σ) : rel s (l.foldl f s) :=
  List.foldlRecOn (motive := rel s) l f (hrefl s) fun t ht j hj => htrans ht (h t j hj)

end

/-! ### Bits -/

theorem bit_eq_testBit (w i : Nat) : bit w i = w.testBit i := (Nat.testBit_eq_decide_div_mod_eq ..).symm

theorem bit_or_two_pow (w i : Nat) : bit (w ||| 2 ^ i) i = true := by
  rw [bit_eq_testBit, Nat.testBit_or, Nat.testBit_two_pow_self, Bool.or_true]

/-! ### Fields apart -/

/-- Field `p` shares no bit with field `f`. -/
abbrev Fld.Apart (p f : Fld) : Prop :=
  f.lo ≤ f.hi ∧ f.hi < 32 ∧ p.lo ≤ p.hi ∧ (p.off ≠ f.off ∨ p.hi < f.lo ∨ f.hi < p.lo)

/-- A field of a register at 0x1000 or above shares no bit with one of the management registers below. -/
theorem Fld.apart_of_low {p f : Fld} (hp : p.lo ≤ p.hi) (ho : 0x1000 ≤ p.off) (h : f.off < 0x1000 ∧ f.lo ≤ f.hi ∧ f.hi < 32) :
    p.Apart f := ⟨h.2.1, h.2.2, hp, .inl (Nat.ne_of_gt (Nat.lt_of_lt_of_le h.1 ho))⟩

section
variable (s : State) {p f : Fld}

theorem State.fget_fset_of_apart (h : p.Apart f) (v : Nat) : (s.fset f v).fget p = s.fget p := by
  obtain ⟨hf, hlt, hp, hd⟩ := h
  by_cases ho : p.off = f.off
  · exact s.fget_fset_field hf hp hlt (hd.resolve_left fun e => e ho) ho v
  · exact s.fget_fset_reg ho v

theorem State.fget_fadd_of_apart (h : p.Apart f) (n : Nat) : (s.fadd f n).fget p = s.fget p := s.fget_fset_of_apart h _

/-- R25: an event changes no field but those that tell of a dropped one. -/
theorem State.fget_raise (h : p.Apart F.MGT_PLANE_STAT_EVQ_OVF) (h' : p.Apart F.MGT_EVQ_DROP_DROP_COUNT) (code : Nat)
    (ctx : Option Nat) (unit : Nat) (data : List Nat) : (s.raise code ctx unit data).fget p = s.fget p := by
  obtain ⟨-, -, hregs, -⟩ | ⟨-, hdrop⟩ := s.raise_cases code ctx unit data
  · exact State.fget_of_regs hregs p
  · rw [hdrop, State.fget_fadd_of_apart _ h', s.fget_fset_of_apart h]

end

/-! ### Rings (R390) -/

theorem State.ctx_of_ctxs {s u : State} (h : u.ctxs = s.ctxs) (c : Nat) : u.ctx c = s.ctx c := by
  rw [State.ctx, State.ctx, h]

theorem State.ring_of_ctxs {s u : State} (h : u.ctxs = s.ctxs) (c r : Nat) : u.ring c r = s.ring c r := by
  rw [State.ring, State.ring, State.ctx_of_ctxs h]

section
variable (s : State) {c r : Nat}

/-- A ring with a command in hand is one of its context's. -/
theorem State.ring_lt_of_cur {k : Cmd} (h : (s.ring c r).cur = some k) : r < (s.ctx c).rings.length := by
  by_contra hr
  rw [State.ring, List.getD_eq_default _ _ (Nat.le_of_not_lt hr)] at h
  exact absurd h nofun

theorem State.ring_modRing_same {f : Ring → Ring} (h : r < (s.ctx c).rings.length) :
    (s.modRing c r f).ring c r = f (s.ring c r) := by
  rw [State.modRing, State.ring, State.ctx_modCtx_same]
  exact listSet_getD_same _ _ _ _ h

theorem State.ring_modRing_ne {d q : Nat} (f : Ring → Ring) (h : ¬(d = c ∧ q = r)) :
    (s.modRing d q f).ring c r = s.ring c r := by
  by_cases hc : c = d
  · subst hc
    rw [State.modRing, State.ring, State.ctx_modCtx_same]
    exact listSet_getD_ne _ _ _ fun e => h ⟨rfl, e.symm⟩
  · rw [State.modRing, State.ring, State.ctx_modCtx_ne _ hc]; rfl

/-- An update of a context that keeps its rings keeps every ring. -/
theorem State.ring_modCtx {f : Ctx → Ctx} (h : ∀ x, (f x).rings = x.rings) (d : Nat) :
    (s.modCtx d f).ring c r = s.ring c r := by
  by_cases hc : c = d
  · subst hc
    rw [State.ring, State.ctx_modCtx_same, h]; rfl
  · rw [State.ring, State.ctx_modCtx_ne _ hc]; rfl

end

/-! ### Completions (R391, R395, R397) -/

/-- Nothing differs but registers, the contexts, and the event queue with what records it. -/
def OnlyRegsCtxsEvents (s u : State) : Prop :=
  u = { s with regs := u.regs, ctxs := u.ctxs, evq := u.evq, evSeq := u.evSeq, evLog := u.evLog }

theorem OnlyRegsCtxsEvents.refl (s : State) : OnlyRegsCtxsEvents s s := rfl

section
variable {s u : State} (h : OnlyRegsCtxsEvents s u)
include h

theorem OnlyRegsCtxsEvents.mem : u.mem = s.mem := by rw [h]

theorem OnlyRegsCtxsEvents.cores : u.cores = s.cores := by rw [h]

theorem OnlyRegsCtxsEvents.timeUs : u.timeUs = s.timeUs := by rw [h]

end

theorem OnlyRegsCtxsEvents.trans {s u v : State} (h : OnlyRegsCtxsEvents s u) (h' : OnlyRegsCtxsEvents u v) :
    OnlyRegsCtxsEvents s v := by
  unfold OnlyRegsCtxsEvents at *
  rw [h'.trans (by rw [h])]

theorem OnlyRegsCtxsEvents.raise (s : State) (code : Nat) (ctx : Option Nat) (unit : Nat) (data : List Nat) :
    OnlyRegsCtxsEvents s (s.raise code ctx unit data) := by unfold State.raise; split <;> rfl

theorem State.noteBacklog_frame (s : State) (c : Nat) : OnlyRegsCtxsEvents s (s.noteBacklog c) := by
  unfold State.noteBacklog
  split
  · exact OnlyRegsCtxsEvents.trans (u := s.modCtx c fun x => { x with backlogFull := true }) rfl (.raise ..)
  · rfl

theorem State.noteBacklog_ring (s : State) (c d r : Nat) : (s.noteBacklog c).ring d r = s.ring d r := by
  unfold State.noteBacklog
  split
  · exact (State.ring_of_ctxs (State.raise_ctxs ..) d r).trans (s.ring_modCtx (fun _ => by rfl) c)
  · rfl

theorem State.noteBacklog_backlog (s : State) (c : Nat) : ((s.noteBacklog c).ctx c).backlog = (s.ctx c).backlog := by
  unfold State.noteBacklog
  split
  · rw [State.ctx_of_ctxs (State.raise_ctxs ..), State.ctx_modCtx_same]
  · rfl

theorem State.noteBacklog_fget (s : State) (c : Nat) {p : Fld} (h : p.Apart F.MGT_PLANE_STAT_EVQ_OVF)
    (h' : p.Apart F.MGT_EVQ_DROP_DROP_COUNT) : (s.noteBacklog c).fget p = s.fget p := by
  unfold State.noteBacklog
  split
  · exact State.fget_raise _ h h' ..
  · rfl

theorem State.pushRec_frame (s : State) (c : Nat) (r : Rec) : OnlyRegsCtxsEvents s (s.pushRec c r) :=
  OnlyRegsCtxsEvents.trans (u := s.modCtx c fun x => { x with backlog := x.backlog ++ [{ r with tick := s.tick }] }) rfl
    (State.noteBacklog_frame ..)

theorem State.pushRec_ring (s : State) (c : Nat) (x : Rec) (d r : Nat) : (s.pushRec c x).ring d r = s.ring d r :=
  (State.noteBacklog_ring ..).trans (s.ring_modCtx (fun _ => by rfl) c)

theorem State.pushRec_backlog (s : State) (c : Nat) (r : Rec) :
    ((s.pushRec c r).ctx c).backlog = (s.ctx c).backlog ++ [{ r with tick := s.tick }] := by
  rw [State.pushRec, State.noteBacklog_backlog, State.ctx_modCtx_same]

/-- The state in which a command at `stage` has left the count of held commands (R26). -/
def State.uncounted (s : State) (stage : CmdStage) : State :=
  if stage = .heldMgmt then s.fset F.MGT_PLANE_STAT_HELD_CMDS (s.fget F.MGT_PLANE_STAT_HELD_CMDS - 1) else s

theorem State.uncounted_frame (s : State) (st : CmdStage) :
    s.uncounted st = { s with regs := (s.uncounted st).regs } := by unfold State.uncounted; split <;> rfl

theorem State.uncounted_ctxs (s : State) (st : CmdStage) : (s.uncounted st).ctxs = s.ctxs := by
  rw [s.uncounted_frame]

theorem State.uncounted_fget (s : State) (st : CmdStage) {p : Fld} (h : p.Apart F.MGT_PLANE_STAT_HELD_CMDS) :
    (s.uncounted st).fget p = s.fget p := by
  unfold State.uncounted
  split
  · exact s.fget_fset_of_apart h _
  · rfl

section
variable {s : State} {c r : Nat} {k : Cmd} (status detail value : Nat)

theorem State.complete_none (h : (s.ring c r).cur = none) : s.complete c r status detail value = s := by
  simp only [State.complete, h]

theorem State.complete_some (h : (s.ring c r).cur = some k) : s.complete c r status detail value =
    ((s.uncounted k.stage).modRing c r fun g => { g with cur := none }).pushRec c
      ⟨1, k.opc, r, status, k.tag, 0, detail, 0, 0, value⟩ := by
  simp only [State.complete, h]; rfl

variable (s c r)

theorem State.complete_frame : OnlyRegsCtxsEvents s (s.complete c r status detail value) := by
  cases h : (s.ring c r).cur with
  | none => rw [State.complete_none _ _ _ h]; rfl
  | some k =>
    rw [State.complete_some _ _ _ h]
    refine OnlyRegsCtxsEvents.trans (u := (s.uncounted k.stage).modRing c r fun g => { g with cur := none }) ?_
      (State.pushRec_frame ..)
    rw [State.uncounted_frame]; rfl

/-- A completion changes no field but the count of held commands and those that tell of a dropped event. -/
theorem State.complete_fget {p : Fld} (h : p.Apart F.MGT_PLANE_STAT_HELD_CMDS) (h' : p.Apart F.MGT_PLANE_STAT_EVQ_OVF)
    (h2 : p.Apart F.MGT_EVQ_DROP_DROP_COUNT) : (s.complete c r status detail value).fget p = s.fget p := by
  cases hk : (s.ring c r).cur with
  | none => rw [State.complete_none _ _ _ hk]
  | some k =>
    rw [State.complete_some _ _ _ hk]
    exact (State.noteBacklog_fget _ _ h' h2).trans (s.uncounted_fget k.stage h)

theorem State.complete_ring_ne {d q : Nat} (h : ¬(d = c ∧ q = r)) :
    (s.complete d q status detail value).ring c r = s.ring c r := by
  cases hk : (s.ring d q).cur with
  | none => rw [State.complete_none _ _ _ hk]
  | some k =>
    rw [State.complete_some _ _ _ hk, State.pushRec_ring, State.ring_modRing_ne _ _ h]
    exact State.ring_of_ctxs (s.uncounted_ctxs _) c r

variable {s c r}

/-- R391: a command in hand that completes leaves its ring, and its record joins the backlog. -/
theorem State.complete_completes (h : (s.ring c r).cur = some k) :
    Completes s (s.complete c r status detail value) c r k status detail value := by
  have hlt : r < ((s.uncounted k.stage).ctx c).rings.length := by
    rw [State.ctx_of_ctxs (s.uncounted_ctxs _)]; exact s.ring_lt_of_cur h
  have htick : (s.uncounted k.stage).tick = s.tick := by rw [s.uncounted_frame]
  have hctx : (s.uncounted k.stage).ctx c = s.ctx c := State.ctx_of_ctxs (s.uncounted_ctxs _) c
  rw [State.complete_some _ _ _ h]
  constructor
  · rw [State.pushRec_ring, State.ring_modRing_same _ hlt]
  · rw [State.pushRec_backlog, State.modRing, State.ctx_modCtx_same, hctx, State.modCtx_tick, htick]

end

end Sys2Proof.Machine
end

section
/-!
PROOFS. The management plane (R26, R27) and its heartbeat (R384): the rules of the commands that the loss of a plane holds
and frees, and with them the statement PlanesGoDownAndReturn.
-/

namespace Sys2Proof.Machine

/-! ### The cores of the planes -/

theorem State.phase_ne_resetting_of_running {s : State} (h : s.running = true) : s.phase ≠ .resetting := by
  intro hp
  rw [State.running, hp] at h
  exact Bool.noConfusion h

/-- R26: a core that falls silent leaves MGC_ALIVE; the last one's silence is timed. -/
theorem State.mgcSilent_eq {s : State} {m : Nat} (h : bit (s.fget F.MGT_PLANE_STAT_MGC_ALIVE) m = true) :
    ∃ x, s.mgcSilent m =
      { s.fset F.MGT_PLANE_STAT_MGC_ALIVE (s.fget F.MGT_PLANE_STAT_MGC_ALIVE - 2 ^ m) with rst := x } := by
  rw [State.mgcSilent, if_pos h]
  split
  · exact ⟨_, rfl⟩
  · exact ⟨s.rst, rfl⟩

theorem exec_mgcHeartbeatSilent_leaves {s : State} {m : MgcId} (h : bit (s.fget F.MGT_PLANE_STAT_MGC_ALIVE) m = true) :
    ∃ u, exec (.mgcHeartbeatSilent m) s = .next u
      ∧ u.fget F.MGT_PLANE_STAT_MGC_ALIVE = s.fget F.MGT_PLANE_STAT_MGC_ALIVE - 2 ^ m.val ∧ SameCompute s u
      ∧ SameRegsBut s u [R.MGT_PLANE_STAT] := by
  obtain ⟨x, hx⟩ := State.mgcSilent_eq h
  have hlt : s.fget F.MGT_PLANE_STAT_MGC_ALIVE < 2 ^ 4 := bits_lt _ 11 8
  refine ⟨_, congrArg Host.Outcome.next hx, ?_, ⟨rfl, rfl, rfl, rfl⟩, ?_⟩
  · exact s.fget_fset_self (by decide) (Nat.lt_of_le_of_lt (Nat.sub_le _ _) hlt)
  · exact ((SameRegsBut.refl s _).fset (f := F.MGT_PLANE_STAT_MGC_ALIVE) (by simp) _).of_regs rfl

/-- A core's bit joins MGC_ALIVE. -/
theorem State.aliveJoined_bit (s : State) {m : Nat} (hm : m < 4) :
    bit ((s.fset F.MGT_PLANE_STAT_MGC_ALIVE (s.fget F.MGT_PLANE_STAT_MGC_ALIVE ||| 2 ^ m)).fget F.MGT_PLANE_STAT_MGC_ALIVE) m
      = true := by
  have hlt : s.fget F.MGT_PLANE_STAT_MGC_ALIVE ||| 2 ^ m < 2 ^ 4 :=
    Nat.or_lt_two_pow (bits_lt _ 11 8) (Nat.pow_lt_pow_right (by decide) hm)
  rw [State.fget_fset_self (hi := 11) (lo := 8) s (by decide) hlt]
  exact bit_or_two_pow _ m

theorem exec_mgcHeartbeatResumed_joins {s : State} (m : MgcId) (hr : s.running = true)
    (hc : s.fget F.MGT_PLANE_STAT_CTRL_DOWN = 0) (hm : s.fget F.MGT_PLANE_STAT_MGMT_DOWN = 0) :
    ∃ u, exec (.mgcHeartbeatResumed m) s = .next u ∧ bit (u.fget F.MGT_PLANE_STAT_MGC_ALIVE) m = true ∧ SameCompute s u
      ∧ SameRegsBut s u [R.MGT_PLANE_STAT] := by
  have hdown : (if m.val < 2 then s.fget F.MGT_PLANE_STAT_CTRL_DOWN else s.fget F.MGT_PLANE_STAT_MGMT_DOWN) = 0 := by
    split <;> assumption
  have hexec : exec (.mgcHeartbeatResumed m) s
      = .next (s.fset F.MGT_PLANE_STAT_MGC_ALIVE (s.fget F.MGT_PLANE_STAT_MGC_ALIVE ||| 2 ^ m.val)) := by
    change execMgcHeartbeatResumed m s = _
    rw [execMgcHeartbeatResumed, if_neg (State.phase_ne_resetting_of_running hr), if_pos ⟨hdown, hr⟩]
  exact ⟨_, hexec, s.aliveJoined_bit m.isLt, ⟨rfl, rfl, rfl, rfl⟩,
    (SameRegsBut.refl s _).fset (f := F.MGT_PLANE_STAT_MGC_ALIVE) (by simp) _⟩

/-! ### A visit to every ring -/

/-- `f` done to each ring of each context in turn. -/
def State.eachRing (f : State → Nat → Nat → State) (s : State) : State :=
  (List.range 8).foldl (fun s c => (List.range 4).foldl (fun s r => f s c r) s) s

section
variable {α : Type} {f : State → Nat → Nat → State}

theorem State.eachRing_rel {rel : State → State → Prop} (hrefl : ∀ s, rel s s)
    (htrans : ∀ {s t u}, rel s t → rel t u → rel s u) (h : ∀ s c r, rel s (f s c r)) (s : State) :
    rel s (s.eachRing f) :=
  foldl_rel hrefl htrans (fun t c _ => foldl_rel hrefl htrans (fun u r _ => h u c r) t) s

/-- What the visits to the other rings leave as it is changes as the visit to this ring changes it. -/
theorem State.eachRing_view {view : State → α} (c : CtxId) (r : RingId)
    (h : ∀ s d q, ¬(d = c.val ∧ q = r.val) → view (f s d q) = view s) (s : State) :
    ∃ t, view t = view s ∧ view (s.eachRing f) = view (f t c r) := by
  have hother : ∀ t, ∀ d ∈ List.range 8, d ≠ c.val → view ((List.range 4).foldl (fun s q => f s d q) t) = view t :=
    fun t d _ hd => foldl_view_same (fun u q _ => h u d q fun e => hd e.1) t
  obtain ⟨t, ht, hs⟩ := foldl_view_once (List.mem_range.mpr c.isLt) List.nodup_range hother s
  obtain ⟨u, hu, hv⟩ := foldl_view_once (List.mem_range.mpr r.isLt) List.nodup_range
    (fun u q _ hq => h u c q fun e => hq e.2) t
  exact ⟨u, hu.trans ht, hs.trans hv⟩

end

/-- The state field of a context shares no bit with the fields of the registers below the contexts'. -/
theorem ctxStat_apart (c : Nat) {f : Fld} (h : f.off < 0x1000 ∧ f.lo ≤ f.hi ∧ f.hi < 32) : (F.CTX_STAT_STATE c).Apart f :=
  Fld.apart_of_low (Nat.le_add_right 28 3) (Nat.le_add_right 0x1000 (64 * c)) h

/-! ### Commands held as the plane goes down (R26) -/

/-- Nothing differs but registers and the contexts. -/
def OnlyRegsCtxs (s u : State) : Prop := u = { s with regs := u.regs, ctxs := u.ctxs }

theorem OnlyRegsCtxs.refl (s : State) : OnlyRegsCtxs s s := rfl

theorem OnlyRegsCtxs.trans {s u v : State} (h : OnlyRegsCtxs s u) (h' : OnlyRegsCtxs u v) : OnlyRegsCtxs s v := by
  unfold OnlyRegsCtxs at *
  rw [h'.trans (by rw [h])]

/-- The command of ring `r` is held where it waits for cores and no transient state holds its context. -/
def State.holdRing (s : State) (c r : Nat) : State :=
  match (s.ring c r).cur with
  | some k => if k.stage = .waitCores ∧ transientState (s.ctxState c) = false then s.holdCmd c r k else s
  | none => s

theorem State.holdWaiting_eq (s : State) : s.holdWaiting = s.eachRing State.holdRing := rfl

section
variable (s : State) {c r : Nat} {k : Cmd}

theorem State.holdCmd_frame (c r : Nat) (k : Cmd) : OnlyRegsCtxs s (s.holdCmd c r k) := by
  unfold State.holdCmd; split <;> rfl

theorem State.holdCmd_fget {p : Fld} (h : p.Apart F.MGT_PLANE_STAT_HELD_CMDS) (c r : Nat) (k : Cmd) :
    (s.holdCmd c r k).fget p = s.fget p := by
  refine (State.fget_fadd_of_apart _ h 1).trans ?_
  split <;> rfl

theorem State.holdCmd_cur (h : (s.ring c r).cur = some k) (hw : k.stage = .waitCores) :
    ((s.holdCmd c r k).ring c r).cur = some { k with stage := .heldMgmt } := by
  have hlt : r < ((s.modCtx c fun x => { x with launch := none }).ctx c).rings.length := by
    rw [State.ctx_modCtx_same]; exact s.ring_lt_of_cur h
  rw [State.holdCmd, if_pos hw]
  exact (congrArg Ring.cur ((State.ring_of_ctxs (State.fadd_ctxs ..) c r).trans (State.ring_modRing_same _ hlt)) :)

theorem State.holdCmd_ring_ne {d q : Nat} (h : ¬(d = c ∧ q = r)) (k : Cmd) : (s.holdCmd d q k).ring c r = s.ring c r := by
  refine (State.ring_of_ctxs (State.fadd_ctxs ..) c r).trans ((State.ring_modRing_ne _ _ h).trans ?_)
  split
  · exact s.ring_modCtx (fun _ => by rfl) d
  · rfl

theorem State.holdRing_held (h : (s.ring c r).cur = some k) (hw : k.stage = .waitCores)
    (ht : transientState (s.ctxState c) = false) : s.holdRing c r = s.holdCmd c r k := by
  simp only [State.holdRing, h, if_pos (And.intro hw ht)]

theorem State.holdRing_same (h : ∀ k, (s.ring c r).cur = some k → k.stage = .waitCores → transientState (s.ctxState c) = true) :
    s.holdRing c r = s := by
  unfold State.holdRing
  split
  · next k hk => exact if_neg fun hw => Bool.false_ne_true (hw.2.symm.trans (h k hk hw.1))
  · rfl

/-- A visit either holds the ring's command or changes nothing. -/
theorem State.holdRing_cases (c r : Nat) : s.holdRing c r = s ∨ ∃ k, s.holdRing c r = s.holdCmd c r k := by
  unfold State.holdRing
  split
  · next k _ =>
    split
    · exact .inr ⟨k, rfl⟩
    · exact .inl rfl
  · exact .inl rfl

theorem State.holdRing_frame (c r : Nat) : OnlyRegsCtxs s (s.holdRing c r) := by
  obtain h | ⟨k, h⟩ := s.holdRing_cases c r
  · rw [h]; rfl
  · rw [h]; exact s.holdCmd_frame c r k

theorem State.holdRing_fget {p : Fld} (hp : p.Apart F.MGT_PLANE_STAT_HELD_CMDS) (c r : Nat) :
    (s.holdRing c r).fget p = s.fget p := by
  obtain h | ⟨k, h⟩ := s.holdRing_cases c r
  · rw [h]
  · rw [h]; exact s.holdCmd_fget hp c r k

theorem State.holdRing_ctxState (c r d : Nat) : (s.holdRing c r).ctxState d = s.ctxState d :=
  s.holdRing_fget (ctxStat_apart d ⟨by decide, by decide, by decide⟩) c r

theorem State.holdRing_ring_ne {d q : Nat} (hne : ¬(d = c ∧ q = r)) : (s.holdRing d q).ring c r = s.ring c r := by
  obtain h | ⟨k, h⟩ := s.holdRing_cases d q
  · rw [h]
  · rw [h]; exact s.holdCmd_ring_ne hne k

theorem State.holdWaiting_frame : OnlyRegsCtxs s s.holdWaiting :=
  State.eachRing_rel .refl .trans (fun t c r => t.holdRing_frame c r) s

theorem State.holdWaiting_fget {p : Fld} (h : p.Apart F.MGT_PLANE_STAT_HELD_CMDS) : s.holdWaiting.fget p = s.fget p :=
  State.eachRing_rel (rel := fun s u => u.fget p = s.fget p) (fun _ => rfl) (fun h h' => h'.trans h)
    (fun t c r => t.holdRing_fget h c r) s

theorem State.holdWaiting_ctxState (c : Nat) : s.holdWaiting.ctxState c = s.ctxState c :=
  s.holdWaiting_fget (ctxStat_apart c ⟨by decide, by decide, by decide⟩)

/-- What the declaration of R26 does to one ring is what its visit does. -/
theorem State.holdWaiting_ring (c : CtxId) (r : RingId) : ∃ t : State, t.ring c r = s.ring c r ∧ t.ctxState c = s.ctxState c
    ∧ s.holdWaiting.ring c r = (t.holdRing c r).ring c r := by
  obtain ⟨t, ht, hu⟩ := State.eachRing_view (f := State.holdRing) (view := fun u => (u.ring c r, u.ctxState c)) c r
    (fun t d q hne => Prod.ext (t.holdRing_ring_ne hne) (t.holdRing_ctxState d q c)) s
  simp only [Prod.mk.injEq] at ht hu
  rw [State.holdWaiting_eq]
  exact ⟨t, ht.1, ht.2, hu.1⟩

end

/-- R26: detector 11's declaration holds the commands that wait for cores. -/
theorem exec_managementPlaneDown_holds {s : State} (hr : s.running = true)
    (h23 : s.fget F.MGT_PLANE_STAT_MGC_ALIVE / 4 = 0) (h01 : s.fget F.MGT_PLANE_STAT_MGC_ALIVE % 4 ≠ 0)
    (hup : s.fget F.MGT_PLANE_STAT_MGMT_DOWN = 0) (hroom : s.eventRoom 1) :
    ∃ u, exec .managementPlaneDown s = .next u ∧ u.fget F.MGT_PLANE_STAT_MGMT_DOWN = 1
      ∧ bit (u.fget F.MGT_HANG_STAT_DET) 10 = true ∧ Raises s u [(0x0901, none, 0, [11])] ∧ u.mem = s.mem ∧ u.cores = s.cores
      ∧ ∀ (c : CtxId) (r : RingId), u.ctxState c = s.ctxState c
        ∧ (∀ k, (s.ring c r).cur = some k → k.stage = .waitCores → transientState (s.ctxState c) = false →
          (u.ring c r).cur = some { k with stage := .heldMgmt })
        ∧ ((∀ k, (s.ring c r).cur = some k → k.stage = .waitCores → transientState (s.ctxState c) = true) →
          u.ring c r = s.ring c r) := by
  have hexec : exec .managementPlaneDown s = .next (((s.holdWaiting.fset F.MGT_PLANE_STAT_MGMT_DOWN 1).fset
      F.MGT_HANG_STAT_DET (s.fget F.MGT_HANG_STAT_DET ||| 2 ^ 10)).raise 0x0901 none 0 [11]) :=
    congrArg Host.Outcome.next (if_pos ⟨hr, h23, h01, hup⟩)
  have hdet : s.fget F.MGT_HANG_STAT_DET ||| 2 ^ 10 < 2 ^ 11 := Nat.or_lt_two_pow (bits_lt _ 11 1) (by decide)
  have hbit := bit_or_two_pow (s.fget F.MGT_HANG_STAT_DET) 10
  have hframe := s.holdWaiting_frame
  have hring := s.holdWaiting_ring
  have hst := s.holdWaiting_ctxState
  generalize s.fget F.MGT_HANG_STAT_DET ||| 2 ^ 10 = det at hdet hexec hbit
  generalize s.holdWaiting = w at hexec hframe hring hst
  have hroom1 : ((w.fset F.MGT_PLANE_STAT_MGMT_DOWN 1).fset F.MGT_HANG_STAT_DET det).eventRoom 1 := by
    rw [hframe]; exact hroom
  have hfget := State.fget_of_regs (State.raise_regs_of_room hroom1 0x0901 none 0 [11])
  have hctxs := State.raise_ctxs ((w.fset F.MGT_PLANE_STAT_MGMT_DOWN 1).fset F.MGT_HANG_STAT_DET det) 0x0901 none 0 [11]
  refine ⟨_, hexec, ?_, ?_, ?_, ?_, ?_, fun c r => ⟨?_, ?_, ?_⟩⟩
  · rw [hfget, State.fget_fset_of_apart _ (by decide)]
    exact State.fget_fset_self _ (by decide) (by decide)
  · rw [hfget]
    exact (congrArg (bit · 10) (State.fget_fset_self (hi := 11) (lo := 1) _ (by decide) hdet)).trans hbit
  · have hevq : w.evq = s.evq := by rw [hframe]
    rw [Raises, ← hevq]
    exact raises_raise hroom1 0x0901 none 0 [11]
  · rw [State.raise_mem, hframe]; rfl
  · rw [State.raise_cores, hframe]; rfl
  · rw [State.ctxState, hfget, State.fget_fset_of_apart _ (ctxStat_apart c ⟨by decide, by decide, by decide⟩),
      State.fget_fset_of_apart _ (ctxStat_apart c ⟨by decide, by decide, by decide⟩)]
    exact hst c
  · intro k hk hw ht
    obtain ⟨t, htr, hts, hu⟩ := hring c r
    rw [← hts] at ht
    rw [← htr] at hk
    rw [State.ring_of_ctxs hctxs]
    exact (congrArg Ring.cur (hu.trans (congrArg (State.ring · c r) (t.holdRing_held hk hw ht)))).trans (t.holdCmd_cur hk hw)
  · intro hall
    obtain ⟨t, htr, hts, hu⟩ := hring c r
    rw [← hts, ← htr] at hall
    rw [State.ring_of_ctxs hctxs]
    exact hu.trans ((congrArg (State.ring · c r) (t.holdRing_same hall)).trans htr)

/-! ### Commands freed as the plane returns (R26) -/

/-- The command of ring `r` completes where it has been held for 100 ms, and proceeds where it has been held for less. -/
def State.freeRing (s : State) (c r : Nat) : State :=
  if s.heldLong c r then s.complete c r stMgmtUnavailable 0 0
  else s.modRing c r fun g => { g with cur := g.cur.map fun k => if k.stage = .heldMgmt then { k with stage := .taken } else k }

section
variable (s : State) {c r : Nat} {k : Cmd}

theorem State.heldLong_eq (h : (s.ring c r).cur = some k) (hk : k.stage = .heldMgmt) :
    s.heldLong c r = decide (k.since + 100000 ≤ s.timeUs) := by
  simp only [State.heldLong, h, hk, beq_self_eq_true, Bool.true_and]

theorem State.freeRing_frame (c r : Nat) : OnlyRegsCtxsEvents s (s.freeRing c r) := by
  unfold State.freeRing
  split
  · exact s.complete_frame ..
  · rfl

theorem State.freeRing_fget {p : Fld} (h : p.Apart F.MGT_PLANE_STAT_HELD_CMDS) (h' : p.Apart F.MGT_PLANE_STAT_EVQ_OVF)
    (h2 : p.Apart F.MGT_EVQ_DROP_DROP_COUNT) (c r : Nat) : (s.freeRing c r).fget p = s.fget p := by
  unfold State.freeRing
  split
  · exact s.complete_fget _ _ _ _ _ h h' h2
  · rfl

theorem State.freeRing_ring_ne {d q : Nat} (h : ¬(d = c ∧ q = r)) : (s.freeRing d q).ring c r = s.ring c r := by
  unfold State.freeRing
  split
  · exact s.complete_ring_ne _ _ _ _ _ h
  · exact s.ring_modRing_ne _ h

/-- R26: a command that has been held for less than 100 ms proceeds. -/
theorem State.freeRing_cur (h : (s.ring c r).cur = some k) (hk : k.stage = .heldMgmt) (ht : s.timeUs < k.since + 100000) :
    ((s.freeRing c r).ring c r).cur = some { k with stage := .taken } := by
  have hlong : ¬ s.heldLong c r = true := by
    rw [s.heldLong_eq h hk, decide_eq_true_eq]; omega
  rw [State.freeRing, if_neg hlong, s.ring_modRing_same (s.ring_lt_of_cur h)]
  simp only [h, Option.map_some, if_pos hk]

theorem State.freeRings_frame : OnlyRegsCtxsEvents s (s.eachRing State.freeRing) :=
  State.eachRing_rel .refl .trans (fun t c r => t.freeRing_frame c r) s

theorem State.freeRings_fget {p : Fld} (h : p.Apart F.MGT_PLANE_STAT_HELD_CMDS) (h' : p.Apart F.MGT_PLANE_STAT_EVQ_OVF)
    (h2 : p.Apart F.MGT_EVQ_DROP_DROP_COUNT) : (s.eachRing State.freeRing).fget p = s.fget p :=
  State.eachRing_rel (rel := fun s u => u.fget p = s.fget p) (fun _ => rfl) (fun h h' => h'.trans h)
    (fun t c r => t.freeRing_fget h h' h2 c r) s

theorem State.freeRings_cur {c : CtxId} {r : RingId} (h : (s.ring c r).cur = some k) (hk : k.stage = .heldMgmt)
    (ht : s.timeUs < k.since + 100000) : ((s.eachRing State.freeRing).ring c r).cur = some { k with stage := .taken } := by
  obtain ⟨t, hview, hu⟩ := State.eachRing_view (f := State.freeRing) (view := fun u => (u.ring c r, u.timeUs)) c r
    (fun t d q hne => Prod.ext (t.freeRing_ring_ne hne) (t.freeRing_frame d q).timeUs) s
  simp only [Prod.mk.injEq] at hview hu
  rw [hu.1]
  exact t.freeRing_cur (by rw [hview.1]; exact h) hk (by rw [hview.2]; exact ht)

end

/-- The management plane is up again, and MGC2 or MGC3 heard. -/
def State.mgmtBack (s : State) (m : Nat) : State :=
  (s.fset F.MGT_PLANE_STAT_MGMT_DOWN 0).fset F.MGT_PLANE_STAT_MGC_ALIVE (s.fget F.MGT_PLANE_STAT_MGC_ALIVE ||| 2 ^ (2 + m))

section
variable (s : State)

theorem State.mgmtBack_frame (m : Nat) : s.mgmtBack m = { s with regs := (s.mgmtBack m).regs } := rfl

theorem State.mgmtBack_down (m : Nat) : (s.mgmtBack m).fget F.MGT_PLANE_STAT_MGMT_DOWN = 0 :=
  (State.fget_fset_of_apart _ (by decide) _).trans (s.fget_fset_self (by decide) (by decide))

theorem State.mgmtBack_alive (m : Fin 2) : bit ((s.mgmtBack m).fget F.MGT_PLANE_STAT_MGC_ALIVE) (2 + m) = true := by
  rw [State.mgmtBack, ← s.fget_fset_of_apart (f := F.MGT_PLANE_STAT_MGMT_DOWN) (by decide) 0]
  exact State.aliveJoined_bit _ (by omega)

end

theorem execManagementPlaneReturn_eq {s : State} (m : Fin 2) (h : s.fget F.MGT_PLANE_STAT_MGMT_DOWN = 1) :
    execManagementPlaneReturn m s
      = .next (((s.mgmtBack m).eachRing State.freeRing).fset F.MGT_PLANE_STAT_HELD_CMDS 0) :=
  congrArg Host.Outcome.next (if_neg (by rw [h]; exact Nat.one_ne_zero))

theorem exec_managementPlaneReturn_frees {s : State} (m : Fin 2) (hdown : s.fget F.MGT_PLANE_STAT_MGMT_DOWN = 1) :
    ∃ u, exec (.managementPlaneReturn m) s = .next u ∧ u.fget F.MGT_PLANE_STAT_MGMT_DOWN = 0
      ∧ u.fget F.MGT_PLANE_STAT_HELD_CMDS = 0 ∧ u.mem = s.mem ∧ u.cores = s.cores
      ∧ bit (u.fget F.MGT_PLANE_STAT_MGC_ALIVE) (2 + m) = true
      ∧ ∀ (c : CtxId) (r : RingId) (k : Cmd), (s.ring c r).cur = some k → k.stage = .heldMgmt → s.timeUs < k.since + 100000 →
        (u.ring c r).cur = some { k with stage := .taken } := by
  have hexec := execManagementPlaneReturn_eq m hdown
  have hframe := (s.mgmtBack m).freeRings_frame
  have hup := ((s.mgmtBack m).freeRings_fget (by decide) (by decide) (by decide)).trans (s.mgmtBack_down m)
  have halive := (s.mgmtBack m).freeRings_fget (p := F.MGT_PLANE_STAT_MGC_ALIVE) (by decide) (by decide) (by decide)
  have hfreed : ∀ (c : CtxId) (r : RingId) (k : Cmd), (s.ring c r).cur = some k → k.stage = .heldMgmt →
      s.timeUs < k.since + 100000 →
      (((s.mgmtBack m).eachRing State.freeRing).ring c r).cur = some { k with stage := .taken } :=
    fun c r k hk hheld ht => (s.mgmtBack m).freeRings_cur hk hheld ht
  generalize (s.mgmtBack m).eachRing State.freeRing = v at hexec hframe hup halive hfreed
  refine ⟨_, hexec, ?_, ?_, hframe.mem, hframe.cores, ?_, hfreed⟩
  · exact (State.fget_fset_of_apart _ (by decide) _).trans hup
  · exact State.fget_fset_self _ (by decide) (by decide)
  · rw [State.fget_fset_of_apart _ (by decide), halive]
    exact s.mgmtBack_alive m

theorem exec_heldCommandTimeout_completes {s : State} {c : CtxId} {r : RingId} {k : Cmd} (h : (s.ring c r).cur = some k)
    (hk : k.stage = .heldMgmt) (ht : k.since + 100000 ≤ s.timeUs) :
    ∃ u, exec (.heldCommandTimeout c r) s = .next u ∧ Completes s u c r k stMgmtUnavailable 0 0
      ∧ u.fget F.MGT_PLANE_STAT_HELD_CMDS = s.fget F.MGT_PLANE_STAT_HELD_CMDS - 1 ∧ u.mem = s.mem ∧ u.cores = s.cores := by
  have hlong : s.heldLong c r = true := by rw [s.heldLong_eq h hk]; exact decide_eq_true ht
  have hframe := s.complete_frame c r stMgmtUnavailable 0 0
  have hheld : s.fget F.MGT_PLANE_STAT_HELD_CMDS - 1 < 2 ^ 8 := Nat.lt_of_le_of_lt (Nat.sub_le _ _) (bits_lt _ 23 16)
  refine ⟨_, congrArg Host.Outcome.next (if_pos hlong), State.complete_completes _ _ _ h, ?_, hframe.mem, hframe.cores⟩
  rw [State.complete_some _ _ _ h, hk]
  exact (State.noteBacklog_fget _ _ (by decide) (by decide)).trans (s.fget_fset_self (by decide) hheld)

/-! ### The heartbeat (R384) -/

/-- R379: what a free priority sends leaves at once. -/
theorem State.sendFrame_of_free {s : State} {p : Nat} (h : s.prioFree p) (l : List Byte) :
    s.sendFrame p l = { s with out := s.out ++ [⟨.ether, p, l⟩] } := by
  have hheld : s.hpt.held.any (fun x => x.1 == p) = false := by
    rw [List.any_eq_false]
    exact fun x hx e => h.2 x hx (eq_of_beq e)
  rw [State.sendFrame, State.sendHost, if_neg (by rw [h.1, hheld]; decide)]

theorem exec_mgmtHeartbeat_sends {s : State} (hr : s.running = true) (hup : s.fget F.MGT_PLANE_STAT_MGMT_DOWN = 0)
    (hdue : s.hpt.hbAt + 1000 * s.fget F.MGT_HANG_CTRL_HB_PERIOD_MS ≤ s.timeUs) (hfree : s.prioFree 7) :
    ∃ u, exec .mgmtHeartbeat s = .next u
      ∧ u.out = s.out ++ [⟨.ether, 7, s.datagram s.hpt.cfg.mgrAddr s.hpt.cfg.mgmtPort s.heartbeat⟩]
      ∧ u.hpt.hbSeq = (s.hpt.hbSeq + 1) % 2 ^ 32 ∧ u.hpt.hbAt = s.timeUs ∧ u.regs = s.regs ∧ SameCompute s u := by
  have hfree1 : State.prioFree { s with hpt := { s.hpt with hbSeq := (s.hpt.hbSeq + 1) % 2 ^ 32, hbAt := s.timeUs } } 7 := hfree
  refine ⟨_, congrArg Host.Outcome.next ((if_pos ⟨hr, hup, hdue⟩).trans (State.sendFrame_of_free hfree1 _)), rfl, rfl, rfl,
    rfl, rfl, rfl, rfl, rfl⟩

/-! ### The statement -/

/-- Settles O40: each clause is the rule above of its command. Which commands are held as the plane goes down (entry 71), the
UNIT and DATA of event 0x0901 (entry 31) and the datagram's form (entry 62) are the model's choices. -/
theorem planesGoDownAndReturn : Obligations.PlanesGoDownAndReturn := by
  unfold Obligations.PlanesGoDownAndReturn
  intro s
  exact ⟨fun _ => exec_mgcHeartbeatSilent_leaves, fun m => exec_mgcHeartbeatResumed_joins m, exec_managementPlaneDown_holds,
    exec_managementPlaneReturn_frees, fun _ _ _ => exec_heldCommandTimeout_completes, exec_mgmtHeartbeat_sends⟩

end Sys2Proof.Machine
end

section
/-!
PROOFS. What the work of a step boundary leaves as it was (R336, R338, R341, R343): the background tasks of a context send
cells, land bytes and fail, and none of it moves a context between its states or gives or takes a core.
-/

namespace Sys2Proof.Machine

/-! ### The relation -/

/-- The tick, the upsets, the contexts' states, the cores' occupants and every context but `c` are as they were. -/
structure KeepsOthers (c : Nat) (s u : State) : Prop where
  tick : u.tick = s.tick
  ecc : u.ecc = s.ecc
  badSeg : u.badSeg = s.badSeg
  state : ∀ d, u.ctxState d = s.ctxState d
  occupant : ∀ g, u.occupant g = s.occupant g
  others : ∀ d, d ≠ c → u.ctx d = s.ctx d

/-- The request that has ended is one of a background task of context `c`, and it has failed. -/
def TaskFailure (c : Nat) (y : Xfer × XEnd) : Prop := (∃ key, y.1.owner = .task c key) ∧ y.2 = .failed

/-- What background work of context `c` may do: beside what `KeepsOthers` leaves it, it changes of its own context the
collective and resilience state and the marks of suspicion and of a fault, and ends no request but those of its tasks. -/
structure Background (c : Nat) (s u : State) : Prop extends KeepsOthers c s u where
  own : ∃ k m f, u.ctx c = { s.ctx c with coll := k, suspect := m, faultStop := f }
  ended : ∀ y ∈ u.ended, y ∈ s.ended ∨ TaskFailure c y

section
variable {c : Nat} {s t u : State}

theorem KeepsOthers.refl (c : Nat) (s : State) : KeepsOthers c s s := ⟨rfl, rfl, rfl, fun _ => rfl, fun _ => rfl, fun _ _ => rfl⟩

theorem KeepsOthers.trans (h : KeepsOthers c s t) (h' : KeepsOthers c t u) : KeepsOthers c s u where
  tick := h'.tick.trans h.tick
  ecc := h'.ecc.trans h.ecc
  badSeg := h'.badSeg.trans h.badSeg
  state d := (h'.state d).trans (h.state d)
  occupant g := (h'.occupant g).trans (h.occupant g)
  others d hd := (h'.others d hd).trans (h.others d hd)

theorem KeepsOthers.clean (h : KeepsOthers c s u) (hs : s.clean) : u.clean := ⟨h.ecc.trans hs.1, h.badSeg.trans hs.2⟩

theorem Background.refl (c : Nat) (s : State) : Background c s s where
  toKeepsOthers := .refl c s
  own := ⟨_, _, _, rfl⟩
  ended _ := .inl

theorem Background.trans (h : Background c s t) (h' : Background c t u) : Background c s u where
  toKeepsOthers := h.toKeepsOthers.trans h'.toKeepsOthers
  own := by
    obtain ⟨k, m, f, e⟩ := h.own
    obtain ⟨k', m', f', e'⟩ := h'.own
    exact ⟨k', m', f', by rw [e', e]⟩
  ended y hy := (h'.ended y hy).elim (h.ended y) .inr

theorem State.ctxState_of_regs (h : u.regs = s.regs) (d : Nat) : u.ctxState d = s.ctxState d := State.fget_of_regs h _

theorem State.occupant_of_fget (h : ∀ g, u.fget (F.CORE_RES_OCCUPIED g) = s.fget (F.CORE_RES_OCCUPIED g))
    (h' : ∀ g, u.fget (F.CORE_RES_CTX g) = s.fget (F.CORE_RES_CTX g)) (g : Nat) : u.occupant g = s.occupant g := by
  rw [State.occupant, State.occupant, h, h']

theorem State.occupant_of_regs (h : u.regs = s.regs) (g : Nat) : u.occupant g = s.occupant g :=
  State.occupant_of_fget (fun _ => State.fget_of_regs h _) (fun _ => State.fget_of_regs h _) g

/-- A step that leaves the tick, the registers, the contexts, the upsets and the ended requests is background work. -/
theorem Background.of_fields (ht : u.tick = s.tick) (hr : u.regs = s.regs) (hx : u.ctxs = s.ctxs) (he : u.ecc = s.ecc)
    (hb : u.badSeg = s.badSeg) (hd : u.ended = s.ended) : Background c s u where
  tick := ht
  ecc := he
  badSeg := hb
  state := State.ctxState_of_regs hr
  occupant := State.occupant_of_regs hr
  others d _ := State.ctx_of_ctxs hx d
  own := ⟨_, _, _, State.ctx_of_ctxs hx c⟩
  ended _ hy := .inl (by rw [← hd]; exact hy)

end

/-! ### Registers, contexts and events -/

/-- The offset is none of a register that holds a context's state or a core's occupant. -/
def Elsewhere (o : Nat) : Prop := o < 0x1000 ∨ o % 64 ≠ 0

theorem Elsewhere.ne_ctxStat {o : Nat} (h : Elsewhere o) (d : Nat) : R.CTX_STAT d ≠ o := by
  unfold Elsewhere at h
  change 0x1000 + 64 * d ≠ o
  omega

theorem Elsewhere.ne_coreRes {o : Nat} (h : Elsewhere o) (g : Nat) : R.CORE_RES g ≠ o := by
  unfold Elsewhere at h
  change 0x01100000 + 0x1000000 * (g / 32) + 0x20000 * (g % 32) + 0x500 ≠ o
  omega

section
variable {c : Nat} (s : State)

theorem Background.rset {o : Nat} (h : Elsewhere o) (v : Nat) : Background c s (s.rset o v) where
  tick := rfl
  ecc := rfl
  badSeg := rfl
  state d := s.fget_rset_reg (p := F.CTX_STAT_STATE d) (h.ne_ctxStat d) v
  occupant := State.occupant_of_fget (fun g => s.fget_rset_reg (p := F.CORE_RES_OCCUPIED g) (h.ne_coreRes g) v)
    (fun g => s.fget_rset_reg (p := F.CORE_RES_CTX g) (h.ne_coreRes g) v)
  others _ _ := rfl
  own := ⟨_, _, _, rfl⟩
  ended _ hy := .inl hy

theorem Background.fset {f : Fld} (h : Elsewhere f.off) (v : Nat) : Background c s (s.fset f v) := .rset s h _

theorem Background.fadd {f : Fld} (h : Elsewhere f.off) (n : Nat) : Background c s (s.fadd f n) := .rset s h _

theorem Background.raise (code : Nat) (ctx : Option Nat) (unit : Nat) (data : List Nat) :
    Background c s (s.raise code ctx unit data) := by
  unfold State.raise
  split
  · exact .of_fields rfl rfl rfl rfl rfl rfl
  · exact (Background.fset s (.inl (by decide)) 1).trans (.fadd _ (.inl (by decide)) 1)

theorem Background.modCtx {f : Ctx → Ctx} (h : ∃ k m e, f (s.ctx c) = { s.ctx c with coll := k, suspect := m, faultStop := e }) :
    Background c s (s.modCtx c f) where
  tick := rfl
  ecc := rfl
  badSeg := rfl
  state _ := rfl
  occupant _ := rfl
  others d hd := s.ctx_modCtx_ne hd f
  own := by rw [State.ctx_modCtx_same]; exact h
  ended _ hy := .inl hy

theorem Background.modColl (f : Coll → Coll) : Background c s (s.modColl c f) := .modCtx s ⟨_, _, _, rfl⟩

/-- R217: a fault of the context itself. -/
theorem Background.ctxFault (code g : Nat) : Background c s (s.ctxFault c code g) := by
  have hf : ∀ f ∈ [F.CTX_FAULT_VALID c, F.CTX_FAULT_CORE c, F.CTX_FAULT_EVENT c], Elsewhere f.off := by
    simp [Elsewhere]
  simp only [List.forall_mem_cons] at hf
  obtain ⟨hvalid, hcore, hevent, -⟩ := hf
  unfold State.ctxFault
  dsimp only
  split
  · exact .refl c s
  · exact (Background.fset s hvalid 1).trans ((Background.fset _ hcore g).trans ((Background.fset _ hevent code).trans
      ((Background.raise _ _ _ _ _).trans (.modCtx _ ⟨_, _, _, rfl⟩))))

theorem Background.accessFault (a g : Nat) : Background c s (s.accessFault c a g) := by
  unfold State.accessFault
  split
  · exact .ctxFault s 0x0302 g
  · exact .refl c s

end

/-! ### Landings in memory without an upset -/

section
variable {s : State} {c : Nat}

/-- R453: a write to memory without an upset changes memory and the die caches alone. -/
theorem State.memWrite_clean_frame (h : s.clean) (a : Nat) (l : List Byte) (x : Option Nat) :
    ∃ m d, (s.memWrite a l x).1 = { s with mem := m, dies := d } := by
  obtain ⟨he, hb⟩ := h
  have hdrop : ∀ p, (Tbl.empty : Tbl Nat).dropIf p = .empty := fun _ => rfl
  simp only [State.memWrite, State.eccHits_clean he, State.segBad_clean hb, State.misaddressed, Bool.false_and,
    List.filter_nil, List.filter_false, List.map_nil, List.dedup_nil, List.foldl_nil, ite_self, hb, hdrop]
  split
  · exact ⟨_, _, rfl⟩
  · exact ⟨_, _, rfl⟩

theorem Background.landFor (h : s.clean) (g a : Nat) (l : List Byte) : Background c s (s.landFor c g a l) := by
  obtain ⟨m, d, hw⟩ := State.memWrite_clean_frame h a l (some c)
  have hland : ∃ m' k, (s.landBytes a l (some c)).1 = { s with mem := m', dies := d, cores := k } := by
    unfold State.landBytes
    dsimp only
    rw [hw]
    split
    · exact ⟨_, _, rfl⟩
    · exact ⟨_, _, rfl⟩
  obtain ⟨m', k, hl⟩ := hland
  unfold State.landFor
  dsimp only
  rw [hl]
  have hb : Background c s { s with mem := m', dies := d, cores := k } := .of_fields rfl rfl rfl rfl rfl rfl
  split
  · exact hb
  · exact hb.trans (.accessFault _ a g)

/-- R166, R167: without an upset the extents of a task are read as they stand. -/
theorem State.readExtents_clean (h : s.clean) (c : Nat) (es : List (Nat × Nat × Bool)) : s.readExtents c es = (s, true) := by
  unfold State.readExtents
  induction es with
  | nil => rfl
  | cons e r ih =>
    rw [List.foldl_cons]
    simp only [State.checkRead_clean h.1 h.2, Bool.and_self] at ih ⊢
    exact ih

theorem State.readSrc_clean (h : s.clean) (c : Nat) (x : Src) : s.readSrc c x = (s, true) := by
  cases x with
  | lit b => rfl
  | mem a n => exact State.checkRead_clean h.1 h.2 a n (some c)

end

/-! ### Requests (R246, R251, R252) -/

section
variable {c : Nat} (s : State)

theorem Background.withXfers (n : Nat) (l : List Xfer) : Background c s { s with nextXfer := n, xfers := l } :=
  .of_fields rfl rfl rfl rfl rfl rfl

theorem Background.crossed (x y z : Option Nat) : Background c s (s.crossed x y z) := .of_fields rfl rfl rfl rfl rfl rfl

theorem Background.linkSend (p tc : Nat) (l : List Byte) : Background c s (s.linkSend p tc l) := by
  unfold State.linkSend
  split
  · exact .of_fields rfl rfl rfl rfl rfl rfl
  · exact .of_fields rfl rfl rfl rfl rfl rfl

theorem Background.sendCell (x : Cell) : Background c s (s.sendCell x).1 := by
  unfold State.sendCell
  split
  · exact .refl c s
  · split
    · exact .raise s _ _ _ _
    · exact .linkSend s _ _ _

theorem Background.sendCells (x : Xfer) (first keep : Bool) (l : List (Nat × Nat × List Byte)) (i : Nat) :
    Background c s (s.sendCells x first keep l i).1 := by
  induction l generalizing s i with
  | nil => exact .refl c s
  | cons e r ih =>
    obtain ⟨ty, a, pl⟩ := e
    have hseq : Background c s (s.nextSeq x.fab x.tc).1 := .of_fields rfl rfl rfl rfl rfl rfl
    cases keep with
    | true =>
      simp only [State.sendCells, if_true]
      split
      · exact (Background.sendCell s _).trans (ih _ _)
      · exact .sendCell s _
    | false =>
      simp only [State.sendCells, Bool.false_eq_true, if_false]
      split
      · exact hseq.trans ((Background.sendCell _ _).trans (ih _ _))
      · exact hseq.trans (.sendCell _ _)

theorem Background.endXfer {x : Xfer} {e : XEnd} (h : TaskFailure c (x, e)) : Background c s (s.endXfer x e) where
  tick := rfl
  ecc := rfl
  badSeg := rfl
  state _ := rfl
  occupant _ := rfl
  others _ _ := rfl
  own := ⟨_, _, _, rfl⟩
  ended y hy := (List.mem_append.mp hy).imp id fun hy => by
    rw [List.mem_singleton.mp hy]
    exact h

/-- R252: a request of a task of the context fails. -/
theorem Background.failXfer {x : Xfer} {key : Nat} (h : x.owner = .task c key) : Background c s (s.failXfer x) :=
  (Background.fadd s (.inr (by decide)) 1).trans ((Background.raise _ _ _ _ _).trans (.endXfer _ ⟨⟨key, h⟩, rfl⟩))

theorem Background.emit {x : Xfer} {key : Nat} (h : x.owner = .task c key) (resync : Bool) :
    Background c s (s.emit x resync) := by
  unfold State.emit
  split
  · dsimp only
    split
    · exact (Background.sendCells s _ _ _ _ _).trans (.withXfers _ _ _)
    · refine (Background.sendCells s _ _ _ _ _).trans (Background.failXfer _ (key := key) ?_)
      exact h
  · exact .failXfer s h

theorem Background.request {x : Xfer} {key : Nat} (h : x.owner = .task c key) (resync : Bool) :
    Background c s (s.request x resync) := by
  unfold State.request
  dsimp only
  refine (Background.crossed s _ _ _).trans ((Background.withXfers _ _ _).trans (Background.emit _ (key := key) ?_ resync))
  exact h

end

/-! ### Tasks (R338, R341, R343) -/

section
variable {c : Nat} {s : State}

theorem Background.putTask (s : State) (t : Task) : Background c s (s.putTask c t) := .modColl s _

theorem Background.dropTask (s : State) (t : Task) : Background c s (s.dropTask c t) := .modColl s _

theorem Background.finishTask (s : State) (t : Task) : Background c s (s.finishTask c t) := by
  have hgen : ∀ f ∈ [F.RES_MIRROR_GEN_GEN c, F.RES_PARITY_GEN_GEN c], Elsewhere f.off := by
    simp [Elsewhere]
  simp only [List.forall_mem_cons] at hgen
  obtain ⟨hmirror, hparity, -⟩ := hgen
  unfold State.finishTask
  dsimp only
  split
  · exact (Background.dropTask s t).trans (.fset _ hmirror _)
  · exact (Background.dropTask s t).trans (.fset _ hparity _)
  · exact .dropTask s t

/-- R338: what a task sends, lands or leaves for its next acknowledgement. -/
theorem Background.pushTask (h : s.clean) (t : Task) (k : Nat) : Background c s (s.pushTask c t k).1 := by
  induction k generalizing s t with
  | zero => exact .refl c s
  | succ k ih =>
    unfold State.pushTask
    split
    · split
      · exact .putTask s t
      · exact .finishTask s t
    · split
      · exact ih h _
      · dsimp only
        rw [State.readSrc_clean h]
        dsimp only
        split
        · exact (Background.landFor h _ _ _).trans (ih ((Background.landFor (c := c) h _ _ _).clean h) _)
        · exact (Background.crossed s _ _ _).trans ((Background.putTask _ _).trans (.request _ rfl false))

theorem Background.abandonTask (s : State) (t : Task) : Background c s (s.abandonTask c t) := by
  have hcnt : ∀ f ∈ [F.RES_CNT_MIRROR_FAIL c, F.RES_CNT_PARITY_FAIL c], Elsewhere f.off := by
    simp [Elsewhere]
  simp only [List.forall_mem_cons] at hcnt
  obtain ⟨hmirror, hparity, -⟩ := hcnt
  have hdrop : Background c s ((s.dropTask c t).modCtx c fun x => { x with suspect := true }) :=
    (Background.dropTask s t).trans (.modCtx _ ⟨_, _, _, rfl⟩)
  unfold State.abandonTask
  dsimp only
  split
  · exact hdrop.trans ((Background.raise _ _ _ _ _).trans (.fadd _ hmirror 1))
  · exact hdrop.trans ((Background.raise _ _ _ _ _).trans (.fadd _ hparity 1))

theorem Background.taskFailed (h : s.clean) (t : Task) : Background c s (s.taskFailed c t) := by
  have hpush : ∀ x : Task, Background c s ((s.putTask c x).pushTask c x x.fuel).1 := fun x =>
    (Background.putTask s x).trans (.pushTask ((Background.putTask (c := c) s x).clean h) x x.fuel)
  unfold State.taskFailed
  split
  · exact .putTask s _
  · split
    · have hagain := hpush { t with todo := t.pieces, fails := t.fails + 1, out := false }
      dsimp only
      split
      · next heq => rw [heq] at hagain; exact hagain
      · next heq => rw [heq] at hagain; exact hagain.trans (.abandonTask _ _)
    · exact .abandonTask s t

theorem Background.runTask (h : s.clean) (t : Task) : Background c s (s.runTask c t) := by
  have hpush := Background.pushTask (c := c) h t t.fuel
  unfold State.runTask
  split
  · next heq => rw [heq] at hpush; exact hpush
  · next heq => rw [heq] at hpush; exact hpush.trans (.taskFailed (hpush.clean h) t)

theorem Background.startTask (h : s.clean) (kind : TaskKind) (gen : Nat) (l : List Piece) :
    Background c s (s.startTask c kind gen l) :=
  have hadd := Background.modColl (c := c) s _
  hadd.trans (.runTask (hadd.clean h) _)

theorem Background.resumeTasks (h : s.clean) : Background c s (s.resumeTasks c) := by
  unfold State.resumeTasks
  generalize (s.coll c).tasks.filter _ = l
  induction l generalizing s with
  | nil => exact .refl c s
  | cons t r ih =>
    have hrun := Background.runTask (c := c) h t
    exact hrun.trans (ih (hrun.clean h))

theorem Background.startFp (h : s.clean) (g : Nat) (l : List Byte) (i : Imposition) : Background c s (s.startFp c g l i) := by
  unfold State.startFp
  rw [State.readExtents_clean h]
  have hwrote := Background.modColl (c := c) s fun k => { k with fpWrote := some g }
  exact hwrote.trans (.startTask (hwrote.clean h) _ _ _)

/-- Background work goes on with more of it, or not. -/
theorem Background.trans_ite {t u : State} {p : Prop} {_ : Decidable p} (hs : s.clean) (h : Background c s t)
    (hu : t.clean → Background c t u) : Background c s (if p then u else t) := by
  split
  · exact h.trans (hu (h.clean hs))
  · exact h

/-- R338, Table 11-5: the mirror, the parity read and the fingerprint that are due start one after the other. -/
theorem Background.startTasks (h : s.clean) (g : Nat) : Background c s (s.startTasks c g) := by
  unfold State.startTasks
  dsimp only
  split
  · exact .refl c s
  · split
    · exact .refl c s
    · exact .trans_ite h (.trans_ite h (.trans_ite h (.refl c s) fun h => .startTask h _ _ _) fun h => .startTask h _ _ _)
        fun h => .startFp h _ _ _

/-- R336: the table's reading. -/
theorem Background.readTable (h : s.clean) : Background c s (s.readTable c) := by
  have hbad : Elsewhere (F.RES_STAT_TABLE_BAD c).off := .inr (by change (0x140c + 64 * c) % 64 ≠ 0; omega)
  have htable : ∀ l v, Background c s ((s.modColl c fun k => { k with table := l }).fset (F.RES_STAT_TABLE_BAD c) v) :=
    fun l v => (Background.modColl s _).trans (.fset _ hbad v)
  unfold State.readTable
  extract_lets a ok
  clear_value ok
  cases ok with
  | false => exact (htable _ _).trans (.raise _ _ _ _ _)
  | true =>
    rw [State.checkRead_clean h.1 h.2]
    exact htable _ _

theorem Background.endTasks (s : State) : Background c s (s.endTasks c) :=
  (Background.withXfers s s.nextXfer _).trans (.modColl _ _)

theorem Background.boundaryWork (h : s.clean) : Background c s (s.boundaryWork c) := by
  have hread : Background c s ((s.readTable c).modColl c fun k => { k with bound := .done }) :=
    (Background.readTable h).trans (.modColl _ _)
  unfold State.boundaryWork
  dsimp only
  split
  · exact .refl c s
  · split
    · exact hread.trans (.endTasks _)
    · have hresume := hread.trans (.resumeTasks (hread.clean h))
      split
      · exact hresume.trans (.startTasks (hresume.clean h) _)
      · exact hresume

/-! ### The ends of the tasks' requests -/

/-- R343: what the failure of a task's request does. -/
theorem Background.settleEnd (h : s.clean) {y : Xfer × XEnd} (hy : TaskFailure c y) :
    Background c s (s.settleEnd y.1 y.2) := by
  obtain ⟨⟨key, howner⟩, hend⟩ := hy
  have htask : s.settleEnd y.1 y.2 = s.taskEnded c key .failed := by
    simp only [State.settleEnd, howner, hend, reduceCtorEq, if_false, ite_self]
  rw [htask]
  unfold State.taskEnded
  split
  · exact .refl c s
  · exact .taskFailed h _

/-- Where the requests that have ended are failures of tasks of the context, settling them is background work. -/
theorem KeepsOthers.flushN (h : s.clean) (hended : ∀ y ∈ s.ended, TaskFailure c y) (k : Nat) : KeepsOthers c s (s.flushN k) := by
  induction k generalizing s with
  | zero => exact .refl c s
  | succ k ih =>
    unfold State.flushN
    split
    · exact .refl c s
    · next y r heq =>
      have hrest : Background c { s with ended := r } ({ s with ended := r }.settleEnd y.1 y.2) :=
        Background.settleEnd (s := { s with ended := r }) h (hended y (by rw [heq]; exact List.mem_cons_self))
      have hpop : KeepsOthers c s { s with ended := r } := ⟨rfl, rfl, rfl, fun _ => rfl, fun _ => rfl, fun _ _ => rfl⟩
      refine hpop.trans (hrest.toKeepsOthers.trans (ih (hrest.clean h) fun z hz => ?_))
      exact (hrest.ended z hz).elim (fun hz => hended z (by rw [heq]; exact List.mem_cons_of_mem _ hz)) id

end

end Sys2Proof.Machine
end

section
/-!
PROOFS. A tick of the tick unit (R24, R198, R209, R212): what it does before and after it visits the contexts, what a visit
does to a FREE context, to one with no steps left and to one that slips, and with them the statement TickAdvancesContexts.
-/

namespace Sys2Proof.Machine

/-! ### Before and after the contexts -/

/-- R192, R198: the tick's number and parameters are in force, and its slips are counted. -/
def State.tickBegun (s : State) : State :=
  let a := s.applyChange s.nextTick
  let missed : Bool := a.follows && a.tck.lists.all fun l => !(l.tick == s.nextTick && l.whole)
  { (if missed then a.modTck fun t => { t with good := 0 } else a) with tick := s.nextTick }.countSlips s.nextTick

/-- R190, R198: the lists of past ticks are gone, and the next tick is a period on, slewed. -/
def State.tickEnded (s : State) (n : Nat) : State :=
  (s.modTck fun t => { t with
    lists := t.lists.filter fun l => decide (n < l.tick)
    gather := t.gather.filter fun g => decide (n < g.1)
    alone := [], nextNs := t.nextNs + 1000 * s.periodUs }).slew

theorem State.fireTick_eq (s : State) :
    s.fireTick = (((List.range 8).foldl (fun t c => t.ctxTick c s.nextTick) s.tickBegun).tickEnded s.nextTick).flush := rfl

/-- Nothing differs but the tick and its unit, the registers of the tick's parameters and counts, and the contexts' marks
that they have been launched; the slips asked for are the same. -/
structure SameButTick (s u : State) : Prop where
  frame : u = { s with tick := u.tick, regs := u.regs, tck := u.tck, ctxs := u.ctxs }
  regs : SameRegsBut s u [R.TCK_PERIOD, R.TCK_OVR_CNT]
  alone : u.tck.alone = s.tck.alone
  gather : u.tck.gather = s.tck.gather
  lists : u.tck.lists = s.tck.lists
  ctx : ∀ d, ∃ b, u.ctx d = { s.ctx d with ran := b }

theorem SameButTick.refl (s : State) : SameButTick s s := ⟨rfl, fun _ _ => rfl, rfl, rfl, rfl, fun _ => ⟨_, rfl⟩⟩

theorem SameButTick.trans {s t u : State} (h : SameButTick s t) (h' : SameButTick t u) : SameButTick s u where
  frame := h'.frame.trans (by rw [h.frame])
  regs o ho := (h'.regs o ho).trans (h.regs o ho)
  alone := h'.alone.trans h.alone
  gather := h'.gather.trans h.gather
  lists := h'.lists.trans h.lists
  ctx d := by
    obtain ⟨b, hb⟩ := h.ctx d
    obtain ⟨b', hb'⟩ := h'.ctx d
    exact ⟨b', by rw [hb', hb]⟩

section
variable (s : State)

theorem SameButTick.rset {o : Nat} (h : o ∈ [R.TCK_PERIOD, R.TCK_OVR_CNT]) (v : Nat) : SameButTick s (s.rset o v) :=
  ⟨rfl, (SameRegsBut.refl s _).rset h v, rfl, rfl, rfl, fun _ => ⟨_, rfl⟩⟩

theorem SameButTick.modTck {f : TickUnit → TickUnit} (ha : (f s.tck).alone = s.tck.alone)
    (hg : (f s.tck).gather = s.tck.gather) (hl : (f s.tck).lists = s.tck.lists) : SameButTick s (s.modTck f) :=
  ⟨rfl, fun _ _ => rfl, ha, hg, hl, fun _ => ⟨_, rfl⟩⟩

theorem SameButTick.withTick (n : Nat) : SameButTick s { s with tick := n } :=
  ⟨rfl, fun _ _ => rfl, rfl, rfl, rfl, fun _ => ⟨_, rfl⟩⟩

theorem SameButTick.applyChange (n : Nat) : SameButTick s (s.applyChange n) := by
  unfold State.applyChange
  split
  · exact .refl s
  · split
    · exact (SameButTick.rset s List.mem_cons_self _).trans ((SameButTick.rset _ List.mem_cons_self _).trans
        (.modTck _ rfl rfl rfl))
    · exact .refl s

theorem SameButTick.tickBegun : SameButTick s s.tickBegun := by
  unfold State.tickBegun
  dsimp only
  refine (SameButTick.applyChange s s.nextTick).trans (SameButTick.trans ?_ ((SameButTick.withTick _ s.nextTick).trans
    (SameButTick.rset _ (List.mem_cons_of_mem _ (List.mem_singleton_self _)) _)))
  split
  · exact .modTck _ rfl rfl rfl
  · exact .refl _

theorem State.tickBegun_tick : s.tickBegun.tick = s.nextTick := rfl

end

/-! ### What the visits of the contexts ask of the state -/

section
variable {s u : State} (h : SameButTick s u)
include h

theorem SameButTick.fget {f : Fld} (hf : f.off ≠ R.TCK_PERIOD ∧ f.off ≠ R.TCK_OVR_CNT) : u.fget f = s.fget f := by
  have ho : f.off ∉ [R.TCK_PERIOD, R.TCK_OVR_CNT] := by simpa using hf
  rw [State.fget, State.fget, h.regs _ ho]

theorem SameButTick.fget_ctx {f : Nat → Fld} {k : Nat} (hf : ∀ c, (f c).off = k + 64 * c)
    (hk : k % 64 = 0 ∨ k % 64 = 0x18) (c : Nat) : u.fget (f c) = s.fget (f c) := by
  refine h.fget ?_
  rw [hf]
  change k + 64 * c ≠ 0x500004 ∧ k + 64 * c ≠ 0x500024
  omega

theorem SameButTick.ctxState (d : Nat) : u.ctxState d = s.ctxState d :=
  h.fget_ctx (f := F.CTX_STAT_STATE) (fun _ => rfl) (.inl rfl) d

theorem SameButTick.fget_core {f : Nat → Fld} {k : Nat} (hf : ∀ g, (f g).off = coreBase g + k) (g : Nat) :
    u.fget (f g) = s.fget (f g) := by
  refine h.fget ?_
  rw [hf]
  change 0x01100000 + 0x1000000 * (g / 32) + 0x20000 * (g % 32) + k ≠ 0x500004
    ∧ 0x01100000 + 0x1000000 * (g / 32) + 0x20000 * (g % 32) + k ≠ 0x500024
  omega

theorem SameButTick.occupant (g : Nat) : u.occupant g = s.occupant g :=
  State.occupant_of_fget (fun g => h.fget_core (f := F.CORE_RES_OCCUPIED) (fun _ => rfl) g)
    (fun g => h.fget_core (f := F.CORE_RES_CTX) (fun _ => rfl) g) g

theorem SameButTick.quarantined (g : Nat) : u.quarantined g = s.quarantined g := by
  rw [State.quarantined, State.quarantined, h.fget_core (f := F.MXE_CHK_STAT_QUAR) (fun _ => rfl),
    h.fget_core (f := F.VXE_STAT_QUAR) (fun _ => rfl)]

theorem SameButTick.core (g : Nat) : u.core g = s.core g := by
  rw [State.core, State.core, h.frame]

/-- A part of a context that does not say whether it has been launched is as it was. -/
theorem SameButTick.part {α : Type} {f : Ctx → α} (hf : ∀ x b, f { x with ran := b } = f x) (d : Nat) :
    f (u.ctx d) = f (s.ctx d) := by
  obtain ⟨b, hb⟩ := h.ctx d
  rw [hb, hf]

theorem SameButTick.coll (d : Nat) : u.coll d = s.coll d := h.part (fun _ _ => rfl) d

theorem SameButTick.live (g : Nat) : u.live g = s.live g := by
  rw [State.live, State.live, h.occupant, h.quarantined, h.core]
  cases s.occupant g with
  | none => rfl
  | some c =>
    dsimp only
    rw [h.ctxState, h.part (f := Ctx.tearing) (fun _ _ => rfl)]

theorem SameButTick.coreDone (g : Nat) : u.coreDone g = s.coreDone g := by
  have hdies : u.dies = s.dies := by rw [h.frame]
  simp only [State.coreDone, h.core, hdies]

theorem SameButTick.chaseCoresOf (c : Nat) : u.chaseCoresOf c = s.chaseCoresOf c := by
  rw [State.chaseCoresOf, State.chaseCoresOf, h.part (f := Ctx.forme) fun _ _ => rfl]

theorem SameButTick.coresEnded (c : Nat) : u.coresEnded c = s.coresEnded c := by
  simp only [State.coresEnded, h.chaseCoresOf, h.core, h.live, h.coreDone]

theorem SameButTick.lastImp (c : Nat) : u.lastImp c = s.lastImp c := by
  rw [State.lastImp, State.lastImp, h.part (f := Ctx.forme) fun _ _ => rfl, h.part (f := Ctx.pos) fun _ _ => rfl]

theorem SameButTick.rebalanceWaits (c : Nat) : u.rebalanceWaits c = s.rebalanceWaits c := by
  have hdesc : ∀ b, u.desc? c b = s.desc? c b := fun b => by
    rw [State.desc?, State.desc?, State.slotsSec, State.slotsSec, h.part (f := Ctx.forme) fun _ _ => rfl]
  simp only [State.rebalanceWaits, h.part (f := Ctx.coll) fun _ _ => rfl, h.part (f := Ctx.step) fun _ _ => rfl, hdesc]

/-- R106: an impression ends on the cores, not on the tick unit. -/
theorem SameButTick.impEnded (c : Nat) : u.impEnded c = s.impEnded c := by
  rw [State.impEnded, State.impEnded, h.coresEnded, h.lastImp, h.rebalanceWaits, h.coll]

theorem SameButTick.tckRole : u.tckRole = s.tckRole := h.fget (by decide)

theorem SameButTick.follows : u.follows = s.follows := by
  rw [State.follows, State.follows, h.tckRole]

theorem SameButTick.slipList (n : Nat) : u.slipList n = s.slipList n := by
  rw [State.slipList, State.slipList, h.tckRole, h.follows, h.gather, h.lists, h.fget (f := F.TCK_STAT_SRC) (by decide)]

/-- R201: what a group slips by is the lists and the module's own slips. -/
theorem SameButTick.slips (c n : Nat) : u.slips c n = s.slips c n := by
  rw [State.slips, State.slips, h.slipList, h.alone, h.fget_ctx (f := F.CTX_CFG_TICK_GROUP) (fun _ => rfl) (.inr rfl)]

theorem SameButTick.stepsLeft (c : Nat) : u.stepsLeft c = s.stepsLeft c := by
  rw [State.stepsLeft, State.stepsLeft, h.part (f := Ctx.counts) fun _ _ => rfl, h.part (f := Ctx.pos) fun _ _ => rfl]

end

/-! ### FREE contexts (R198) -/

/-- Context `d` is FREE, no fault stops it, and no repair of it is under way. -/
structure Passive (s : State) (d : Nat) : Prop where
  state : s.ctxState d = ctxFree
  fault : (s.ctx d).faultStop = false
  repair : (s.coll d).repair = none

theorem SameButTick.passive {s u : State} (h : SameButTick s u) {d : Nat} (hd : Passive s d) : Passive u d where
  state := (h.ctxState d).trans hd.state
  fault := (h.part (f := Ctx.faultStop) (fun _ _ => rfl) d).trans hd.fault
  repair := by rw [h.coll]; exact hd.repair

theorem State.repairAgain_none {s : State} {c : Nat} (h : (s.coll c).repair = none) : s.repairAgain c = s := by
  unfold State.repairAgain
  split
  · rfl
  · simp only [State.pushRepair, h]

/-- A tick does nothing to a FREE context. -/
theorem State.ctxTick_passive {s : State} {d : Nat} (h : Passive s d) (n : Nat) :
    s.ctxTick d n = s.modCtx d fun y => { y with ran := false } := by
  have hstop : s.stoppedCtx d = false := by rw [State.stoppedCtx, h.state]; decide
  have hne : ctxFree ≠ ctxTearing ∧ ctxFree ≠ ctxFaulted ∧ ctxFree ≠ ctxRunning ∧ ctxFree ≠ ctxRestoring ∧ ctxFree ≠ ctxIdle := by
    decide
  obtain ⟨htearing, hfaulted, hrunning, hrestoring, hidle⟩ := hne
  simp only [State.ctxTick, h.state, h.fault, hstop, State.repairAgain_none h.repair, htearing, hfaulted, hrunning, hrestoring,
    hidle, Bool.false_eq_true, and_false, false_and, if_false]
  rfl

/-- A RUNNING context whose engines no fault stops is at its tick of R198. -/
theorem State.ctxTick_running {s : State} {c : Nat} (hs : s.ctxState c = ctxRunning) (hf : (s.ctx c).faultStop = false)
    (hr : (s.coll c).repair = none) (n : Nat) :
    s.ctxTick c n = (s.runTick c n).modCtx c fun y =>
      { y with ran := (s.runTick c n).ctxState c == ctxRunning && y.pos.inStep } := by
  have hstop : s.stoppedCtx c = false := by rw [State.stoppedCtx, hs]; decide
  have hne : ctxRunning ≠ ctxTearing ∧ ctxRunning ≠ ctxFaulted := by decide
  simp only [State.ctxTick, hs, hf, hstop, State.repairAgain_none hr, hne.1, hne.2, Bool.false_eq_true, and_false, if_false,
    if_true]

theorem SameButTick.ctxTick_passive {s : State} {d : Nat} (h : Passive s d) (n : Nat) : SameButTick s (s.ctxTick d n) := by
  rw [State.ctxTick_passive h]
  refine ⟨rfl, fun _ _ => rfl, rfl, rfl, rfl, fun e => ?_⟩
  by_cases he : e = d
  · rw [he, State.ctx_modCtx_same]
    exact ⟨_, rfl⟩
  · rw [State.ctx_modCtx_ne _ he]
    exact ⟨_, rfl⟩

/-- Visits of FREE contexts change nothing but the marks of launch. -/
theorem State.visits_passive {s : State} {l : List Nat} (h : ∀ d ∈ l, Passive s d) (n : Nat) :
    SameButTick s (l.foldl (fun t d => t.ctxTick d n) s)
      ∧ ∃ x, l.foldl (fun t d => t.ctxTick d n) s = { s with ctxs := x } := by
  induction l generalizing s with
  | nil => exact ⟨.refl s, s.ctxs, rfl⟩
  | cons d r ih =>
    have hd := h d List.mem_cons_self
    have hvisit := SameButTick.ctxTick_passive hd n
    obtain ⟨hrest, x, hframe⟩ := ih fun e he => hvisit.passive (h e (List.mem_cons_of_mem _ he))
    exact ⟨hvisit.trans hrest, x, hframe.trans (by rw [State.ctxTick_passive hd]; rfl)⟩

/-! ### The tick around the contexts -/

theorem exec_impressionTick_due {s : State} (h : s.tickDue = true) : exec .impressionTick s = .next s.fireTick :=
  congrArg Host.Outcome.next (if_pos h)

theorem State.tickEnded_frame (s : State) (n : Nat) : ∃ x, s.tickEnded n = { s with tck := x } := by
  unfold State.tickEnded State.slew
  dsimp only
  split
  · exact ⟨_, rfl⟩
  · exact ⟨_, rfl⟩

/-- R190: a unit that keeps its own time slews nothing. -/
theorem State.tickEnded_nextNs {s : State} (h : s.follows = false) (n : Nat) :
    (s.tickEnded n).tck.nextNs = s.tck.nextNs + 1000 * s.periodUs := by
  unfold State.tickEnded State.slew
  dsimp only
  rw [if_neg fun e => Bool.false_ne_true (h.symm.trans e.1)]
  rfl

/-- A unit that keeps its own time and changes no parameter only counts as a tick begins. -/
theorem State.tickBegun_alone {s : State} (hf : s.follows = false) (hc : s.tck.change = none) :
    s.tickBegun.tck = s.tck ∧ s.tickBegun.periodUs = s.periodUs := by
  have happly : s.applyChange s.nextTick = s := by rw [State.applyChange, hc]
  have hbegun : s.tickBegun = { s with tick := s.nextTick }.countSlips s.nextTick := by
    unfold State.tickBegun
    dsimp only
    rw [happly, hf, Bool.false_and, if_neg Bool.false_ne_true]
  rw [hbegun]
  exact ⟨rfl, State.fget_fadd_of_apart _ (by decide) _⟩

theorem State.flush_of_ended_nil {s : State} (h : s.ended = []) : s.flush = s := State.flushN_of_ended_nil h _

/-- R24, R198: a tick of a module all whose contexts are FREE. -/
theorem exec_impressionTick_free {s : State} (hdue : s.tickDue = true) (he : s.ended = []) (h : ∀ d : CtxId, Passive s d) :
    ∃ u, exec .impressionTick s = .next u ∧ u.tick = s.nextTick ∧ u.mem = s.mem ∧ u.cores = s.cores
      ∧ (s.follows = false → s.tck.change = none → u.tck.nextNs = s.tck.nextNs + 1000 * s.periodUs) := by
  have hbegun := SameButTick.tickBegun s
  have hfree : ∀ d ∈ List.range 8, Passive s.tickBegun d := fun d hd => hbegun.passive (h ⟨d, List.mem_range.mp hd⟩)
  obtain ⟨hvisits, x, hx⟩ := State.visits_passive hfree s.nextTick
  have hexec := exec_impressionTick_due hdue
  rw [s.fireTick_eq, hx] at hexec
  rw [hx] at hvisits
  have hsame := hbegun.trans hvisits
  obtain ⟨y, hy⟩ := State.tickEnded_frame { s.tickBegun with ctxs := x } s.nextTick
  have hended : (State.tickEnded { s.tickBegun with ctxs := x } s.nextTick).ended = [] := by
    rw [hy, hbegun.frame]; exact he
  rw [State.flush_of_ended_nil hended] at hexec
  refine ⟨_, hexec, ?_, ?_, ?_, fun hf hc => ?_⟩
  · rw [hy]; rfl
  · rw [hy, hbegun.frame]
  · rw [hy, hbegun.frame]
  · obtain ⟨htck, hperiod⟩ := State.tickBegun_alone hf hc
    rw [State.tickEnded_nextNs (hsame.follows.trans hf)]
    exact congrArg₂ (fun (t : TickUnit) p => t.nextNs + 1000 * p) htck hperiod

/-- Where every other context is FREE, a tick is its visit of context `c`, at the tick, with idle visits around it. -/
theorem State.fireTick_visit {s : State} {c : CtxId} (h : ∀ d : CtxId, d.val ≠ c → Passive s d) :
    ∃ (t : State) (l : List Nat), SameButTick s t ∧ t.tick = s.nextTick ∧ (∀ d ∈ l, d < 8 ∧ d ≠ c.val ∧ Passive t d)
      ∧ s.fireTick = ((l.foldl (fun t d => t.ctxTick d s.nextTick) (t.ctxTick c s.nextTick)).tickEnded s.nextTick).flush := by
  obtain ⟨a, l, hal⟩ := List.mem_iff_append.mp (List.mem_range.mpr c.isLt)
  have hnd := List.nodup_append.mp (hal ▸ List.nodup_range (n := 8))
  have hlt : ∀ d, d ∈ a ++ c.val :: l → d < 8 := fun d hd => List.mem_range.mp (hal ▸ hd)
  have hbegun := SameButTick.tickBegun s
  have hpass : ∀ d, d < 8 → d ≠ c.val → Passive s.tickBegun d := fun d hd hne => hbegun.passive (h ⟨d, hd⟩ hne)
  obtain ⟨hvisits, x, hx⟩ := State.visits_passive (l := a) (fun d hd => hpass d (hlt d (List.mem_append_left _ hd))
    fun e => hnd.2.2 d hd c.val List.mem_cons_self e) s.nextTick
  refine ⟨_, l, hbegun.trans hvisits, by rw [hx]; rfl, fun d hd => ?_, ?_⟩
  · have hne : d ≠ c.val := fun e => (List.nodup_cons.mp hnd.2.1).1 (e ▸ hd)
    have hd8 := hlt d (List.mem_append_right _ (List.mem_cons_of_mem _ hd))
    exact ⟨hd8, hne, hvisits.passive (hpass d hd8 hne)⟩
  · rw [s.fireTick_eq, hal, List.foldl_append, List.foldl_cons]

/-- What follows the visit of a context, where those that remain are FREE: the marks of launch and the tick unit change. -/
theorem State.visits_tickEnded {s : State} {l : List Nat} (h : ∀ d ∈ l, Passive s d) (n : Nat) :
    ∃ u x y, (l.foldl (fun t d => t.ctxTick d n) s).tickEnded n = u ∧ u = { s with ctxs := x, tck := y }
      ∧ ∀ d, ∃ b, u.ctx d = { s.ctx d with ran := b } := by
  obtain ⟨hvisits, x, hx⟩ := State.visits_passive h n
  obtain ⟨y, hy⟩ := State.tickEnded_frame (l.foldl (fun t d => t.ctxTick d n) s) n
  refine ⟨_, x, y, rfl, ?_, fun d => ?_⟩
  · rw [hy, hx]
  · rw [hy]
    exact hvisits.ctx d

/-! ### A slip (R198, R199) -/

/-- Nothing differs but context `c` and the free values. -/
structure OnlyCtx (c : Nat) (s u : State) : Prop where
  frame : u = { s with free := u.free, ctxs := u.ctxs }
  others : ∀ d, d ≠ c → u.ctx d = s.ctx d

theorem OnlyCtx.trans {c : Nat} {s t u : State} (h : OnlyCtx c s t) (h' : OnlyCtx c t u) : OnlyCtx c s u where
  frame := h'.frame.trans (by rw [h.frame])
  others d hd := (h'.others d hd).trans (h.others d hd)

theorem OnlyCtx.modCtx (c : Nat) (s : State) (f : Ctx → Ctx) : OnlyCtx c s (s.modCtx c f) :=
  ⟨rfl, fun _ hd => s.ctx_modCtx_ne hd f⟩

/-- R199: a slip takes at most one impression of the context's reserve. -/
theorem State.otherRetry_eq (s : State) (c n : Nat) : ∃ f retry, s.otherRetry c n =
    if retry = true ∧ 0 < (s.ctx c).retryLeft then { s with free := f }.modCtx c fun y => { y with retryLeft := y.retryLeft - 1 }
    else { s with free := f } := by
  unfold State.otherRetry
  extract_lets x verdict
  clear_value verdict
  cases s.slipFlags c n with
  | some f => exact ⟨s.free, bit f 0, rfl⟩
  | none =>
    dsimp only
    by_cases hwant : x.retryWant = true
    · rw [if_pos hwant]
      exact ⟨s.free, true, rfl⟩
    · rw [if_neg hwant]
      cases verdict with
      | true => exact ⟨s.free + 1, _, rfl⟩
      | false => exact ⟨s.free, false, rfl⟩

theorem State.otherRetry_onlyCtx (s : State) (c n : Nat) : OnlyCtx c s (s.otherRetry c n) := by
  obtain ⟨f, retry, h⟩ := s.otherRetry_eq c n
  rw [h]
  split
  · exact OnlyCtx.trans (t := { s with free := f }) ⟨rfl, fun _ _ => rfl⟩ (.modCtx c _ _)
  · exact ⟨rfl, fun _ _ => rfl⟩

theorem State.otherRetry_ctx (s : State) (c n : Nat) : ∃ k, (s.otherRetry c n).ctx c = { s.ctx c with retryLeft := k } := by
  obtain ⟨f, retry, h⟩ := s.otherRetry_eq c n
  rw [h]
  split
  · exact ⟨_, State.ctx_modCtx_same _ c _⟩
  · exact ⟨_, rfl⟩

section
variable {s : State} {c n : Nat}

/-- R198, R199: an impression that has not ended goes on through a tick at which its group slips. -/
theorem State.runTick_slips (hl : (s.coll c).lost = false) (hw : (s.coll c).weights = false)
    (hi : (s.ctx c).pos.inStep = true) (hp : (s.ctx c).posted = false) (he : s.impEnded c = false) (hs : s.slips c n = true)
    (hd : (s.ctx c).preemptDue n = false) :
    s.runTick c n = ((s.modCtx c fun y => { y with slipping := true }).otherRetry c n).modCtx c fun y =>
      { y with slipTicks := y.slipTicks + 1 } := by
  change (s.ctx c).coll.lost = false at hl
  change (s.ctx c).coll.weights = false at hw
  simp only [State.runTick, State.stepTick, hl, hw, hi, hp, he, hs, hd, Bool.false_or, Bool.false_eq_true, false_and, if_false,
    if_true]

/-- What the tick of a slip does to its context, and to nothing else. -/
theorem State.ctxTick_slips (hst : s.ctxState c = ctxRunning) (hf : (s.ctx c).faultStop = false)
    (hr : (s.coll c).repair = none) (hl : (s.coll c).lost = false) (hw : (s.coll c).weights = false)
    (hi : (s.ctx c).pos.inStep = true) (hp : (s.ctx c).posted = false) (he : s.impEnded c = false) (hs : s.slips c n = true)
    (hd : (s.ctx c).preemptDue n = false) :
    OnlyCtx c s (s.ctxTick c n) ∧ ((s.ctxTick c n).ctx c).slipTicks = (s.ctx c).slipTicks + 1
      ∧ ((s.ctxTick c n).ctx c).pos = (s.ctx c).pos := by
  rw [State.ctxTick_running hst hf hr, State.runTick_slips hl hw hi hp he hs hd]
  obtain ⟨k, hk⟩ := State.otherRetry_ctx (s.modCtx c fun y => { y with slipping := true }) c n
  refine ⟨?_, ?_, ?_⟩
  · exact (OnlyCtx.modCtx c s _).trans ((State.otherRetry_onlyCtx _ c n).trans ((OnlyCtx.modCtx c _ _).trans (.modCtx c _ _)))
  · rw [State.ctx_modCtx_same, State.ctx_modCtx_same, hk, State.ctx_modCtx_same]
  · rw [State.ctx_modCtx_same, State.ctx_modCtx_same, hk, State.ctx_modCtx_same]

end

theorem exec_impressionTick_slips {s : State} {c : CtxId} (hdue : s.tickDue = true) (hend : s.ended = [])
    (h : ∀ d : CtxId, d.val ≠ c → Passive s d) (hst : s.ctxState c = ctxRunning) (hf : (s.ctx c).faultStop = false)
    (hr : (s.coll c).repair = none) (hl : (s.coll c).lost = false) (hw : (s.coll c).weights = false)
    (hi : (s.ctx c).pos.inStep = true) (hp : (s.ctx c).posted = false) (he : s.impEnded c = false)
    (hs : s.slips c s.nextTick = true) (hd : (s.ctx c).preemptDue s.nextTick = false) :
    ∃ u, exec .impressionTick s = .next u ∧ (u.ctx c).slipTicks = (s.ctx c).slipTicks + 1 ∧ (u.ctx c).pos = (s.ctx c).pos
      ∧ u.ctxState c = ctxRunning ∧ u.tick = s.nextTick ∧ u.mem = s.mem ∧ u.cores = s.cores := by
  obtain ⟨t, l, ht, htick, hrest, hfire⟩ := State.fireTick_visit h
  have hexec := exec_impressionTick_due hdue
  rw [hfire] at hexec
  have hpart := fun {α : Type} {f : Ctx → α} (hran : ∀ x b, f { x with ran := b } = f x) => ht.part hran c.val
  obtain ⟨honly, hslip, hpos⟩ := State.ctxTick_slips (s := t) (c := c) (n := s.nextTick) ((ht.ctxState c).trans hst)
    ((hpart (f := Ctx.faultStop) fun _ _ => rfl).trans hf) (by rw [ht.coll]; exact hr) (by rw [ht.coll]; exact hl)
    (by rw [ht.coll]; exact hw) (by rw [hpart (f := Ctx.pos) fun _ _ => rfl]; exact hi)
    ((hpart (f := Ctx.posted) fun _ _ => rfl).trans hp) ((ht.impEnded c).trans he) ((ht.slips c _).trans hs)
    ((hpart (f := fun x => x.preemptDue s.nextTick) fun _ _ => rfl).trans hd)
  have hregs : (t.ctxTick c s.nextTick).regs = t.regs := by rw [honly.frame]
  have hpass : ∀ d ∈ l, Passive (t.ctxTick c s.nextTick) d := fun d hd => by
    obtain ⟨-, hne, hpd⟩ := hrest d hd
    have hctx := honly.others d hne
    exact ⟨(State.ctxState_of_regs hregs d).trans hpd.state, (congrArg Ctx.faultStop hctx).trans hpd.fault,
      (congrArg (fun x => x.coll.repair) hctx).trans hpd.repair⟩
  obtain ⟨u, x, y, hu, hframe, hctx⟩ := State.visits_tickEnded hpass s.nextTick
  have hended : u.ended = [] := by rw [hframe, honly.frame, ht.frame]; exact hend
  rw [hu, State.flush_of_ended_nil hended] at hexec
  obtain ⟨b, hb⟩ := hctx c
  refine ⟨u, hexec, ?_, ?_, ?_, ?_, ?_, ?_⟩
  · rw [hb]; exact hslip.trans (congrArg (· + 1) (hpart (f := Ctx.slipTicks) fun _ _ => rfl))
  · rw [hb]; exact hpos.trans (hpart (f := Ctx.pos) fun _ _ => rfl)
  · have huregs : u.regs = t.regs := by rw [hframe]; exact hregs
    exact (State.ctxState_of_regs huregs c).trans ((ht.ctxState c).trans hst)
  · rw [hframe, honly.frame]; exact htick
  · rw [hframe, honly.frame, ht.frame]
  · rw [hframe, honly.frame, ht.frame]

/-! ### A context with no steps left (R209, R212) -/

/-- `KeepsOthers`, with memory and the ended requests as they were. -/
structure KeepsMemory (c : Nat) (s u : State) : Prop extends KeepsOthers c s u where
  mem : u.mem = s.mem
  ended : u.ended = s.ended

theorem KeepsMemory.refl (c : Nat) (s : State) : KeepsMemory c s s := ⟨.refl c s, rfl, rfl⟩

theorem KeepsMemory.trans {c : Nat} {s t u : State} (h : KeepsMemory c s t) (h' : KeepsMemory c t u) : KeepsMemory c s u :=
  ⟨h.toKeepsOthers.trans h'.toKeepsOthers, h'.mem.trans h.mem, h'.ended.trans h.ended⟩

theorem KeepsMemory.modCtx (c : Nat) (s : State) (f : Ctx → Ctx) : KeepsMemory c s (s.modCtx c f) :=
  ⟨⟨rfl, rfl, rfl, fun _ => rfl, fun _ => rfl, fun _ hd => s.ctx_modCtx_ne hd f⟩, rfl, rfl⟩

/-- The registers of the cores' occupants lie above those of the contexts. -/
theorem coreRes_ne_ctxStat {c : Nat} (hc : c < 8) (g : Nat) : R.CORE_RES g ≠ R.CTX_STAT c := by
  change 0x01100000 + 0x1000000 * (g / 32) + 0x20000 * (g % 32) + 0x500 ≠ 0x1000 + 64 * c
  omega

theorem coreRes_injective {g h : Nat} (e : R.CORE_RES g = R.CORE_RES h) : g = h := by
  change 0x01100000 + 0x1000000 * (g / 32) + 0x20000 * (g % 32) + 0x500
    = 0x01100000 + 0x1000000 * (h / 32) + 0x20000 * (h % 32) + 0x500 at e
  omega

theorem ctxStat_injective {c d : Nat} (e : R.CTX_STAT c = R.CTX_STAT d) : c = d := by
  change 0x1000 + 64 * c = 0x1000 + 64 * d at e
  omega

section
variable {c : Nat} (s : State)

/-- A field of CTX_STAT below STATE changes no context's state and no core's occupant. -/
theorem KeepsMemory.fset_ctxStat (hc : c < 8) {hi lo : Nat} (h : lo ≤ hi ∧ hi < 28) (v : Nat) :
    KeepsMemory c s (s.fset ⟨R.CTX_STAT c, hi, lo⟩ v) where
  tick := rfl
  ecc := rfl
  badSeg := rfl
  state d := s.fget_fset_of_apart ⟨h.1, Nat.lt_of_lt_of_le h.2 (by decide), (by decide : 28 ≤ 31), .inr (.inr h.2)⟩ v
  occupant := State.occupant_of_fget (fun g => s.fget_fset_reg (coreRes_ne_ctxStat hc g) v)
    (fun g => s.fget_fset_reg (coreRes_ne_ctxStat hc g) v)
  others _ _ := rfl
  mem := rfl
  ended := rfl

theorem State.complete_ctx_ne {d : Nat} (hd : d ≠ c) (r status detail value : Nat) :
    (s.complete c r status detail value).ctx d = s.ctx d := by
  cases h : (s.ring c r).cur with
  | none => rw [State.complete_none _ _ _ h]
  | some k =>
    have hnote : ∀ t : State, (t.noteBacklog c).ctx d = t.ctx d := fun t => by
      unfold State.noteBacklog
      split
      · exact (State.ctx_of_ctxs (State.raise_ctxs ..) d).trans (t.ctx_modCtx_ne hd _)
      · rfl
    rw [State.complete_some _ _ _ h, State.pushRec, hnote, State.ctx_modCtx_ne _ hd, State.modRing, State.ctx_modCtx_ne _ hd]
    exact State.ctx_of_ctxs (s.uncounted_ctxs _) d

theorem KeepsMemory.complete (r status detail value : Nat) : KeepsMemory c s (s.complete c r status detail value) := by
  have hfget : ∀ p : Fld, p.lo ≤ p.hi → 0x1000 ≤ p.off → (s.complete c r status detail value).fget p = s.fget p :=
    fun p hp ho => s.complete_fget c r status detail value (p.apart_of_low hp ho (by decide)) (p.apart_of_low hp ho (by decide))
      (p.apart_of_low hp ho (by decide))
  have hcore : ∀ g, 0x1000 ≤ R.CORE_RES g := fun g => by
    change 0x1000 ≤ 0x01100000 + 0x1000000 * (g / 32) + 0x20000 * (g % 32) + 0x500
    omega
  have hframe := s.complete_frame c r status detail value
  have hothers := fun d (hd : d ≠ c) => s.complete_ctx_ne hd r status detail value
  generalize s.complete c r status detail value = u at hfget hframe hothers
  exact {
    tick := by rw [hframe]
    ecc := by rw [hframe]
    badSeg := by rw [hframe]
    state := fun d => hfget (F.CTX_STAT_STATE d) (Nat.le_add_right 28 3) (Nat.le_add_right 0x1000 (64 * d))
    occupant := State.occupant_of_fget (fun g => hfget (F.CORE_RES_OCCUPIED g) (Nat.le_refl 3) (hcore g))
      (fun g => hfget (F.CORE_RES_CTX g) (Nat.zero_le 2) (hcore g))
    others := hothers
    mem := hframe.mem
    ended := by rw [hframe] }

theorem KeepsMemory.completeAll (opc status : Nat) : KeepsMemory c s (s.completeAll c opc status) := by
  refine foldl_rel (KeepsMemory.refl c) KeepsMemory.trans (fun t r _ => ?_) s
  split
  · split
    · exact .complete t r status 0 0
    · exact .refl c t
  · exact .refl c t

theorem KeepsMemory.stopDone (hc : c < 8) : KeepsMemory c s (s.stopDone c) :=
  (KeepsMemory.modCtx c s _).trans ((KeepsMemory.fset_ctxStat _ hc (by decide) 0).trans
    ((KeepsMemory.completeAll _ 4 stOk).trans (.completeAll _ 5 stOk)))

theorem KeepsMemory.showSteps (hc : c < 8) : KeepsMemory c s (s.showSteps c) :=
  .fset_ctxStat s hc (by decide) _

end

/-- Context `c` holds no core any more, and what its engines had under way is gone. -/
structure Leaves (c : Nat) (s u : State) : Prop where
  tick : u.tick = s.tick
  ecc : u.ecc = s.ecc
  badSeg : u.badSeg = s.badSeg
  mem : u.mem = s.mem
  ctxs : u.ctxs = s.ctxs
  state : ∀ d, d < 8 → u.ctxState d = s.ctxState d
  ended : ∀ y ∈ u.ended, y ∈ s.ended
  gone : NoCores u c

section
variable (s : State) (c : Nat)

/-- R212: what the engines' end on the cores of a context touches. -/
theorem State.blankCores_frame (l : List Nat) : ∃ x y e k, l.foldl (fun s g => s.blankCore c g) s
    = { s with dies := x, cores := y, ended := e, xfers := k } ∧ ∀ z ∈ e, z ∈ s.ended := by
  induction l generalizing s with
  | nil => exact ⟨s.dies, s.cores, s.ended, s.xfers, rfl, fun _ hz => hz⟩
  | cons g r ih =>
    obtain ⟨x, y, e, k, hu, he⟩ := ih (s.blankCore c g)
    exact ⟨x, y, e, k, hu, fun z hz => List.mem_of_mem_filter (he z hz)⟩

theorem State.occupied_nodup : (s.occupied c).Nodup := List.nodup_range.filter _

theorem State.mem_occupied {g : Nat} : g ∈ s.occupied c ↔ g < 128 ∧ s.occupant g = some c := by
  rw [State.occupied, List.mem_filter, List.mem_range, beq_iff_eq]

theorem State.release_occupant_ne {g h : Nat} (hne : h ≠ g) : (s.release h).occupant g = s.occupant g := by
  have hreg : R.CORE_RES g ≠ R.CORE_RES h := fun e => hne (coreRes_injective e).symm
  rw [State.occupant, State.occupant, State.release, s.fget_fset_reg (p := F.CORE_RES_OCCUPIED g) hreg,
    s.fget_fset_reg (p := F.CORE_RES_CTX g) hreg]

theorem State.release_occupant_same (g : Nat) : (s.release g).occupant g = none := by
  have hfree : (s.release g).fget (F.CORE_RES_OCCUPIED g) = 0 := s.fget_fset_self (by decide) (by decide)
  rw [State.occupant, hfree, if_neg (by decide)]

/-- R213: a context whose cores are released occupies none. -/
theorem State.releaseAll_gone : NoCores (s.releaseAll c) c := by
  intro g hg
  by_cases hin : g.val ∈ s.occupied c
  · obtain ⟨t, -, ht⟩ := foldl_view_once (view := fun u : State => u.occupant g) (f := State.release) hin
      (s.occupied_nodup c) (fun t h _ hne => t.release_occupant_ne hne) s
    rw [State.releaseAll, ht, t.release_occupant_same] at hg
    exact absurd hg nofun
  · have hsame := foldl_view_same (view := fun u : State => u.occupant g) (f := State.release) (l := s.occupied c)
      (fun t h hh => t.release_occupant_ne fun e => hin (e ▸ hh)) s
    exact hin ((s.mem_occupied c).mpr ⟨g.isLt, hsame.symm.trans hg⟩)

theorem State.releaseAll_frame : s.releaseAll c = { s with regs := (s.releaseAll c).regs } :=
  foldl_rel (rel := fun s u : State => u = { s with regs := u.regs }) (fun _ => rfl) (fun h h' => h'.trans (by rw [h]))
    (fun _ _ _ => rfl) s

theorem State.releaseAll_ctxState {d : Nat} (hd : d < 8) : (s.releaseAll c).ctxState d = s.ctxState d :=
  foldl_view_same (view := fun u : State => u.ctxState d)
    (fun t g _ => t.fget_fset_reg (p := F.CTX_STAT_STATE d) (coreRes_ne_ctxStat hd g).symm 0) s

theorem State.leaveCores_leaves : Leaves c s (s.leaveCores c) := by
  obtain ⟨x, y, e, k, hblank, he⟩ := s.blankCores_frame c (s.occupied c)
  rw [State.leaveCores, hblank, State.idleCores]
  have hframe := State.releaseAll_frame { s with dies := x, cores := y, ended := e, xfers := k } c
  have hgone := State.releaseAll_gone { s with dies := x, cores := y, ended := e, xfers := k } c
  have hstate := fun d (hd : d < 8) => State.releaseAll_ctxState { s with dies := x, cores := y, ended := e, xfers := k } c hd
  generalize State.releaseAll { s with dies := x, cores := y, ended := e, xfers := k } c = u at hframe hgone hstate
  exact {
    tick := by rw [hframe]
    ecc := by rw [hframe]
    badSeg := by rw [hframe]
    mem := by rw [hframe]
    ctxs := by rw [hframe]
    state := hstate
    ended := by rw [hframe]; exact he
    gone := hgone }

end

/-- Context `c` is IDLE and holds no core; the other contexts, memory, the upsets and the tick are as they were. -/
structure Idles (c : Nat) (s u : State) : Prop where
  tick : u.tick = s.tick
  clean : s.clean → u.clean
  mem : u.mem = s.mem
  idle : u.ctxState c = ctxIdle
  state : ∀ d, d < 8 → d ≠ c → u.ctxState d = s.ctxState d
  others : ∀ d, d ≠ c → u.ctx d = s.ctx d
  ended : ∀ y ∈ u.ended, y ∈ s.ended
  gone : NoCores u c

/-- R209: a context that goes IDLE leaves its cores, whatever stop it had pending. -/
theorem State.goIdle_idles {s : State} {c : Nat} (hc : c < 8) : Idles c s (s.goIdle c) := by
  have hleaves := s.leaveCores_leaves c
  generalize hv : s.leaveCores c = v at hleaves
  have hlaunch := KeepsMemory.modCtx c v fun x => { x with launch := none, ran := false, counts := [] }
  generalize hw : (v.modCtx c fun x => { x with launch := none, ran := false, counts := [] }) = w at hlaunch
  have hrest : KeepsMemory c (w.setCtxState c ctxIdle) (s.goIdle c) := by
    rw [State.goIdle, hv, hw]
    exact (KeepsMemory.stopDone _ hc).trans (.showSteps _ hc)
  generalize s.goIdle c = u at hrest
  exact {
    tick := hrest.tick.trans (hlaunch.tick.trans hleaves.tick)
    clean := fun h => ⟨hrest.ecc.trans (hlaunch.ecc.trans (hleaves.ecc.trans h.1)),
      hrest.badSeg.trans (hlaunch.badSeg.trans (hleaves.badSeg.trans h.2))⟩
    mem := hrest.mem.trans (hlaunch.mem.trans hleaves.mem)
    idle := (hrest.state c).trans (w.fget_fset_self ⟨Nat.le_add_right 28 3, by decide⟩ (by decide))
    state := fun d hd hne => (hrest.state d).trans ((w.fget_fset_reg (p := F.CTX_STAT_STATE d)
      (fun e => hne (ctxStat_injective e)) _).trans ((hlaunch.state d).trans (hleaves.state d hd)))
    others := fun d hd => (hrest.others d hd).trans ((hlaunch.others d hd).trans (State.ctx_of_ctxs hleaves.ctxs d))
    ended := fun y hy => hleaves.ended y (hlaunch.ended ▸ hrest.ended ▸ hy)
    gone := fun g hg => hleaves.gone g (((hrest.occupant g).trans ((State.occupant_of_fget
      (fun g => w.fget_fset_reg (p := F.CORE_RES_OCCUPIED g) (coreRes_ne_ctxStat hc g) _)
      (fun g => w.fget_fset_reg (p := F.CORE_RES_CTX g) (coreRes_ne_ctxStat hc g) _) g).trans (hlaunch.occupant g))).symm.trans hg) }

section
variable {s : State} {c n : Nat}

/-- R336: where no imposition is pending, a step boundary is the latch of the registers and the boundary's work. -/
theorem State.boundary_of_pend_none (h : (s.coll c).pend = none) : s.boundary c = (s.latch c).boundaryWork c := by
  rw [State.boundary, State.impositionDue, h]

theorem Background.boundary (hs : s.clean) (h : (s.coll c).pend = none) : Background c s (s.boundary c) := by
  have hlatch : Background c s (s.latch c) := .modColl s _
  rw [State.boundary_of_pend_none h]
  exact hlatch.trans (.boundaryWork (hlatch.clean hs))

/-- R336: a boundary whose work is done only latches the registers. -/
theorem State.boundary_done (h : (s.coll c).pend = none) (hb : (s.coll c).bound = .done) : s.boundary c = s.latch c := by
  have hlatch : ((s.latch c).coll c).bound = .done := by
    rw [State.latch, State.coll, State.modColl, State.ctx_modCtx_same]
    exact hb
  rw [State.boundary_of_pend_none h, State.boundaryWork, if_pos hlatch]

/-- R209: between steps, with none left, a context goes IDLE after the work of the boundary. -/
theorem State.runTick_idle (hs : s.clean) (hl : (s.coll c).lost = false) (hi : (s.ctx c).pos.inStep = false)
    (hp : (s.coll c).pend = none) (h0 : s.stepsLeft c = 0) : s.runTick c n = (s.boundary c).goIdle c := by
  obtain ⟨k, m, f, hown⟩ := (Background.boundary hs hp).own
  have hleft : (s.boundary c).stepsLeft c = 0 := by
    rw [State.stepsLeft, hown]
    exact h0
  change (s.ctx c).coll.lost = false at hl
  simp only [State.runTick, hl, hi, hleft, Bool.false_eq_true, false_and, and_false, if_false, if_true]

end

theorem exec_impressionTick_idles {s : State} {c : CtxId} (hdue : s.tickDue = true) (hend : s.ended = [])
    (h : ∀ d : CtxId, d.val ≠ c → Passive s d) (hst : s.ctxState c = ctxRunning) (hf : (s.ctx c).faultStop = false)
    (hr : (s.coll c).repair = none) (hl : (s.coll c).lost = false) (hi : (s.ctx c).pos.inStep = false)
    (hp : (s.coll c).pend = none) (hs : s.clean) (h0 : s.stepsLeft c = 0) :
    ∃ u, exec .impressionTick s = .next u ∧ u.ctxState c = ctxIdle ∧ NoCores u c ∧ u.tick = s.nextTick
      ∧ ((s.coll c).bound = .done → u.mem = s.mem) := by
  obtain ⟨t, l, ht, htick, hrest, hfire⟩ := State.fireTick_visit h
  have hexec := exec_impressionTick_due hdue
  rw [hfire] at hexec
  have hclean : t.clean := by rw [ht.frame]; exact hs
  have hcoll := ht.coll c.val
  have hpend : (t.coll c).pend = none := by rw [hcoll]; exact hp
  have hrun := State.runTick_idle (n := s.nextTick) hclean (by rw [hcoll]; exact hl)
    (by rw [ht.part (f := Ctx.pos) fun _ _ => rfl]; exact hi) hpend ((ht.stepsLeft c).trans h0)
  rw [State.ctxTick_running ((ht.ctxState c).trans hst) ((ht.part (f := Ctx.faultStop) (fun _ _ => rfl) c.val).trans hf)
    (by rw [hcoll]; exact hr), hrun] at hexec
  have hback := Background.boundary hclean hpend
  have hdone := State.boundary_done (c := c) hpend
  generalize t.boundary c = b at hexec hback hdone
  have hidles : Idles c b (b.goIdle c) := State.goIdle_idles c.isLt
  generalize b.goIdle c = g at hexec hidles
  have hran := KeepsMemory.modCtx c g fun y => { y with ran := g.ctxState c == ctxRunning && y.pos.inStep }
  generalize g.modCtx c _ = v at hexec hran
  have hpass : ∀ d ∈ l, Passive v d := fun d hd => by
    obtain ⟨hd8, hne, hpd⟩ := hrest d hd
    have hctx : v.ctx d = t.ctx d := (hran.others d hne).trans ((hidles.others d hne).trans (hback.others d hne))
    exact ⟨(hran.state d).trans ((hidles.state d hd8 hne).trans ((hback.state d).trans hpd.state)),
      (congrArg Ctx.faultStop hctx).trans hpd.fault, (congrArg (fun x => x.coll.repair) hctx).trans hpd.repair⟩
  obtain ⟨w, x, y, hw, hframe, -⟩ := State.visits_tickEnded hpass s.nextTick
  rw [hw] at hexec
  have hended : ∀ z ∈ w.ended, z ∈ b.ended := by
    rw [hframe]
    exact fun z hz => hidles.ended z (hran.ended ▸ hz)
  have hbegun : t.ended = [] := by rw [ht.frame]; exact hend
  have hfailures : ∀ z ∈ w.ended, TaskFailure c z := fun z hz =>
    (hback.ended z (hended z hz)).resolve_left (by rw [hbegun]; exact List.not_mem_nil)
  have hwclean : w.clean := by
    rw [hframe]
    exact hran.clean (hidles.clean (hback.clean hclean))
  have hwregs : w.regs = v.regs := by rw [hframe]
  have hflush : KeepsOthers c w w.flush := KeepsOthers.flushN hwclean hfailures 4096
  refine ⟨_, hexec, ?_, fun q hq => hidles.gone q ?_, ?_, fun hbound => ?_⟩
  · rw [hflush.state, State.ctxState_of_regs hwregs, hran.state]
    exact hidles.idle
  · rw [← hran.occupant, ← State.occupant_of_regs hwregs, ← hflush.occupant]
    exact hq
  · rw [hflush.tick, hframe]
    exact hran.tick.trans (hidles.tick.trans (hback.tick.trans htick))
  · have hlatch := hdone (by rw [hcoll]; exact hbound)
    have hnone : w.ended = [] := List.eq_nil_iff_forall_not_mem.mpr fun z hz => by
      have hz' := hended z hz
      rw [hlatch] at hz'
      exact List.not_mem_nil (hbegun ▸ hz')
    rw [State.flush_of_ended_nil hnone, hframe]
    exact hran.mem.trans (hidles.mem.trans (by rw [hlatch, ht.frame]; rfl))

/-! ### The statement -/

/-- Settles O31: a tick visits each context, and the FREE ones are left as they are, so that what it does to the one other
context, if there is one, is the rule above of that context's tick. -/
theorem tickAdvancesContexts : Obligations.TickAdvancesContexts := by
  unfold Obligations.TickAdvancesContexts
  intro s hdue hend hrepair
  have hpassive : ∀ (c : Nat), OnlyContext s c → ∀ d : CtxId, d.val ≠ c → Passive s d := fun c honly d hd =>
    ⟨(honly d hd).1, (honly d hd).2, hrepair d⟩
  refine ⟨fun honly => ?_, fun c honly hst hf hl hw => ⟨fun hi hp hs h0 => ?_, fun hi hp he hs hd => ?_⟩⟩
  · exact exec_impressionTick_free hdue hend fun d => hpassive 8 honly d (Nat.ne_of_lt d.isLt)
  · exact exec_impressionTick_idles hdue hend (hpassive c honly) hst hf (hrepair c) hl hi hp hs h0
  · exact exec_impressionTick_slips hdue hend (hpassive c honly) hst hf (hrepair c) hl hw hi hp he hs hd

end Sys2Proof.Machine
end

section
/-!
PROOFS. Decoding of BS8 and BS16 blocks (R68): a value of at most 24 significant bits that is not below FP32's normal range
rounds to itself or saturates; which of the two, is the comparison with the largest finite value; and a block's decode is that
of its elements. With them the statement BlocksDecodeToFp32.
-/

namespace Sys2Proof.Machine

/-! ### FP32 codes of normal values -/

theorem fpFP32_fracBits : fpFP32.fracBits = 23 := rfl
theorem fpFP32_bias : fpFP32.bias = 127 := rfl
theorem fpFP32_fn : fpFP32.fn = false := rfl

/-- R36: the value of a normal FP32 code. -/
theorem decode_fp32_normal (neg : Bool) {field frac : Nat} (h : 1 ≤ field ∧ field ≤ 254) (hf : frac < 2 ^ 23) :
    fpFP32.decode (fpFP32.sign neg + (field * 2 ^ 23 + frac)) = .fin neg (frac + 2 ^ 23) ((field : Int) - 127 - 23) := by
  have hs : fpFP32.sign neg = b2n neg * 2 ^ 31 := by cases neg <;> rfl
  have hsign : bit (fpFP32.sign neg + (field * 2 ^ 23 + frac)) 31 = neg := by
    have hbit : (fpFP32.sign neg + (field * 2 ^ 23 + frac)) / 2 ^ 31 = b2n neg := by omega
    rw [bit, hbit]
    cases neg <;> rfl
  have hfield : bits (fpFP32.sign neg + (field * 2 ^ 23 + frac)) 30 23 = field := by unfold bits; omega
  have hfrac : (fpFP32.sign neg + (field * 2 ^ 23 + frac)) % 2 ^ 23 = frac := by omega
  generalize fpFP32.sign neg + (field * 2 ^ 23 + frac) = code at hsign hfield hfrac
  have htop : field ≠ 2 ^ 8 - 1 := by omega
  have hzero : field ≠ 0 := by omega
  simp only [Fp.decode, fpFP32, Nat.reduceAdd, Nat.reduceSub, hsign, hfield, hfrac]
  rw [if_neg fun p => htop p.1, if_neg fun p => htop p.1, if_neg hzero]
  rfl

/-- The significand of a magnitude of at most 24 bits, shifted up to FP32's 24 bits. -/
def sig24 (mag : Nat) : Nat := mag * 2 ^ (23 - Nat.log2 mag)

theorem le_sig24 {mag : Nat} (h0 : mag ≠ 0) (h : mag < 2 ^ 24) : 2 ^ 23 ≤ sig24 mag := by
  have hlog : Nat.log2 mag < 24 := (Nat.log2_lt h0).mpr h
  calc 2 ^ 23 = 2 ^ Nat.log2 mag * 2 ^ (23 - Nat.log2 mag) := by rw [← Nat.pow_add]; congr 1; omega
    _ ≤ sig24 mag := Nat.mul_le_mul_right _ (Nat.log2_self_le h0)

theorem sig24_lt {mag : Nat} (h0 : mag ≠ 0) (h : mag < 2 ^ 24) : sig24 mag < 2 ^ 24 := by
  have hlog : Nat.log2 mag < 24 := (Nat.log2_lt h0).mpr h
  calc sig24 mag < 2 ^ (Nat.log2 mag + 1) * 2 ^ (23 - Nat.log2 mag) :=
        Nat.mul_lt_mul_of_pos_right Nat.lt_log2_self (Nat.two_pow_pos _)
    _ = 2 ^ 24 := by rw [← Nat.pow_add]; congr 1; omega

/-- R51, R60: a value of at most 24 significant bits, not below FP32's normal range, is rounded to its own code where its
exponent field is below 255, and saturates by R60 where it is not. -/
theorem round_fp32_normal (mode : Round) (satBit : Bool) (r : Nat) (neg : Bool) {mag e : Nat} (h0 : mag ≠ 0)
    (h : mag < 2 ^ 24) (he : 1 ≤ e) :
    fpFP32.round mode satBit r (.fin neg mag ((e : Int) - 127)) =
      if e + Nat.log2 mag ≤ 254 then ⟨fpFP32.sign neg + ((e + Nat.log2 mag) * 2 ^ 23 + (sig24 mag - 2 ^ 23)), false, false⟩
      else ⟨fpFP32.sign neg + (if satBit || mode != .rne then fpFP32.maxCode else fpFP32.infCode), true, false⟩ := by
  have hlog : Nat.log2 mag < 24 := (Nat.log2_lt h0).mpr h
  have hlo := le_sig24 h0 h
  have hhi := sig24_lt h0 h
  have hnormal : ¬ (e : Int) - 127 + Nat.log2 mag < 1 - (fpFP32.bias : Int) := by rw [fpFP32_bias]; omega
  have hq : roundShift mag ((e : Int) - 127 - ((e : Int) - 127 + Nat.log2 mag - fpFP32.fracBits)) mode r = sig24 mag := by
    rw [fpFP32_fracBits, roundShift, if_pos (by omega), sig24]
    congr 2
    omega
  have hcarry : decide (2 ^ (fpFP32.fracBits + 1) ≤ sig24 mag) = false := decide_eq_false (Nat.not_le.mpr hhi)
  have hfield : ((e : Int) - 127 + Nat.log2 mag - fpFP32.fracBits + fpFP32.fracBits + fpFP32.bias).toNat
      = e + Nat.log2 mag := by
    rw [fpFP32_bias]; omega
  have hmax : fpFP32.maxCode = 254 * 2 ^ 23 + (2 ^ 23 - 1) := rfl
  have hloss : decide (sig24 mag = 0) = false := decide_eq_false (by omega)
  simp only [Fp.round, if_neg h0, if_neg hnormal, hq, hcarry, Bool.false_eq_true, if_false,
    if_neg (show ¬ sig24 mag < 2 ^ fpFP32.fracBits from Nat.not_lt.mpr hlo), hfield,
    if_neg (show e + Nat.log2 mag ≠ 0 by omega), hloss]
  by_cases hle : e + Nat.log2 mag ≤ 254
  · rw [if_neg (by rw [hmax, fpFP32_fracBits]; omega), if_pos hle, fpFP32_fracBits]
  · rw [if_pos (by rw [hmax, fpFP32_fracBits]; omega), if_neg hle, fpFP32_fn, Bool.false_or]

/-! ### What lies beyond FP32's finite range -/

/-- Whether q × 2^(e − 127) lies beyond ±(2^24 − 1) × 2^104, FP32's largest finite value (R68). -/
def beyondFp32 (e : Nat) (q : Int) : Bool := decide ((2 ^ 24 - 1) * 2 ^ 231 < q.natAbs * 2 ^ e)

/-- The comparison with the largest finite value is one of the exponent field with 254. -/
theorem beyondFp32_eq_false_iff {e : Nat} {q : Int} (h0 : q ≠ 0) (h : q.natAbs < 2 ^ 24) :
    beyondFp32 e q = false ↔ e + Nat.log2 q.natAbs ≤ 254 := by
  have hmag : q.natAbs ≠ 0 := Int.natAbs_ne_zero.mpr h0
  have hlog : Nat.log2 q.natAbs < 24 := (Nat.log2_lt hmag).mpr h
  rw [beyondFp32, decide_eq_false_iff_not, not_lt]
  refine ⟨fun hle => ?_, fun hle => ?_⟩
  · by_contra hgt
    have hbig : 2 ^ 255 ≤ q.natAbs * 2 ^ e := calc
      2 ^ 255 ≤ 2 ^ (Nat.log2 q.natAbs + e) := Nat.pow_le_pow_right Nat.two_pos (by omega)
      _ = 2 ^ Nat.log2 q.natAbs * 2 ^ e := Nat.pow_add ..
      _ ≤ q.natAbs * 2 ^ e := Nat.mul_le_mul_right _ (Nat.log2_self_le hmag)
    omega
  · have hsig : sig24 q.natAbs ≤ 2 ^ 24 - 1 := Nat.le_sub_one_of_lt (sig24_lt hmag h)
    calc q.natAbs * 2 ^ e ≤ q.natAbs * 2 ^ (23 - Nat.log2 q.natAbs + 231) :=
          Nat.mul_le_mul_left _ (Nat.pow_le_pow_right Nat.two_pos (by omega))
      _ = sig24 q.natAbs * 2 ^ 231 := by rw [sig24, Nat.pow_add, Nat.mul_assoc]
      _ ≤ (2 ^ 24 - 1) * 2 ^ 231 := Nat.mul_le_mul_right _ hsig

/-! ### The elements of a block -/

/-- The rounding that decodes one element `q` of a block of exponent `e` (R68). -/
def bsElement (e : Nat) (q : Int) : Rounded :=
  fpFP32.round .rne true 0 (.fin (decide (q < 0)) q.natAbs ((e : Int) - 127))

theorem bsDecode_poisoned {b : Block} (h : b.poison = true) : bsDecode b = (List.replicate 64 0x7FC00000, 0) := if_pos h

theorem bsDecode_sound {b : Block} (h : b.poison = false) :
    bsDecode b = ((b.vals.map (bsElement b.exp)).map (·.code), ((b.vals.map (bsElement b.exp)).filter (·.sat)).length) :=
  if_neg (by simp [h])

/-- Every value of a block, of 8 bits or of 16, has fewer significant bits than FP32. -/
theorem Block.Fits.natAbs_lt {b : Block} (h : b.Fits) {q : Int} (hq : q ∈ b.vals) : q.natAbs < 2 ^ 24 := by
  have hr := h.range q hq
  split at hr <;> omega

theorem bsElement_zero (e : Nat) : bsElement e 0 = ⟨0, false, false⟩ := rfl

section
variable {e : Nat} {q : Int}

/-- R68: a value beyond FP32's finite range saturates, and is counted. -/
theorem bsElement_beyond (he : 1 ≤ e) (h : q.natAbs < 2 ^ 24) (hb : beyondFp32 e q = true) :
    bsElement e q = ⟨if q < 0 then 0xFF7FFFFF else 0x7F7FFFFF, true, false⟩ := by
  have h0 : q ≠ 0 := by rintro rfl; simp [beyondFp32] at hb
  have hgt : ¬ e + Nat.log2 q.natAbs ≤ 254 := fun hle =>
    Bool.noConfusion (hb.symm.trans ((beyondFp32_eq_false_iff h0 h).mpr hle))
  rw [bsElement, round_fp32_normal .rne true 0 _ (Int.natAbs_ne_zero.mpr h0) h he, if_neg hgt]
  by_cases hneg : q < 0
  · rw [decide_eq_true hneg, if_pos hneg]; rfl
  · rw [decide_eq_false hneg, if_neg hneg]; rfl

/-- R68: a value other than 0 within FP32's finite range decodes to its own code. -/
theorem bsElement_within (he : 1 ≤ e) (h : q.natAbs < 2 ^ 24) (h0 : q ≠ 0) (hb : beyondFp32 e q = false) :
    bsElement e q = ⟨fpFP32.sign (decide (q < 0)) + ((e + Nat.log2 q.natAbs) * 2 ^ 23 + (sig24 q.natAbs - 2 ^ 23)), false,
      false⟩ := by
  rw [bsElement, round_fp32_normal .rne true 0 _ (Int.natAbs_ne_zero.mpr h0) h he,
    if_pos ((beyondFp32_eq_false_iff h0 h).mp hb)]

/-- R68: an element is counted as saturated where its value lies beyond FP32's finite range, and nowhere else. -/
theorem bsElement_sat (he : 1 ≤ e) (h : q.natAbs < 2 ^ 24) : (bsElement e q).sat = beyondFp32 e q := by
  cases hb : beyondFp32 e q with
  | true => rw [bsElement_beyond he h hb]
  | false =>
    by_cases h0 : q = 0
    · rw [h0, bsElement_zero]
    · rw [bsElement_within he h h0 hb]

/-- R68: within FP32's finite range the code of an element has exactly the value q × 2^(e − 127). -/
theorem bsElement_exact (he : 1 ≤ e) (h : q.natAbs < 2 ^ 24) (hb : beyondFp32 e q = false) :
    ∃ m x, fpFP32.decode (bsElement e q).code = .fin (decide (q < 0)) m x
      ∧ (m : ℚ) * (2 : ℚ) ^ x = (q.natAbs : ℚ) * (2 : ℚ) ^ ((e : Int) - 127) := by
  by_cases h0 : q = 0
  · subst h0
    exact ⟨0, -149, by rw [bsElement_zero]; rfl, by rw [Int.natAbs_zero, Nat.cast_zero, zero_mul, zero_mul]⟩
  have hmag : q.natAbs ≠ 0 := Int.natAbs_ne_zero.mpr h0
  have hlog : Nat.log2 q.natAbs < 24 := (Nat.log2_lt hmag).mpr h
  have hle := (beyondFp32_eq_false_iff h0 h).mp hb
  have hlo := le_sig24 hmag h
  have hhi := sig24_lt hmag h
  rw [bsElement_within he h h0 hb, decode_fp32_normal _ ⟨by omega, hle⟩ (by omega), Nat.sub_add_cancel hlo]
  refine ⟨_, _, rfl, ?_⟩
  rw [sig24, Nat.cast_mul, Nat.cast_pow, Nat.cast_ofNat, ← zpow_natCast, mul_assoc, ← zpow_add₀ two_ne_zero]
  congr 2
  omega

end

/-! ### The statement -/

/-- Settles O60: a block's decode is that of its elements, each of which saturates, and is counted, where its value lies beyond
FP32's finite range and is exact elsewhere. -/
theorem blocksDecodeToFp32 : Obligations.BlocksDecodeToFp32 := by
  unfold Obligations.BlocksDecodeToFp32
  intro b hfits
  refine ⟨bsDecode_poisoned, fun hsound => ?_⟩
  have he := hfits.exp.1
  rw [bsDecode_sound hsound]
  refine ⟨by rw [List.length_map, List.length_map, hfits.count], ?_, fun i => ?_⟩
  · change ((b.vals.map (bsElement b.exp)).filter (·.sat)).length = (b.vals.filter (beyondFp32 b.exp)).length
    rw [List.filter_map, List.length_map]
    exact congrArg List.length (List.filter_congr fun q hq => bsElement_sat he (hfits.natAbs_lt hq))
  · have hi : i.val < b.vals.length := by rw [hfits.count]; exact i.isLt
    have hq : b.vals.getD i 0 = b.vals[i.val] := List.getD_eq_getElem _ _ hi
    have hcode : ((b.vals.map (bsElement b.exp)).map (·.code)).getD i 0 = (bsElement b.exp (b.vals.getD i 0)).code := by
      rw [hq, List.getD_eq_getElem _ _ (by simpa using hi), List.getElem_map, List.getElem_map]
    have hlt : (b.vals.getD i 0).natAbs < 2 ^ 24 := hfits.natAbs_lt (hq ▸ List.getElem_mem hi)
    simp only [hcode]
    generalize b.vals.getD i 0 = q at hlt
    refine ⟨fun h0 => by rw [h0, bsElement_zero], fun hb => ?_, bsElement_exact he hlt⟩
    rw [bsElement_beyond he hlt hb]

end Sys2Proof.Machine
end

section
/-!
PROOFS. One core and its threads: what an operation on core `g` leaves as it was, the waits that end with an instruction
(R104), and the issue of a control-core word (R104, R109, R110).
-/

namespace Sys2Proof.Machine

/-! ### Operations on one core -/

section
variable {s t u : State} {g : Nat}

theorem OnlyCore.refl (s : State) (g : Nat) : OnlyCore s s g := ⟨rfl, fun _ _ => rfl⟩

theorem OnlyCore.trans (h : OnlyCore s t g) (h' : OnlyCore t u g) : OnlyCore s u g :=
  ⟨h'.1.trans (by rw [h.1]), fun x hx => (h'.2 x hx).trans (h.2 x hx)⟩

theorem OnlyCore.setCore (s : State) (g : Nat) (x : Core) : OnlyCore s (s.setCore g x) g :=
  ⟨rfl, fun _ hn => s.core_setCore_ne hn x⟩

theorem OnlyCore.modCore (s : State) (g : Nat) (f : Core → Core) : OnlyCore s (s.modCore g f) g := .setCore s g _

theorem OnlyCore.setThread (s : State) (g i : Nat) (x : Thread) : OnlyCore s (s.setThread g i x) g := .modCore s g _

theorem OnlyCore.settle (s : State) (g : Nat) : OnlyCore s (s.settle g) g := .setCore s g _

section
variable (h : OnlyCore s u g)
include h

theorem OnlyCore.mem : u.mem = s.mem := by rw [h.1]

theorem OnlyCore.regs : u.regs = s.regs := by rw [h.1]

theorem OnlyCore.dies : u.dies = s.dies := by rw [h.1]

theorem OnlyCore.clean (hs : s.clean) : u.clean := by
  obtain ⟨he, hb⟩ := hs
  rw [h.1]
  exact ⟨he, hb⟩

end

end

/-! ### Memory without an upset -/

theorem State.bytes_of_mem {s u : State} (h : u.mem = s.mem) (a n : Nat) : u.bytes a n = s.bytes a n := by
  rw [State.bytes, State.bytes, h]

theorem State.le_of_mem {s u : State} (h : u.mem = s.mem) (a n : Nat) : u.le a n = s.le a n := by
  rw [State.le, State.le, State.bytes_of_mem h]

theorem State.clean.checkRead {s : State} (h : s.clean) (a n : Nat) (c : Option Nat) : s.checkRead a n c = (s, true) :=
  State.checkRead_clean h.1 h.2 a n c

/-! ### Waits that end (R104) -/

/-- Thread `x`, number `i` of core `g`, once FENCE and GPEEK waits that are over have ended. -/
def State.settledThread (s : State) (g i : Nat) (x : Thread) : Thread :=
  match x.st with
  | .waitFence => if s.outstanding g i then x else { x with st := .run }
  | .waitPeek =>
    match (s.core g).mv with
    | [] => x
    | e :: _ => { x with st := .run, sreg := x.sreg.set x.arg (BitVec.ofNat 64 e) }
  | _ => x

/-- The threads of core `g` once these waits have ended. -/
def State.settledThreads (s : State) (g : Nat) : List Thread :=
  ((List.range (s.core g).thr.length).zip (s.core g).thr).map fun p => s.settledThread g p.1 p.2

section
variable (s : State) (g : Nat)

theorem State.settle_eq : s.settle g = s.setCore g { s.core g with thr := s.settledThreads g } := rfl

theorem State.core_settle_same : (s.settle g).core g = { s.core g with thr := s.settledThreads g } := by
  rw [s.settle_eq, State.core_setCore_same]

theorem State.thread_settle (i : Nat) : (s.settle g).thread g i = s.settledThread g i (s.thread g i) := by
  have hcore : (s.settle g).thread g i = (s.settledThreads g).getD i Thread.idle := by
    rw [State.thread, State.core_settle_same]
  rw [hcore, State.thread, State.settledThreads]
  by_cases hi : i < (s.core g).thr.length
  · rw [List.getD_eq_getElem _ _ (by simpa using hi), List.getD_eq_getElem _ _ hi, List.getElem_map, List.getElem_zip,
      List.getElem_range]
  · rw [List.getD_eq_default _ _ (by simpa using hi), List.getD_eq_default _ _ (Nat.le_of_not_lt hi)]
    rfl

variable {s g}

theorem State.settledThread_of_run {x : Thread} (h : x.st = .run) (i : Nat) : s.settledThread g i x = x := by
  simp only [State.settledThread, h]

theorem State.settledThread_of_ended {x : Thread} (h : x.st = .ended) (i : Nat) : s.settledThread g i x = x := by
  simp only [State.settledThread, h]

/-- R110: a FENCE with nothing outstanding is over at once. -/
theorem State.settledThread_of_fence {x : Thread} {i : Nat} (h : x.st = .waitFence) (ho : s.outstanding g i = false) :
    s.settledThread g i x = { x with st := .run } := by
  simp only [State.settledThread, h, ho, Bool.false_eq_true, if_false]

end

/-! ### Threads set -/

section
variable {s : State} {g i : Nat}

theorem State.thread_setThread_same (h : i < (s.core g).thr.length) (x : Thread) : (s.setThread g i x).thread g i = x := by
  rw [State.thread, State.setThread, State.core_modCore_same]
  exact listSet_getD_same _ _ _ _ h

/-- A thread in another state than IDLE is one of its core's. -/
theorem State.lt_of_thread_ne_idle (h : (s.thread g i).st ≠ .idle) : i < (s.core g).thr.length := by
  by_contra hn
  rw [State.thread, List.getD_eq_default _ _ (Nat.le_of_not_lt hn)] at h
  exact h rfl

end

/-! ### The issue of a word (R104, R109, R110) -/

/-- Core `g` once thread `i` has issued word `w`: the thread was the last to issue, and its program counter is past the word
and its payload. -/
def State.issued (s : State) (g i w : Nat) : State :=
  (s.modCore g fun c => { c with last := i, thrAt := listSet c.thrAt i s.timeUs }).setPc g i
    ((s.thread g i).pc + 4 + 4 * payloadLen w)

theorem OnlyCore.issued (s : State) (g i w : Nat) : OnlyCore s (s.issued g i w) g :=
  .trans (.modCore s g fun c => { c with last := i, thrAt := listSet c.thrAt i s.timeUs }) (.setThread _ g i _)

section
variable {s : State} {g i w p : Nat}

theorem CtcIssues.run (h : CtcIssues s g i w p) : (s.thread g i).st = .run := by
  have hp := List.find?_some h.pick
  simp only [Bool.and_eq_true, beq_iff_eq] at hp
  exact hp.1

theorem CtcIssues.lt (h : CtcIssues s g i w p) : i < (s.core g).thr.length :=
  State.lt_of_thread_ne_idle (by rw [h.run]; exact nofun)

theorem State.issued_thr_length : ((s.issued g i w).core g).thr.length = (s.core g).thr.length := by
  simp only [State.issued, State.setPc, State.setThread, State.core_modCore_same, listSet_length]

theorem CtcIssues.thread_issued (h : CtcIssues s g i w p) :
    (s.issued g i w).thread g i = { s.thread g i with pc := (s.thread g i).pc + 4 + 4 * payloadLen w } := by
  have e : ∀ x, (s.modCore g fun c => { c with last := i, thrAt := listSet c.thrAt i s.timeUs }).thread g x = s.thread g x :=
    fun x => by rw [State.thread, State.core_modCore_same]; rfl
  rw [State.issued, State.setPc, State.thread_setThread_same (by rw [State.core_modCore_same]; exact h.lt), e]

/-- An issue leaves every part of the core but its threads and what records the issue. -/
theorem State.issued_core : ∃ l n x, (s.issued g i w).core g = { s.core g with thr := l, last := n, thrAt := x } :=
  ⟨_, _, _, by rw [State.issued, State.setPc, State.setThread, State.core_modCore_same, State.core_modCore_same]⟩

theorem State.sregCheck_clean (h : (s.core g).sregUpset = .empty) (l : List Nat) : s.sregCheck g i l = (s, true) := by
  simp [State.sregCheck, h]

/-- R110: a legal word of the instruction asked for has its effect, and waits that this ends have ended. -/
theorem ctcRow_issues (h : CtcIssues s g i w p) {op : Nat} {unit : Option Nat}
    {eff : State → Nat → Nat → Nat → Option State} {u : State} (hop : wOpc w = op) (hunit : unit.getD (wUnit w) = wUnit w)
    (heff : eff (s.issued g i w) i w p = some u) : ctcRow op unit eff g s = u.settle g := by
  have hno : ¬(wOpc w ≠ op ∨ unit.getD (wUnit w) ≠ wUnit w) := by simp [hop, hunit]
  simp only [ctcRow, h.live, h.pick, h.fetch, h.legal, if_neg hno, h.clean.checkRead, State.sregCheck_clean h.regs,
    Bool.true_eq_false, if_false]
  rw [State.issued] at heff
  rw [heff]

end

end Sys2Proof.Machine
end

section
/-!
PROOFS. ISSUE, ENDI and FENCE (R75, R106, R109 to R113, R155), and the statement IssueEndAndFence.
-/

namespace Sys2Proof.Machine

/-! ### What an issue does to its core -/

section
variable {s : State} {g i w p : Nat} (h : CtcIssues s g i w p)
include h

theorem CtcIssues.sreg_issued (r : Nat) : (s.issued g i w).sreg g i r = (s.reg64 g i r).toNat := by
  rw [State.sreg, h.thread_issued]; rfl

theorem CtcIssues.lt_issued : i < ((s.issued g i w).core g).thr.length := by rw [State.issued_thr_length]; exact h.lt

/-- The thread that issued, once the instruction has joined a queue, stands past the word. -/
theorem CtcIssues.pc_queued {f : Core → Core} (hf : ∀ c, (f c).thr = c.thr) :
    ((((s.issued g i w).modCore g f).settle g).thread g i).pc = (s.thread g i).pc + 4 + 4 * payloadLen w := by
  have hx : ((s.issued g i w).modCore g f).thread g i = (s.issued g i w).thread g i := by
    rw [State.thread, State.core_modCore_same, hf, State.thread]
  rw [State.thread_settle, hx, h.thread_issued, State.settledThread_of_run]
  exact h.run

theorem CtcIssues.thread_setThr (st : ThrSt) : ((s.issued g i w).setThr g i st).thread g i =
    { s.thread g i with pc := (s.thread g i).pc + 4 + 4 * payloadLen w, st := st } := by
  rw [State.setThr, State.thread_setThread_same h.lt_issued, h.thread_issued]

end

theorem OnlyCore.issued_queued (s : State) (g i w : Nat) (f : Core → Core) :
    OnlyCore s (((s.issued g i w).modCore g f).settle g) g :=
  .trans (.trans (.issued s g i w) (.modCore _ g f)) (.settle _ g)

theorem OnlyCore.issued_setThr (s : State) (g i w : Nat) (st : ThrSt) :
    OnlyCore s (((s.issued g i w).setThr g i st).settle g) g :=
  .trans (.trans (.issued s g i w) (.setThread _ g i _)) (.settle _ g)

/-! ### The instructions -/

/-- The core whose XFE queue descriptor `l`, at LS offset `o`, has joined for thread `i` (R157). -/
def Core.withDesc (c : Core) (i o : Nat) (l : List Nat) (ready : Bool) : Core :=
  { c with xq := c.xq ++ [⟨c.nextDesc, c.nextDesc, i, o, l, ready⟩], nextDesc := c.nextDesc + 1 }

section
variable {g : CoreId} {s : State} {i w p : Nat} (h : CtcIssues s g i w p)
include h

theorem exec_issueMxe (hop : wOpc w = 14) (hunit : wUnit w = 0) : ∃ u e, exec (.issueMxe g) s = .next u
    ∧ (u.core g).xm = (s.core g).xm ++ [e] ∧ e.word = p ∧ e.thread = i
    ∧ (u.thread g i).pc = (s.thread g i).pc + 4 + 4 * payloadLen w ∧ OnlyCore s u g := by
  obtain ⟨l, n, x, hcore⟩ := s.issued_core (g := g) (i := i) (w := w)
  refine ⟨_, ⟨p, i, ?behind⟩, congrArg Host.Outcome.next (ctcRow_issues h hop hunit.symm rfl), ?queue, rfl, rfl,
    h.pc_queued fun _ => rfl, .issued_queued s g i w _⟩
  case queue => rw [State.core_settle_same, State.core_modCore_same, hcore]

theorem exec_issueVxe (hop : wOpc w = 14) (hunit : wUnit w = 1) : ∃ u, exec (.issueVxe g) s = .next u
    ∧ (u.core g).vq = (s.core g).vq ++ [⟨p, i, (s.reg64 g i (bits p 35 31)).toNat, (s.reg64 g i (bits p 30 26)).toNat,
        (s.reg64 g i (bits p 25 21)).toNat, (s.reg64 g i (bits p 20 16)).toNat, (s.reg64 g i (bits p 15 11)).toNat⟩]
    ∧ (u.thread g i).pc = (s.thread g i).pc + 4 + 4 * payloadLen w ∧ OnlyCore s u g := by
  obtain ⟨l, n, x, hcore⟩ := s.issued_core (g := g) (i := i) (w := w)
  refine ⟨_, congrArg Host.Outcome.next (ctcRow_issues h hop hunit.symm rfl), ?_, h.pc_queued fun _ => rfl,
    .issued_queued s g i w _⟩
  rw [State.core_settle_same, State.core_modCore_same, hcore]
  simp only [h.sreg_issued]

/-- R155, R157: a legal descriptor in the core's LS layout is copied into the XFE queue. -/
theorem exec_issueXfe (hop : wOpc w = 14) (hunit : wUnit w = 2) (hp : p < 32) {o : Nat} (ho : (s.reg64 g i p).toNat = o)
    (halign : o % 64 = 0) (hend : o + 64 ≤ 0x400000) (hls : s.lsOk g o 64 = true)
    (hlegal : descLegal g (s.descWords g o) = true) (howned : (descQuoins (s.descWords g o)).all (s.quoinOwned g) = true) :
    ∃ u d, exec (.issueXfe g) s = .next u ∧ (u.core g).xq = (s.core g).xq ++ [d] ∧ d.words = s.descWords g o
      ∧ d.thread = i ∧ d.addr = o ∧ (u.thread g i).pc = (s.thread g i).pc + 4 + 4 * payloadLen w ∧ OnlyCore s u g := by
  obtain ⟨l, n, x, hcore⟩ := s.issued_core (g := g) (i := i) (w := w)
  have honly := OnlyCore.issued s g i w
  have hoff : ¬(2 ^ 22 ≤ o ∨ o % 64 ≠ 0 ∨ 0x400000 < o + 64) := by omega
  have hls' : (s.issued g i w).lsOk g o 64 = true := hls
  have hwords : (s.issued g i w).descWords g o = s.descWords g o := rfl
  have hquoins : (descQuoins (s.descWords g o)).any (fun q => !(s.issued g i w).quoinOwned g q) = false := by
    rw [List.any_eq_false]
    intro q hq
    have hown : (s.issued g i w).quoinOwned g q = true := List.all_eq_true.mp howned q hq
    simp [hown]
  have hrow : exec (.issueXfe g) s = .next (((s.issued g i w).modCore g fun c => c.withDesc i o (s.descWords g o)
      (decide (dField (s.descWords g o) 5 53 22 ≤ (s.issued g i w).quoin g (dField (s.descWords g o) 5 63 54)))).settle g) := by
    refine congrArg Host.Outcome.next (ctcRow_issues h hop hunit.symm ?_)
    rw [if_neg (Nat.not_le.mpr hp)]
    simp only [h.sreg_issued, ho, if_neg hoff, hls', Bool.true_eq_false, if_false, (honly.clean h.clean).checkRead, hwords,
      hlegal, hquoins]
    rfl
  refine ⟨_, ⟨?id, ?chain, i, o, s.descWords g o, ?ready⟩, hrow, ?queue, rfl, rfl, rfl, h.pc_queued fun _ => rfl,
    .issued_queued s g i w _⟩
  case queue =>
    rw [State.core_settle_same, State.core_modCore_same, hcore]
    rfl

theorem exec_endi (hop : wOpc w = 15) : ∃ u, exec (.endi g) s = .next u ∧ (u.thread g i).st = ThrSt.ended
    ∧ SameRegs s u g i ∧ OnlyCore s u g := by
  have hx := h.thread_setThr .ended
  have hu := (((s.issued g i w).setThr g i .ended).thread_settle g i).trans
    (State.settledThread_of_ended (by rw [hx]) i)
  refine ⟨_, congrArg Host.Outcome.next (ctcRow_issues h hop rfl rfl), ?_, fun r => ?_, .issued_setThr s g i w _⟩
  · rw [hu, hx]
  · rw [State.reg64, hu, hx]; rfl

theorem exec_fence (hop : wOpc w = 16) (hdone : s.outstanding g i = false) : ∃ u, exec (.fence g) s = .next u
    ∧ (u.thread g i).st = ThrSt.run ∧ (u.thread g i).pc = (s.thread g i).pc + 4 + 4 * payloadLen w
    ∧ SameRegs s u g i ∧ OnlyCore s u g := by
  have hx := h.thread_setThr .waitFence
  have hout : ((s.issued g i w).setThr g i .waitFence).outstanding g i = false := by
    obtain ⟨l, n, x, hcore⟩ := s.issued_core (g := g) (i := i) (w := w)
    rw [← hdone]
    unfold State.outstanding
    rw [State.setThr, State.setThread, State.core_modCore_same, hcore]
    rfl
  have hu := (((s.issued g i w).setThr g i .waitFence).thread_settle g i).trans
    (State.settledThread_of_fence (by rw [hx]) hout)
  refine ⟨_, congrArg Host.Outcome.next (ctcRow_issues h hop rfl rfl), ?_, ?_, fun r => ?_, .issued_setThr s g i w _⟩
  · rw [hu]
  · rw [hu, hx]
  · rw [State.reg64, hu, hx]; rfl

end

/-- Settles O6: ISSUE to each unit puts its instruction at the queue's end, ENDI ends the thread, and a FENCE with nothing
outstanding is over at once. -/
theorem issueEndAndFence : Obligations.IssueEndAndFence := by
  unfold Obligations.IssueEndAndFence
  intro g s i w p h
  exact ⟨exec_issueMxe h, exec_issueVxe h, fun hop hu hp => exec_issueXfe h hop hu hp rfl, exec_endi h, exec_fence h⟩

end Sys2Proof.Machine
end

section
/-!
PROOFS. The matrix engine's instructions (R75 to R81): the rules of an entry that the engine takes, of a group that changes
its state, and of the checks of an operand, and with them the statements MatrixGroupStates and MatrixLoadOpenAndMultiply.
-/

namespace Sys2Proof.Machine

/-! ### Entries that the engine takes (R75) -/

section
variable (s : State) (g : Nat)

theorem OnlyCore.mxeTake : OnlyCore s (s.mxeTake g) g := .trans (.modCore s g _) (.settle _ g)

theorem OnlyCore.mxeWait (e : MEntry) : OnlyCore s (s.mxeWait g e) g := .trans (.modCore s g _) (.settle _ g)

theorem State.core_mxeTake :
    ∃ l, (s.mxeTake g).core g = { s.core g with xm := (s.core g).mxeRest, mx := none, thr := l } :=
  ⟨_, by rw [State.mxeTake, State.core_settle_same, State.core_modCore_same]⟩

theorem State.core_mxeWait (e : MEntry) :
    ∃ l, (s.mxeWait g e).core g = { s.core g with xm := (s.core g).mxeRest, mx := some e, thr := l } :=
  ⟨_, by rw [State.mxeWait, State.core_settle_same, State.core_modCore_same]⟩

end

section
variable {s u : State} {g : Nat} {e : MEntry}

/-- R75, R76: the engine runs the instruction asked for where it stands at the head, legal. -/
theorem mxeRow_takes (h : MxeTakes s g e) {op : Nat} {eff : State → Nat → MEntry → State} (hop : mOp e.word = op) :
    mxeRow op eff g s = eff s g e := by
  simp only [mxeRow, h.live, h.frozen, h.head, h.legal, hop, Bool.true_eq_false, Bool.false_eq_true, or_self, if_false,
    ne_eq, not_true_eq_false]

/-! ### Groups (R78) -/

theorem State.group_of_groups (h : (u.core g).groups = (s.core g).groups) (a : Nat) : u.group g a = s.group g a := by
  rw [State.group, State.group, h]

theorem State.id_of_group {a : Nat} {x : Group} (h : s.group g a = some x) : x.id = a := by
  simpa using List.find?_some h

/-- A group that replaces the held one of its number is the one held under it. -/
theorem State.group_setGroup {a : Nat} {x y : Group} (h : s.group g a = some x) (hy : y.id = x.id) :
    (s.setGroup g y).group g a = some y := by
  have hx := State.id_of_group h
  have hsame : ((fun z : Group => z.id == a) ∘ fun z => if z.id = y.id then y else z) = fun z => z.id == a := by
    funext z
    by_cases hz : z.id = y.id
    · rw [Function.comp, if_pos hz, hz]
    · rw [Function.comp, if_neg hz]
  rw [State.group, State.setGroup, State.core_modCore_same, List.find?_map, hsame, ← State.group, h, Option.map_some,
    if_pos hy.symm]

/-- A group in a listed state, for whose tiles the entry need not wait, takes the effect. -/
theorem groupRow_acts {x : Group} (hx : s.group g (mAg e.word) = some x) {from_ : List AgSt} (hst : x.st ∈ from_)
    {hold : Bool} (hidle : hold = false ∨ (s.core g).inFlight x.id = false) {eff : State → Group → State × Bool}
    (heff : eff s x = (u, true)) : groupRow s g e from_ hold eff = u.mxeTake g := by
  have hwait : (hold && (s.core g).inFlight x.id) = false := by rcases hidle with h | h <;> simp [h]
  rw [State.group] at hx
  simp only [groupRow, hx, List.contains_iff_mem.mpr hst, Bool.true_eq_false, hwait, Bool.false_eq_true, if_false, heff]

/-- R75, R78: while a tile of the group is in flight, the entry that asks for its end waits at the engine. -/
theorem groupRow_waits {x : Group} (hx : s.group g (mAg e.word) = some x) {from_ : List AgSt} (hst : x.st ∈ from_)
    (hbusy : (s.core g).inFlight x.id = true) {eff : State → Group → State × Bool} :
    groupRow s g e from_ true eff = s.mxeWait g e := by
  rw [State.group] at hx
  simp only [groupRow, hx, List.contains_iff_mem.mpr hst, Bool.true_eq_false, hbusy, Bool.and_self, if_false, if_true]

/-! ### The accumulator file without an upset -/

theorem State.clean.acfFresh (h : s.clean) (slot : Nat) : s.acfFresh g slot = s := by
  have hd : (s.ecc.dropIf fun a => decide (acfBase g slot ≤ a) && decide (a < acfBase g (slot + 1))) = s.ecc := by
    rw [h.1]; rfl
  rw [State.acfFresh, hd]

theorem State.clean.acfRead (h : s.clean) (slot : Nat) : s.acfRead g slot = (s, true) := by
  rw [State.acfRead, h.checkRead]; rfl

end

/-! ### PARK, RESUME, DRAIN and ABORT -/

/-- The core with a drain pending for the VXE (R81). -/
def Core.withDrain (c : Core) (d : Drain) : Core := { c with drains := c.drains ++ [d] }

section
variable {g : CoreId} {s : State} {e : MEntry} {x : Group} (h : MxeTakes s g e) (hx : s.group g (mAg e.word) = some x)
include hx

/-- The entry that replaces its group and leaves the galley. -/
theorem State.setGroup_taken {y : Group} (hy : y.id = x.id) :
    ((s.setGroup g y).mxeTake g).group g (mAg e.word) = some y ∧ (((s.setGroup g y).mxeTake g).core g).xm = (s.core g).mxeRest
      ∧ (((s.setGroup g y).mxeTake g).core g).mx = none ∧ OnlyCore s ((s.setGroup g y).mxeTake g) g := by
  obtain ⟨l, hcore⟩ := (s.setGroup g y).core_mxeTake g
  refine ⟨?_, ?_, ?_, .trans (.modCore s g _) (.mxeTake _ g)⟩
  · exact (State.group_of_groups (by rw [hcore]) _).trans (State.group_setGroup hx hy)
  · rw [hcore, State.setGroup, State.core_modCore_same]; rfl
  · rw [hcore]

include h

theorem exec_park (hop : mOp e.word = 4) (hst : x.st = .opened) (hidle : (s.core g).inFlight x.id = false) :
    exec (.park g) s = .next ((s.setGroup g { x with st := .parked }).mxeTake g) :=
  congrArg Host.Outcome.next ((mxeRow_takes h hop).trans (groupRow_acts hx (by rw [hst]; decide) (.inr hidle) rfl))

theorem exec_resume (hop : mOp e.word = 5) (hst : x.st = .parked) :
    exec (.resume g) s = .next ((s.setGroup g { x with st := .opened }).mxeTake g) :=
  congrArg Host.Outcome.next ((mxeRow_takes h hop).trans (groupRow_acts hx (by rw [hst]; decide) (.inl rfl) rfl))

theorem exec_abort (hop : mOp e.word = 7) (hst : x.st = .opened ∨ x.st = .parked)
    (hidle : (s.core g).inFlight x.id = false) : exec (.abort g) s =
      .next ((s.modCore g fun c => { c with groups := c.groups.filter fun y => y.id != x.id }).mxeTake g) :=
  congrArg Host.Outcome.next ((mxeRow_takes h hop).trans
    (groupRow_acts hx (by simpa using hst) (.inr hidle) rfl))

/-- R89: with its accumulators passing their check, or overflowed, a group drains unsuspected; columns that are not compared
are counted in the state `t`. -/
theorem exec_drain (hop : mOp e.word = 6) (hst : x.st = .opened ∨ x.st = .parked)
    (hidle : (s.core g).inFlight x.id = false)
    (hpass : x.ovf = true ∨ (x.drainCheck (s.fget (F.MXE_CHK_CTRL_TOL_EXP g))).1 = 0) :
    ∃ t : State, t.core g = s.core g ∧ t.mem = s.mem ∧
      exec (.drain g) s = .next (((t.setGroup g { x with st := .draining }).modCore g
        fun c => c.withDrain ⟨x.id, mTag e.word, e.thread, 0, false⟩).mxeTake g) := by
  have hread : (if x.ovf = true then (s, true) else s.acfRead g x.slot) = (s, true) := by
    rw [h.clean.acfRead, ite_self]
  have hgood : (!x.ovf && decide ((x.drainCheck (s.fget (F.MXE_CHK_CTRL_TOL_EXP g))).1 ≠ 0)) = false := by
    rcases hpass with hovf | hok
    · simp [hovf]
    · simp [hok]
  refine ⟨if x.ovf = true ∨ (x.drainCheck (s.fget (F.MXE_CHK_CTRL_TOL_EXP g))).2 = 0 then s
    else s.fadd (F.MXE_CHK_SKIP_SKIP_COLS g) (x.drainCheck (s.fget (F.MXE_CHK_CTRL_TOL_EXP g))).2, ?_, ?_,
    congrArg Host.Outcome.next ((mxeRow_takes h hop).trans
      (groupRow_acts hx (by simpa using hst) (.inr hidle) ?_))⟩
  · split <;> rfl
  · split <;> rfl
  · simp only [hread, Bool.true_eq_false, Bool.false_eq_true, if_false, hgood]
    rfl

end

/-- PARK, DRAIN and ABORT of a group with a tile in flight wait at the engine (R75, R78). -/
theorem exec_groupEnd_waits {g : CoreId} {s : State} {e : MEntry} {x : Group} (h : MxeTakes s g e)
    (hx : s.group g (mAg e.word) = some x) (hst : x.st = .opened) (hbusy : (s.core g).inFlight x.id = true)
    {q : Nat × Instr} (hq : q ∈ [(4, Instr.park g), (6, .drain g), (7, .abort g)]) (hop : mOp e.word = q.1) :
    exec q.2 s = .next (s.mxeWait g e) := by
  have hwait : ∀ {from_} {eff : Nat → MEntry → State → Group → State × Bool}, x.st ∈ from_ →
      mxeRow q.1 (fun s g e => groupRow s g e from_ true (eff g e)) g s = s.mxeWait g e :=
    fun hin => (mxeRow_takes h hop).trans (groupRow_waits hx hin hbusy)
  simp only [List.mem_cons, List.not_mem_nil, or_false] at hq
  obtain rfl | rfl | rfl := hq
  all_goals
    refine congrArg Host.Outcome.next (hwait ?_)
    rw [hst]
    decide

/-- Settles O15: each instruction has its effect on a group whose tiles have retired, and PARK, DRAIN and ABORT wait at the
engine for those in flight. -/
theorem matrixGroupStates : Obligations.MatrixGroupStates := by
  unfold Obligations.MatrixGroupStates
  intro g s e x h hx w idle now
  refine ⟨fun hop hst hidle => ?park, fun hop hst => ?resume, fun hop hst hidle => ?abort,
    fun hop hst hidle hpass => ?drain, fun q hq hop hst hbusy => ?wait⟩
  case park =>
    obtain ⟨hgroup, hxm, hmx, honly⟩ := State.setGroup_taken hx (y := { x with st := .parked }) rfl
    exact ⟨_, exec_park h hx hop hst hidle, ⟨hgroup, hxm, hmx, honly.mem⟩, honly⟩
  case resume =>
    obtain ⟨hgroup, hxm, hmx, honly⟩ := State.setGroup_taken hx (y := { x with st := .opened }) rfl
    exact ⟨_, exec_resume h hx hop hst, ⟨hgroup, hxm, hmx, honly.mem⟩, honly⟩
  case abort =>
    obtain ⟨l, hcore⟩ := (s.modCore g fun c => { c with groups := c.groups.filter fun y => y.id != x.id }).core_mxeTake g
    rw [State.core_modCore_same] at hcore
    refine ⟨_, exec_abort h hx hop hst hidle, ?_, ?_, ?_, .trans (.modCore s g _) (.mxeTake _ g)⟩
    · rw [State.group, hcore, List.find?_eq_none]
      intro y hy
      have hne := (List.mem_filter.mp hy).2
      rw [State.id_of_group hx] at hne
      simpa using hne
    · rw [hcore]; rfl
    · rw [hcore]
  case drain =>
    obtain ⟨t, htcore, htmem, hexec⟩ := exec_drain h hx hop hst hidle hpass
    have htgroup : t.group g (mAg e.word) = some x := (State.group_of_groups (by rw [htcore]) _).trans hx
    obtain ⟨l, hcore⟩ := ((t.setGroup g { x with st := .draining }).modCore g
      fun c => c.withDrain ⟨x.id, mTag e.word, e.thread, 0, false⟩).core_mxeTake g
    rw [State.core_modCore_same] at hcore
    refine ⟨_, ⟨x.id, mTag e.word, e.thread, 0, false⟩, hexec, ⟨?_, ?_, ?_, (OnlyCore.mxeTake _ g).mem.trans htmem⟩, ?_, rfl,
      rfl, rfl, rfl⟩
    · exact (State.group_of_groups (by rw [hcore]; rfl) _).trans (State.group_setGroup htgroup rfl)
    · rw [hcore, State.setGroup, State.core_modCore_same, ← htcore]; rfl
    · rw [hcore]
    · rw [hcore, State.setGroup, State.core_modCore_same, ← htcore]; rfl
  case wait =>
    obtain ⟨l, hcore⟩ := s.core_mxeWait g e
    exact ⟨_, exec_groupEnd_waits h hx hst hbusy hq hop, by rw [hcore], by rw [hcore], by rw [hcore], .mxeWait s g e⟩

end Sys2Proof.Machine
end

section
/-!
PROOFS. LDW, OPEN and MMA (R74, R76 to R78, R457), and the statement MatrixLoadOpenAndMultiply.
-/

namespace Sys2Proof.Machine

/-! ### The checks of an operand (R164) -/

/-- Nothing differs but the fill records and the waiting re-fetches of core `g`. -/
def OnlyFills (s u : State) (g : Nat) : Prop :=
  OnlyCore s u g ∧ ∃ f r, u.core g = { s.core g with fills := f, refetch := r }

section
variable {s t u v : State} {g : Nat}

theorem OnlyFills.refl (s : State) (g : Nat) : OnlyFills s s g := ⟨.refl s g, _, _, rfl⟩

theorem OnlyFills.trans (h : OnlyFills s t g) (h' : OnlyFills t u g) : OnlyFills s u g := by
  obtain ⟨honly, f, r, hcore⟩ := h
  obtain ⟨honly', f', r', hcore'⟩ := h'
  exact ⟨honly.trans honly', f', r', by rw [hcore', hcore]⟩

theorem OnlyFills.modCore (s : State) (g : Nat) {f : Core → Core}
    (hf : ∀ c, ∃ x r, f c = { c with fills := x, refetch := r }) : OnlyFills s (s.modCore g f) g := by
  obtain ⟨x, r, hc⟩ := hf (s.core g)
  exact ⟨.modCore s g f, x, r, by rw [State.core_modCore_same, hc]⟩

/-- A generation check that passes drops the buffer's records. -/
theorem State.genCheck_pass {gq gen space line : Nat} {mxe : Bool} (h : s.genCheck g gq gen space line mxe = (v, .pass)) :
    OnlyFills s v g := by
  unfold State.genCheck at h
  by_cases hq : gq = 0
  · rw [if_pos hq, Prod.mk.injEq] at h
    exact h.1 ▸ .refl s g
  · rw [if_neg hq] at h
    dsimp only at h
    split at h
    · split_ifs at h
      · simp at h
      · rw [Prod.mk.injEq] at h
        exact h.1 ▸ (OnlyFills.modCore s g fun c => ⟨_, _, rfl⟩).trans (.modCore _ g fun c => ⟨_, _, rfl⟩)
      · simp at h
    · split_ifs at h
      · rw [Prod.mk.injEq] at h
        exact h.1 ▸ .modCore s g fun c => ⟨_, _, rfl⟩
      · split at h <;> simp at h

/-- Operand checks that pass change nothing else. -/
theorem State.mxeOperand_pass (hs : s.clean) {w len : Nat} (h : s.mxeOperand g w len = (v, true)) : OnlyFills s v g := by
  unfold State.mxeOperand at h
  split_ifs at h with hlayout howned
  · simp at h
  · simp at h
  · split at h
    · simp at h
    · simp at h
    next t hgen =>
      have ht := State.genCheck_pass hgen
      have hread := (ht.1.clean hs).checkRead
      simp only [hread, Bool.and_self, if_true, Prod.mk.injEq, and_true] at h
      exact h ▸ ht

end

/-! ### LDW (R74, R457) -/

/-- The core with bank `b` loaded as bank `wb`. -/
def Core.withBank (c : Core) (wb : Nat) (b : Bank) : Core :=
  if wb = 0 then { c with bank0 := some b } else { c with bank1 := some b }

theorem Core.mxeRest_withBank (c : Core) (wb : Nat) (b : Bank) : (c.withBank wb b).mxeRest = c.mxeRest := by
  unfold Core.withBank; split <;> rfl

theorem Core.bank_withBank (c : Core) (wb : Nat) (b : Bank) :
    (if wb = 0 then (c.withBank wb b).bank0 else (c.withBank wb b).bank1) = some b := by
  unfold Core.withBank; split <;> rfl

/-- The bank that LDW loads: the B block at line `opd` of core `g`, and its sums from line `sum`. -/
def State.loadedBank (s : State) (g opd sum : Nat) (f : Fmt) (k256 : Bool) : Bank :=
  ⟨opd, f, k256, memCells s.mem (ocBase g + 64 * opd) (f.bytes ((if k256 = true then 256 else 128) * 128)),
    (List.range 128).map fun j => s.le (ocBase g + 64 * sum + 64 + 4 * j) 4⟩

section
variable {g : CoreId} {s v : State} {e : MEntry} {f : Fmt} {k : Nat × Nat × Nat × Bool × Bool} (h : MxeTakes s g e)
  (hop : mOp e.word = 1) (hf : Fmt.ofCode (mFmtB e.word) = some f) (hsum : sumkFmtOk 2 f = true) (hu : f ≠ .uint8)
  (hk : s.sumHead g (mSum e.word) = k)
  (hv : s.mxeOperand g e.word (f.bytes ((if k.2.2.2.2 = true then 256 else 128) * 128)) = (v, true)) (hkind : k.1 = 2)
  (hfmt : k.2.1 = f.code) (hvalid : k.2.2.2.1 = true) (hwide : k.2.2.2.2 = true → f = .int4)
include h hop hf hsum hu hk hv hkind hfmt hvalid hwide

theorem exec_ldw : exec (.ldw g) s = .next ((v.modCore g fun c =>
    c.withBank (mWb e.word) (s.loadedBank g (mOpd e.word) (mSum e.word) f k.2.2.2.2)).mxeTake g) := by
  have hmem := (State.mxeOperand_pass h.clean hv).1.mem
  have hok : ¬(k.1 ≠ 2 ∨ k.2.1 ≠ f.code ∨ k.2.2.2.1 = false ∨ (k.2.2.2.2 = true ∧ f ≠ .int4)) := by
    simp only [hkind, hfmt, hvalid, ne_eq, not_true_eq_false, Bool.true_eq_false, false_or, not_and, not_not]
    exact hwide
  refine congrArg Host.Outcome.next ((mxeRow_takes h hop).trans ?_)
  simp only [hf, hsum, Bool.true_eq_false, hu, or_self, if_false, hk, hv, if_neg hok, State.loadedBank, hmem,
    State.le_of_mem hmem]
  rfl

/-- R457: LDW leaves the galley with its bank loaded. -/
theorem ldw_loads : ∃ u b, exec (.ldw g) s = .next u
    ∧ (if mWb e.word = 0 then (u.core g).bank0 else (u.core g).bank1) = some b
    ∧ b.line = mOpd e.word ∧ b.fmt = f ∧ b.k256 = k.2.2.2.2
    ∧ b.cells = memCells s.mem (ocBase g + 64 * mOpd e.word) (f.bytes ((if k.2.2.2.2 = true then 256 else 128) * 128))
    ∧ (∀ j, j < 128 → b.sums.getD j 0 = s.le (ocBase g + 64 * mSum e.word + 64 + 4 * j) 4)
    ∧ (u.core g).xm = (s.core g).mxeRest ∧ (u.core g).mx = none ∧ OnlyCore s u g := by
  obtain ⟨honly, fl, rf, hvcore⟩ := State.mxeOperand_pass h.clean hv
  obtain ⟨l, hcore⟩ := (v.modCore g fun c =>
    c.withBank (mWb e.word) (s.loadedBank g (mOpd e.word) (mSum e.word) f k.2.2.2.2)).core_mxeTake g
  rw [State.core_modCore_same] at hcore
  refine ⟨_, s.loadedBank g (mOpd e.word) (mSum e.word) f k.2.2.2.2,
    exec_ldw h hop hf hsum hu hk hv hkind hfmt hvalid hwide, ?bank, rfl, rfl, rfl, rfl, fun j hj => ?sums, ?rest, ?taken,
    honly.trans (.trans (.modCore v g _) (.mxeTake _ g))⟩
  case bank => rw [hcore]; exact Core.bank_withBank ..
  case sums =>
    rw [State.loadedBank, List.getD_eq_getElem _ _ (by simpa using hj), List.getElem_map, List.getElem_range]
  case rest => rw [hcore]; exact (Core.mxeRest_withBank ..).trans (by rw [hvcore]; rfl)
  case taken => rw [hcore]

end

/-! ### OPEN (R77, R78) -/

/-- A group just opened: Table 3-5 with nothing added yet. -/
def Group.new (id slot : Nat) (a b : Fmt) (z : Nat) : Group :=
  ⟨id, .opened, slot, a, b, z, 0, List.replicate 128 0, List.replicate 128 0, List.replicate 128 0, false,
    List.replicate 16384 0⟩

/-- The core with group `x` held. -/
def Core.withGroup (c : Core) (x : Group) : Core := { c with groups := c.groups ++ [x] }

section
variable {g : CoreId} {s : State} {e : MEntry} {a b : Fmt} {k i : Nat} (h : MxeTakes s g e) (hop : mOp e.word = 2)
  (hpair : pairOf e.word = some (a, b, k)) (hslot : (s.core g).freeSlot = some i) (hfree : s.group g (mAg e.word) = none)
  (hzero : a = .uint8 → s.lsOk g (8 * mZrec e.word) 8 = true ∧
    (ScaleRec.read (s.le (lsBase g + 8 * mZrec e.word) 8)).isSome = true)
include h hop hpair hslot hfree hzero

/-- R77: for UINT8 the zero point is that of the scale record. -/
theorem exec_openGroup :
    ∃ z, exec (.openGroup g) s = .next ((s.modCore g fun c => c.withGroup (.new (mAg e.word) i a b z)).mxeTake g) := by
  have hany : ((s.core g).groups.any fun x => x.id == mAg e.word) = false := by
    rw [List.any_eq_false]
    exact List.find?_eq_none.mp hfree
  have hls : ¬(a = .uint8 ∧ s.lsOk g (8 * mZrec e.word) 8 = false) := fun hn => by simp [(hzero hn.1).1] at hn
  have hread : (if a = .uint8 then s.checkRead (lsBase g + 8 * mZrec e.word) 8 (s.occupant g) else (s, true)) = (s, true) := by
    rw [h.clean.checkRead, ite_self]
  obtain ⟨z, hz⟩ : ∃ z, (if a = .uint8 then (ScaleRec.read (s.le (lsBase g + 8 * mZrec e.word) 8)).map (·.zp) else some 0)
      = some z := by
    by_cases ha : a = .uint8
    · obtain ⟨r, hr⟩ := Option.isSome_iff_exists.mp (hzero ha).2
      exact ⟨r.zp, by rw [if_pos ha, hr]; rfl⟩
    · exact ⟨0, if_neg ha⟩
  refine ⟨z, congrArg Host.Outcome.next ((mxeRow_takes h hop).trans ?_)⟩
  simp only [hpair, hslot, hany, if_neg hls, hread, hz, Bool.true_eq_false, if_false, h.clean.acfFresh]
  rfl

/-- R78: OPEN leaves the galley with an empty group in the free slot. -/
theorem openGroup_opens : ∃ u x, exec (.openGroup g) s = .next u ∧ (u.core g).groups = (s.core g).groups ++ [x]
    ∧ x.id = mAg e.word ∧ x.st = .opened ∧ x.slot = i ∧ x.fmtA = a ∧ x.fmtB = b ∧ x.kacc = 0 ∧ x.ovf = false
    ∧ x.acc = List.replicate 16384 0 ∧ (u.core g).xm = (s.core g).mxeRest ∧ (u.core g).mx = none ∧ OnlyCore s u g := by
  obtain ⟨z, hexec⟩ := exec_openGroup h hop hpair hslot hfree hzero
  obtain ⟨l, hcore⟩ := (s.modCore g fun c => c.withGroup (.new (mAg e.word) i a b z)).core_mxeTake g
  rw [State.core_modCore_same] at hcore
  refine ⟨_, .new (mAg e.word) i a b z, hexec, ?held, rfl, rfl, rfl, rfl, rfl, rfl, rfl, rfl, ?rest, ?taken,
    .trans (.modCore s g _) (.mxeTake _ g)⟩
  case held => rw [hcore]; rfl
  case rest => rw [hcore]; rfl
  case taken => rw [hcore]

end

/-! ### MMA (R78) -/

theorem State.aRows_of_mem {s u : State} (h : u.mem = s.mem) (g : Nat) (f : Fmt) (line rows k : Nat) :
    u.aRows g f line rows k = s.aRows g f line rows k := by
  rw [State.aRows, State.aRows, State.bytes_of_mem h]

/-- The core with tile `t` in a work slot, behind those there. -/
def Core.withTile (c : Core) (t : Tile) : Core := { c with tiles := c.tiles ++ [t] }

section
variable {g : CoreId} {s v : State} {e : MEntry} {a b : Fmt} {k : Nat} {x : Group} {bank : Bank} (h : MxeTakes s g e)
  (hop : mOp e.word = 3) (hpair : pairOf e.word = some (a, b, k)) (hx : s.group g (mAg e.word) = some x)
  (hst : x.st = .opened) (ha : x.fmtA = a) (hb : x.fmtB = b) (hkused : mKused e.word < k)
  (hbank : (if mWb e.word = 0 then (s.core g).bank0 else (s.core g).bank1) = some bank) (hfmt : bank.fmt = b)
  (hwide : bank.tileK = k) (hfree : (s.core g).tiles.length < 2) (hshadow : (s.core g).shadowIn = [])
  (hv : s.mxeOperand g e.word (a.bytes ((mRows e.word + 1) * k)) = (v, true))
  (hhead : let q := s.sumHead g (mSum e.word)
    q.1 = 1 ∧ q.2.1 = a.code ∧ q.2.2.1 = mRows e.word ∧ q.2.2.2.1 = true ∧ q.2.2.2.2 = decide (k = 256))
include h hop hpair hx hst ha hb hkused hbank hfmt hwide hfree hshadow hv hhead

theorem exec_mma : ∃ t : Tile, t.grp = mAg e.word ∧ t.rows = mRows e.word + 1 ∧ t.kused = mKused e.word + 1
    ∧ t.inc = increments a.isFp (s.aRows g a (mOpd e.word) (mRows e.word + 1) k) bank.rows
    ∧ exec (.mma g) s = .next ((v.modCore g fun c => c.withTile t).mxeTake g) := by
  obtain ⟨hkind, hcode, hrows, hvalid, hk256⟩ := hhead
  have honly := (State.mxeOperand_pass h.clean hv).1
  let num := (v.fget (F.MXE_TILE_CNT_TILES g) + (s.core g).tiles.length) % 2 ^ 32
  refine ⟨v.formTile g ⟨mAg e.word, num, e.thread, mOpd e.word, mSum e.word, mRows e.word + 1, mKused e.word + 1, a, bank, [],
    [], [], (v.shadowPartner g num).isSome, (s.core g).freeWork⟩, rfl, rfl, rfl, ?_,
    congrArg Host.Outcome.next ((mxeRow_takes h hop).trans ?_)⟩
  · rw [← hwide, ← State.aRows_of_mem honly.mem]
    rfl
  · rw [State.group] at hx
    have hgroup : ¬(x.st ≠ .opened ∨ x.fmtA ≠ a ∨ x.fmtB ≠ b) := by simp [hst, ha, hb]
    have hroom : ¬(2 ≤ (s.core g).tiles.length ∨ (s.core g).shadowIn ≠ []) := by simp [hshadow, hfree]
    simp only [hpair, hx, if_neg hgroup, if_neg (Nat.not_le.mpr hkused), hbank, hfmt, hwide, ne_eq, not_true_eq_false,
      or_self, if_false, if_neg hroom, hv, hkind, hcode, hrows, hvalid, hk256, Bool.true_eq_false,
      (honly.clean h.clean).acfFresh]
    rfl

/-- R78: MMA leaves the galley with its tile in a work slot. -/
theorem mma_forms : ∃ u t, exec (.mma g) s = .next u ∧ (u.core g).tiles = (s.core g).tiles ++ [t] ∧ t.grp = mAg e.word
    ∧ t.rows = mRows e.word + 1 ∧ t.kused = mKused e.word + 1
    ∧ t.inc = increments a.isFp (s.aRows g a (mOpd e.word) (mRows e.word + 1) k) bank.rows
    ∧ (u.core g).xm = (s.core g).mxeRest ∧ (u.core g).mx = none ∧ OnlyCore s u g := by
  obtain ⟨honly, fl, rf, hvcore⟩ := State.mxeOperand_pass h.clean hv
  obtain ⟨t, hgrp, hrows, hkacc, hinc, hexec⟩ :=
    exec_mma h hop hpair hx hst ha hb hkused hbank hfmt hwide hfree hshadow hv hhead
  obtain ⟨l, hcore⟩ := (v.modCore g fun c => c.withTile t).core_mxeTake g
  rw [State.core_modCore_same] at hcore
  refine ⟨_, t, hexec, ?tile, hgrp, hrows, hkacc, hinc, ?rest, ?taken, honly.trans (.trans (.modCore v g _) (.mxeTake _ g))⟩
  case tile => rw [hcore, hvcore]; rfl
  case rest => rw [hcore, hvcore]; rfl
  case taken => rw [hcore]

end

/-- Settles O14: LDW, OPEN and MMA each leave the galley with the bank, the group or the tile that their operands give. -/
theorem matrixLoadOpenAndMultiply : Obligations.MatrixLoadOpenAndMultiply := by
  unfold Obligations.MatrixLoadOpenAndMultiply
  intro g s e h
  exact ⟨fun f v hop hf hsum hu hv hkind hfmt hvalid hwide => ldw_loads h hop hf hsum hu rfl hv hkind hfmt hvalid hwide,
    fun a b k i => openGroup_opens h, fun a b k x bank v => mma_forms h⟩

end Sys2Proof.Machine
end

section
/-!
PROOFS. Fields of the cores' registers that share no bit, and what the count of a mismatch (R94) leaves as it was.
-/

namespace Sys2Proof.Machine

/-! ### Fields of the cores' registers -/

/-- Fields of different cores, of different registers of a core's block, or of different bits share no bit. -/
theorem Fld.apart_in_cores {g h a b hi lo hi' lo' : Nat} (hn : g ≠ h ∨ a ≠ b ∨ hi < lo' ∨ hi' < lo)
    (hw : lo' ≤ hi' ∧ hi' < 32 ∧ lo ≤ hi) (hab : a < 0x20000 ∧ b < 0x20000) :
    Fld.Apart ⟨coreBase g + a, hi, lo⟩ ⟨coreBase h + b, hi', lo'⟩ := by
  refine ⟨hw.1, hw.2.1, hw.2.2, ?_⟩
  dsimp only [coreBase]
  omega

theorem Fld.apart_of_low_core {g a hi lo : Nat} {f : Fld} (hp : lo ≤ hi) (hf : f.off < 0x2000 ∧ f.lo ≤ f.hi ∧ f.hi < 32) :
    Fld.Apart ⟨coreBase g + a, hi, lo⟩ f := by
  refine ⟨hf.2.1, hf.2.2, hp, .inl ?_⟩
  dsimp only [coreBase]
  omega

/-! ### What the count of a mismatch leaves (R94) -/

/-- Nothing differs in memory, nor in a core but its history of mismatches, nor in a core's register field below the
quarantine bit; events may have joined the queue. -/
structure CountsMismatch (s u : State) : Prop where
  mem : u.mem = s.mem
  core : ∀ h, ∃ l, u.core h = { s.core h with mxeMiss := l }
  events : s.evq <+: u.evq
  field : ∀ p : Fld, 0x2000 ≤ p.off ∧ p.lo ≤ p.hi ∧ p.hi < 31 → u.fget p = s.fget p

section
variable {s t u : State}

theorem CountsMismatch.refl (s : State) : CountsMismatch s s := ⟨rfl, fun _ => ⟨_, rfl⟩, List.prefix_rfl, fun _ _ => rfl⟩

theorem CountsMismatch.trans (h : CountsMismatch s t) (h' : CountsMismatch t u) : CountsMismatch s u where
  mem := h'.mem.trans h.mem
  core g := by
    obtain ⟨l, e⟩ := h.core g
    obtain ⟨l', e'⟩ := h'.core g
    exact ⟨l', by rw [e', e]⟩
  events := h.events.trans h'.events
  field p hp := (h'.field p hp).trans (h.field p hp)

theorem State.lt_of_mem_formes {p : Nat × Forme} (h : p ∈ s.formes) : p.1 < 8 := by
  obtain ⟨c, hc, e⟩ := List.mem_filterMap.mp h
  obtain ⟨f, -, rfl⟩ := Option.map_eq_some_iff.mp e
  exact List.mem_range.mp hc

theorem CountsMismatch.core_field (h : CountsMismatch s u) {g a hi lo : Nat} (hw : lo ≤ hi ∧ hi < 31) :
    u.fget ⟨coreBase g + a, hi, lo⟩ = s.fget ⟨coreBase g + a, hi, lo⟩ :=
  h.field _ ⟨by dsimp only [coreBase]; omega, hw⟩

/-- What changes no memory, core, register or event. -/
theorem CountsMismatch.of_parts (hm : u.mem = s.mem) (hc : u.cores = s.cores) (he : u.evq = s.evq) (hr : u.regs = s.regs) :
    CountsMismatch s u where
  mem := hm
  core _ := ⟨_, by rw [State.core, hc]; rfl⟩
  events := he ▸ List.prefix_rfl
  field p _ := State.fget_of_regs hr p

section
variable (h : CountsMismatch s t)
include h

theorem CountsMismatch.fset {f : Fld} (hf : ∀ p : Fld, 0x2000 ≤ p.off ∧ p.lo ≤ p.hi ∧ p.hi < 31 → p.Apart f) (v : Nat) :
    CountsMismatch s (t.fset f v) :=
  h.trans ⟨rfl, fun _ => ⟨_, rfl⟩, List.prefix_rfl, fun p hp => t.fget_fset_of_apart (hf p hp) v⟩

theorem CountsMismatch.fset_low {off hi lo : Nat} (hoff : off < 0x2000) (hw : lo ≤ hi ∧ hi < 32) (v : Nat) :
    CountsMismatch s (t.fset ⟨off, hi, lo⟩ v) :=
  h.fset (fun _ hp => ⟨hw.1, hw.2, hp.2.1, .inl (Nat.ne_of_gt (Nat.lt_of_lt_of_le hoff hp.1))⟩) v

theorem CountsMismatch.modCtx (c : Nat) (f : Ctx → Ctx) : CountsMismatch s (t.modCtx c f) :=
  h.trans (.of_parts rfl rfl rfl rfl)

theorem CountsMismatch.raise (code : Nat) (ctx : Option Nat) (unit : Nat) (data : List Nat) :
    CountsMismatch s (t.raise code ctx unit data) := by
  refine h.trans ⟨t.raise_mem .., fun _ => ⟨_, by rw [State.core, t.raise_cores]; rfl⟩, ?events, fun p hp => ?field⟩
  case events =>
    obtain ⟨-, he, -⟩ | ⟨-, he⟩ := t.raise_cases code ctx unit data
    · exact he ▸ List.prefix_append _ _
    · exact he ▸ List.prefix_rfl
  case field =>
    have hlow : 0x1000 ≤ p.off := Nat.le_trans (by decide) hp.1
    exact t.fget_raise (Fld.apart_of_low hp.2.1 hlow (by decide)) (Fld.apart_of_low hp.2.1 hlow (by decide)) ..

theorem CountsMismatch.ctxFault {c : Nat} (hc : c < 8) (code g : Nat) : CountsMismatch s (t.ctxFault c code g) := by
  have hoff : R.CTX_FAULT c < 0x2000 := by dsimp only [R.CTX_FAULT]; omega
  unfold State.ctxFault
  dsimp only
  split
  · exact h
  · exact ((((h.fset_low hoff (by decide) 1).fset_low hoff (by decide) g).fset_low hoff (by decide) code).raise ..).modCtx ..

theorem CountsMismatch.quarantine {g : Nat} (hg : g < 128) (code : Nat) :
    CountsMismatch s (t.quarantine g code (F.MXE_CHK_STAT_QUAR g)) := by
  have hcap : R.MGT_CAP_CORE (g / 32) < 0x2000 := by dsimp only [R.MGT_CAP_CORE]; omega
  have hdrop : CountsMismatch s (t.dropCore g) :=
    (h.fset_low hcap (by decide) _).fset_low (by decide) (by decide) 1
  have hbit : CountsMismatch s ((t.dropCore g).fset (F.MXE_CHK_STAT_QUAR g) 1) :=
    hdrop.fset (fun p hp => ⟨Nat.le_refl 31, Nat.lt_succ_self 31, hp.2.1, .inr (.inl hp.2.2)⟩) 1
  have hlt : ∀ v : State, ∀ q ∈ v.formes.filter fun q => q.2.coreList.contains g, q.1 < 8 :=
    fun v q hq => State.lt_of_mem_formes (List.mem_of_mem_filter hq)
  exact (hbit.raise ..).trans
    (foldl_rel .refl .trans (fun v q hq => (CountsMismatch.refl v).ctxFault (hlt _ q hq) code g) _)

theorem CountsMismatch.mismatch {g : Nat} (hg : g < 128) : CountsMismatch s (t.mismatch g) := by
  have hcount : CountsMismatch s (t.modCore g fun c =>
      { c with mxeMiss := (t.fget (F.MXE_TILE_CNT_TILES g) :: c.mxeMiss).take 2 }) := by
    refine h.trans ⟨rfl, fun x => ?_, List.prefix_rfl, fun _ _ => rfl⟩
    by_cases hn : x = g
    · exact ⟨_, by rw [hn, State.core_modCore_same]⟩
    · exact ⟨_, by rw [State.core_modCore_ne _ hn]⟩
  unfold State.mismatch
  dsimp only
  split
  · split
    · exact hcount.quarantine hg _
    · exact hcount
  · exact hcount

end

end

end Sys2Proof.Machine
end

section
/-!
PROOFS. The verdict of the oldest tile (R83, R86 to R88): its retirement into its group, its replay, and the statement
TileRetiresOrReplays.
-/

namespace Sys2Proof.Machine

/-! ### Retirement (R83) -/

/-- Group `x` with tile `t` added. -/
def Group.retired (x : Group) (t : Tile) : Group :=
  let ovf := x.ovf || decide (pairMaxK x.fmtA x.fmtB < x.kacc + t.kused)
  { x with
    kacc := (x.kacc + t.kused) % 2 ^ 32
    ovf := ovf
    acc := (x.acc.zip t.inc).map fun p => accAdd t.fmtA.isFp ovf p.1 p.2
    w := (x.w.zip t.bank.sums).map fun p => (p.1 + p.2) % 2 ^ 32
    e := (x.e.zip t.expect).map fun p => runCode t.fmtA.isFp ((runValue t.fmtA.isFp p.1).add p.2)
    mags := if t.fmtA.isFp then (x.mags.zip t.mags).map fun p => runCode t.fmtA.isFp ((runValue t.fmtA.isFp p.1).add p.2)
      else x.mags }

/-- R83: a group of core `g` that passes the limit of its pair is reported where `past` holds. -/
def State.notePast (s : State) (g : Nat) (past : Bool) : State :=
  if past then (s.fset (F.MXE_CHK_STAT_OVF_SEEN g) 1).raise 0x0104 (s.occupant g) g [] else s

section
variable (s : State) (g : Nat)

theorem State.retireTile_eq (t : Tile) (x : Group) : s.retireTile g t x =
    ((s.setGroup g (x.retired t)).fwrap (F.MXE_TILE_CNT_TILES g) 1).notePast g
      (decide (pairMaxK x.fmtA x.fmtB < x.kacc + t.kused) && !x.ovf) := rfl

theorem State.notePast_parts (past : Bool) :
    (s.notePast g past).mem = s.mem ∧ (s.notePast g past).cores = s.cores := by
  unfold State.notePast
  split
  · exact ⟨State.raise_mem .., State.raise_cores ..⟩
  · exact ⟨rfl, rfl⟩

theorem State.notePast_tiles (past : Bool) :
    (s.notePast g past).fget (F.MXE_TILE_CNT_TILES g) = s.fget (F.MXE_TILE_CNT_TILES g) := by
  unfold State.notePast
  split
  · rw [State.fget_raise _ (Fld.apart_of_low_core (Nat.zero_le 31) (by decide))
      (Fld.apart_of_low_core (Nat.zero_le 31) (by decide)),
      State.fget_fset_of_apart _ (Fld.apart_in_cores (.inr (.inl (by decide))) (by decide) (by decide))]
  · rfl

theorem State.retireTile_parts (t : Tile) (x : Group) : (s.retireTile g t x).mem = s.mem
    ∧ (s.retireTile g t x).core g = (s.setGroup g (x.retired t)).core g
    ∧ (s.retireTile g t x).fget (F.MXE_TILE_CNT_TILES g) = (s.fget (F.MXE_TILE_CNT_TILES g) + 1) % 2 ^ 32 := by
  rw [State.retireTile_eq]
  obtain ⟨hmem, hcores⟩ := ((s.setGroup g (x.retired t)).fwrap (F.MXE_TILE_CNT_TILES g) 1).notePast_parts g
    (decide (pairMaxK x.fmtA x.fmtB < x.kacc + t.kused) && !x.ovf)
  refine ⟨hmem, ?_, ?_⟩
  · rw [State.core, hcores]; rfl
  · rw [State.notePast_tiles, State.fwrap, State.fget_fset_same _ _ _ (Nat.zero_le 31) (Nat.lt_succ_self 31)]
    rfl

/-! ### The shadow of a passed tile (R90) -/

/-- A tile that is sampled waits for its partner core's CRC, and the partner has it to form. -/
def State.askShadow (s : State) (g : Nat) (t : Tile) : State :=
  match (if t.shadow then s.shadowPartner g t.num else none) with
  | none => s
  | some p =>
    (s.modCore g fun c => { c with shadowWait := c.shadowWait ++ [⟨g, p, t, t.crc⟩] }).modCore p fun c =>
      { c with shadowIn := c.shadowIn ++ [⟨g, p, t, t.crc⟩] }

theorem State.askShadow_parts (t : Tile) : (s.askShadow g t).mem = s.mem ∧ (s.askShadow g t).regs = s.regs
    ∧ ∃ w i, (s.askShadow g t).core g = { s.core g with shadowWait := w, shadowIn := i } := by
  unfold State.askShadow
  split
  · exact ⟨rfl, rfl, _, _, rfl⟩
  next p _ =>
    refine ⟨rfl, rfl, ?_⟩
    by_cases hp : g = p
    · subst hp
      exact ⟨_, _, by rw [State.core_modCore_same, State.core_modCore_same]⟩
    · exact ⟨_, _, by rw [State.core_modCore_ne _ hp, State.core_modCore_same]⟩

/-! ### Columns that are not compared (R87) -/

/-- Columns of core `g` that are not compared are counted. -/
def State.skipped (s : State) (g n : Nat) : State := if n = 0 then s else s.fadd (F.MXE_CHK_SKIP_SKIP_COLS g) n

/-- The state with columns counted, registers aside, is as it was. -/
theorem State.skipped_parts (n : Nat) : s.skipped g n = { s with regs := (s.skipped g n).regs } := by
  unfold State.skipped; split <;> rfl

theorem State.core_skipped (n h : Nat) : (s.skipped g n).core h = s.core h := by rw [s.skipped_parts]; rfl

theorem State.fget_skipped {a hi lo : Nat} (hw : lo ≤ hi) (ha : a < 0x20000) (hne : a ≠ 0x110) (n : Nat) :
    (s.skipped g n).fget ⟨coreBase g + a, hi, lo⟩ = s.fget ⟨coreBase g + a, hi, lo⟩ := by
  unfold State.skipped
  split
  · rfl
  · exact State.fget_fadd_of_apart _ (Fld.apart_in_cores (.inr (.inl hne)) ⟨by decide, by decide, hw⟩ ⟨ha, by decide⟩) n

end

/-! ### Tiles formed again (R88) -/

section
variable {s u : State} {g : Nat}

theorem State.reformTile_of_mem (h : u.mem = s.mem) (t : Tile) : u.reformTile g t = s.reformTile g t := by
  simp only [State.reformTile, State.formTile, State.aSums, State.aRows_of_mem h, State.le_of_mem h, h]

theorem State.clean.readTile (h : s.clean) (t : Tile) : s.readTile g t = (s, true) := by
  simp only [State.readTile, List.foldl_cons, List.foldl_nil, h.checkRead, Bool.and_self]

theorem State.clean.fset (h : s.clean) (f : Fld) (v : Nat) : (s.fset f v).clean := ⟨h.1, h.2⟩

theorem State.clean.raise (h : s.clean) (code : Nat) (ctx : Option Nat) (unit : Nat) (data : List Nat) :
    (s.raise code ctx unit data).clean := by
  unfold State.raise; split <;> exact h

end

/-! ### A tile that has passed, and one that has failed -/

/-- The state in which tile `t` has left its work slot and stands in its group (R83). -/
def State.tilePassed (s : State) (g : Nat) (t : Tile) (r : List Tile) (x : Group) : State :=
  (s.modCore g fun c => { c with tiles := r, mxeAt := s.timeUs }).retireTile g t x

/-- The state in which a failing tile has been counted, shown and reported (R88). -/
def State.tileFailed (s : State) (g : Nat) : State :=
  ((s.fadd (F.MXE_CHK_CNT_TILE_CNT g) 1).fset (F.MXE_CHK_STAT_TILE_MISS g) 1).raise 0x0101 (s.occupant g) g []

section
variable {s : State} {g : Nat} {t : Tile} {r : List Tile} {x : Group}

theorem State.tilePassed_parts (hx : s.group g t.grp = some x) :
    (s.tilePassed g t r x).mem = s.mem ∧ ((s.tilePassed g t r x).core g).tiles = r
    ∧ (s.tilePassed g t r x).group g t.grp = some (x.retired t)
    ∧ (s.tilePassed g t r x).fget (F.MXE_TILE_CNT_TILES g) = (s.fget (F.MXE_TILE_CNT_TILES g) + 1) % 2 ^ 32 := by
  obtain ⟨hmem, hcore, hcnt⟩ := (s.modCore g fun c => { c with tiles := r, mxeAt := s.timeUs }).retireTile_parts g t x
  have hx' : (s.modCore g fun c => { c with tiles := r, mxeAt := s.timeUs }).group g t.grp = some x :=
    (State.group_of_groups (by rw [State.core_modCore_same]) _).trans hx
  refine ⟨hmem, ?_, ?_, hcnt⟩
  · rw [State.tilePassed, hcore, State.setGroup, State.core_modCore_same, State.core_modCore_same]
  · exact (State.group_of_groups (by rw [State.tilePassed, hcore]) _).trans (State.group_setGroup hx' rfl)

/-- The event queue of a state in which a failing tile has been reported. -/
theorem State.tileFailed_evq (h : s.eventRoom 1) :
    ∃ v : Event, v.code = 0x0101 ∧ (s.tileFailed g).evq = s.evq ++ [v] :=
  ⟨⟨0x0101, s.occupant g, s.evSeq, s.tick, g, []⟩, rfl, by
    have hroom : ((s.fadd (F.MXE_CHK_CNT_TILE_CNT g) 1).fset (F.MXE_CHK_STAT_TILE_MISS g) 1).eventRoom 1 := h
    rw [State.tileFailed, State.raise_of_room hroom]
    rfl⟩

theorem State.tileFailed_core (h : Nat) : (s.tileFailed g).core h = s.core h := by
  rw [State.core, State.tileFailed, State.raise_cores]; rfl

theorem State.tileFailed_fields (h : s.eventRoom 1) : Bumped s (s.tileFailed g) (F.MXE_CHK_CNT_TILE_CNT g)
    ∧ (s.tileFailed g).fget (F.MXE_CHK_STAT_TILE_MISS g) = 1 := by
  have hregs : (s.tileFailed g).regs = ((s.fadd (F.MXE_CHK_CNT_TILE_CNT g) 1).fset (F.MXE_CHK_STAT_TILE_MISS g) 1).regs :=
    State.raise_regs_of_room (s := (s.fadd (F.MXE_CHK_CNT_TILE_CNT g) 1).fset (F.MXE_CHK_STAT_TILE_MISS g) 1) h ..
  constructor
  · rw [Bumped, State.fget_of_regs hregs,
      State.fget_fset_of_apart _ (Fld.apart_in_cores (.inr (.inl (by decide))) (by decide) (by decide)),
      State.fget_fadd_self _ _ (by decide)]
  · rw [State.fget_of_regs hregs, State.fget_fset_self _ (by decide) (by decide)]

end

/-! ### The verdict -/

section
variable {s : State} {g : CoreId} {t : Tile} {r : List Tile} {x : Group} (hs : s.clean)
  (htiles : (s.core g).tiles = t :: r) (hx : s.group g t.grp = some x)
include hs htiles hx

theorem tileVerdict_pass
    (hbad : (checkColumns t.fmtA.isFp (s.fget (F.MXE_CHK_CTRL_TOL_EXP g)) t.inc t.expect t.mags).1 = 0) :
    ∃ n, tileVerdict g s = (((s.skipped g n).tilePassed g t r x).askShadow g t).settle g := by
  rw [State.group] at hx
  refine ⟨(checkColumns t.fmtA.isFp (s.fget (F.MXE_CHK_CTRL_TOL_EXP g)) t.inc t.expect t.mags).2, ?_⟩
  generalize hn : (checkColumns t.fmtA.isFp (s.fget (F.MXE_CHK_CTRL_TOL_EXP g)) t.inc t.expect t.mags).2 = n
  have hclean : (s.skipped g n).clean := by rw [s.skipped_parts]; exact hs
  have hskip : (if n = 0 then s else s.fadd (F.MXE_CHK_SKIP_SKIP_COLS g) n) = s.skipped g n := rfl
  simp only [tileVerdict, htiles, hx, hbad, hn, hskip, if_true, hclean.acfRead, hclean.acfFresh, Bool.and_self, Bool.not_true,
    Bool.false_eq_true, if_false]
  rfl

theorem tileVerdict_fail
    (hbad : (checkColumns t.fmtA.isFp (s.fget (F.MXE_CHK_CTRL_TOL_EXP g)) t.inc t.expect t.mags).1 ≠ 0) :
    ∃ n, tileVerdict g s = (((s.skipped g n).tileFailed g).modCore g fun c =>
      { c with tiles := r ++ [s.reformTile g t], replays := c.replays + 1 }).mismatch g := by
  rw [State.group] at hx
  refine ⟨(checkColumns t.fmtA.isFp (s.fget (F.MXE_CHK_CTRL_TOL_EXP g)) t.inc t.expect t.mags).2, ?_⟩
  generalize hn : (checkColumns t.fmtA.isFp (s.fget (F.MXE_CHK_CTRL_TOL_EXP g)) t.inc t.expect t.mags).2 = n
  have hclean : (s.skipped g n).clean := by rw [s.skipped_parts]; exact hs
  have hfail : ((s.skipped g n).tileFailed g).clean := ((hclean.fset _ _).fset _ _).raise ..
  have hmem : ((s.skipped g n).tileFailed g).mem = s.mem := (State.raise_mem ..).trans (by rw [s.skipped_parts]; rfl)
  have hskip : (if n = 0 then s else s.fadd (F.MXE_CHK_SKIP_SKIP_COLS g) n) = s.skipped g n := rfl
  have hfold : (((s.skipped g n).fadd (F.MXE_CHK_CNT_TILE_CNT g) 1).fset (F.MXE_CHK_STAT_TILE_MISS g) 1).raise 0x0101
      ((s.skipped g n).occupant g) g [] = (s.skipped g n).tileFailed g := rfl
  simp only [tileVerdict, htiles, hx, if_neg hbad, hn, hskip, hfold, hfail.acfFresh, hfail.readTile,
    State.reformTile_of_mem hmem, if_true]

/-- A tile whose columns pass retires (R83). -/
theorem exec_tileVerdict_pass (hruns : s.mxeRuns g = true)
    (hbad : (checkColumns t.fmtA.isFp (s.fget (F.MXE_CHK_CTRL_TOL_EXP g)) t.inc t.expect t.mags).1 = 0) :
    ∃ u, exec (.tileVerdict g) s = .next u ∧ (u.core g).tiles = r ∧ u.group g t.grp = some (x.retired t) ∧ u.mem = s.mem
      ∧ u.fget (F.MXE_TILE_CNT_TILES g) = (s.fget (F.MXE_TILE_CNT_TILES g) + 1) % 2 ^ 32 := by
  obtain ⟨n, hverdict⟩ := tileVerdict_pass hs htiles hx hbad
  have hskipx : (s.skipped g n).group g t.grp = some x :=
    (State.group_of_groups (by rw [State.core_skipped]) _).trans hx
  obtain ⟨hmem, hrest, hgroup, hcnt⟩ := State.tilePassed_parts (r := r) hskipx
  generalize (s.skipped g n).tilePassed g t r x = p at *
  obtain ⟨hmem', hregs', w, i, hcore'⟩ := p.askShadow_parts g t
  have hcore := (p.askShadow g t).core_settle_same g
  have honly := OnlyCore.settle (p.askShadow g t) g
  refine ⟨_, (congrArg Host.Outcome.next (if_pos hruns)).trans (congrArg Host.Outcome.next hverdict), ?tiles, ?group, ?mem, ?cnt⟩
  case tiles => rw [hcore, hcore', ← hrest]
  case group => exact (State.group_of_groups (by rw [hcore, hcore']) _).trans hgroup
  case mem => rw [honly.mem, hmem', hmem, s.skipped_parts]
  case cnt =>
    rw [State.fget_of_regs (honly.regs.trans hregs'), hcnt, State.fget_skipped _ _ (Nat.zero_le 31) (by decide) (by decide)]

/-- A tile with a failing column is counted and formed again (R88). -/
theorem exec_tileVerdict_fail (hruns : s.mxeRuns g = true)
    (hbad : (checkColumns t.fmtA.isFp (s.fget (F.MXE_CHK_CTRL_TOL_EXP g)) t.inc t.expect t.mags).1 ≠ 0)
    (hroom : s.eventRoom 1) : ∃ u, exec (.tileVerdict g) s = .next u ∧ (u.core g).tiles = r ++ [s.reformTile g t]
      ∧ u.group g t.grp = some x ∧ (∃ v, u.evq.take (s.evq.length + 1) = s.evq ++ [v] ∧ v.code = 0x0101) ∧ u.mem = s.mem
      ∧ Bumped s u (F.MXE_CHK_CNT_TILE_CNT g) ∧ u.fget (F.MXE_CHK_STAT_TILE_MISS g) = 1 := by
  obtain ⟨n, hverdict⟩ := tileVerdict_fail hs htiles hx hbad
  have hskip := s.skipped_parts g n
  have hroom' : (s.skipped g n).eventRoom 1 := by rw [hskip]; exact hroom
  obtain ⟨v, hcode, hevq⟩ := State.tileFailed_evq (g := g) hroom'
  obtain ⟨hbump, hmiss⟩ := State.tileFailed_fields (g := g) hroom'
  have hmem : ((s.skipped g n).tileFailed g).mem = s.mem := (State.raise_mem ..).trans (by rw [hskip]; rfl)
  have hfcore : ((s.skipped g n).tileFailed g).core g = s.core g := by rw [State.tileFailed_core, State.core_skipped]
  generalize (s.skipped g n).tileFailed g = f at *
  have hk := (CountsMismatch.refl (f.modCore g fun c =>
    { c with tiles := r ++ [s.reformTile g t], replays := c.replays + 1 })).mismatch g.isLt
  obtain ⟨l, hcore⟩ := hk.core g
  rw [State.core_modCore_same, hfcore] at hcore
  refine ⟨_, (congrArg Host.Outcome.next (if_pos hruns)).trans (congrArg Host.Outcome.next hverdict), ?tiles, ?group,
    ⟨v, ?events, hcode⟩, hk.mem.trans hmem, ?bump, ?miss⟩
  case tiles => rw [hcore]
  case group => exact (State.group_of_groups (by rw [hcore]) _).trans hx
  case events =>
    have hpre := List.prefix_iff_eq_take.mp hk.events
    rw [State.modCore_evq, hevq, List.length_append, List.length_singleton] at hpre
    rw [hskip] at hpre
    exact hpre.symm
  case bump =>
    rw [Bumped, hk.core_field (by decide)]
    exact hbump.trans (by rw [State.fget_skipped _ _ (Nat.zero_le 11) (by decide) (by decide)])
  case miss => exact (hk.core_field (by decide)).trans hmiss

end

/-- Settles O16: a tile whose columns pass retires into its group, and one with a failing column is counted, reported and
formed again behind the other. -/
theorem tileRetiresOrReplays : Obligations.TileRetiresOrReplays := by
  unfold Obligations.TileRetiresOrReplays
  intro g s t r x hruns hs htiles hx
  refine ⟨fun hbad => ?_, exec_tileVerdict_fail hs htiles hx hruns⟩
  obtain ⟨u, hexec, hrest, hgroup, hmem, hcnt⟩ := exec_tileVerdict_pass hs htiles hx hruns hbad
  exact ⟨u, x.retired t, hexec, hrest, hgroup, rfl, rfl, rfl, rfl, hmem, hcnt⟩

end Sys2Proof.Machine
end

section
/-!
PROOFS. Drains (R81) and shadow tiles (R91, R92), and the statement DrainsAndShadowTiles.
-/

namespace Sys2Proof.Machine

/-! ### Drains (R81) -/

/-- The head of a drain's next entry, for its group `x` (Table 3-6). -/
def Drain.head (d : Drain) (x : Group) : Nat :=
  d.grp * 2 ^ 60 + d.tag * 2 ^ 52 + d.blk * 2 ^ 49 + b2n x.fmtA.isFp * 2 ^ 48 + b2n x.ovf * 2 ^ 47
    + b2n d.suspect * 2 ^ 46 + b2n (decide (d.blk = 7)) * 2 ^ 45 + x.slot * 2 ^ 32 + x.kacc

theorem b2n_le_one (b : Bool) : b2n b ≤ 1 := by cases b <;> decide

theorem decide_b2n (b : Bool) : decide (b2n b = 1) = b := by cases b <;> rfl

/-- The digits of a head: GRP, TAG, BLK, four flags, SLOT and KACC, the bits between the flags and SLOT 0. -/
theorem head_digits {grp tag blk fp ovf sus last slot kacc : Nat} (hblk : blk < 8) (hgrp : grp < 16) (htag : tag < 256)
    (hfp : fp ≤ 1) (hovf : ovf ≤ 1) (hsus : sus ≤ 1) (hlast : last ≤ 1) (hslot : slot < 8) (hkacc : kacc < 2 ^ 32) {h : Nat}
    (hh : h = grp * 2 ^ 60 + tag * 2 ^ 52 + blk * 2 ^ 49 + fp * 2 ^ 48 + ovf * 2 ^ 47 + sus * 2 ^ 46 + last * 2 ^ 45
      + slot * 2 ^ 32 + kacc) :
    h / 2 ^ 60 % 2 ^ 4 = grp ∧ h / 2 ^ 52 % 2 ^ 8 = tag ∧ h / 2 ^ 49 % 2 ^ 3 = blk ∧ h / 2 ^ 48 % 2 = fp ∧ h / 2 ^ 47 % 2 = ovf
    ∧ h / 2 ^ 46 % 2 = sus ∧ h / 2 ^ 45 % 2 = last ∧ h / 2 ^ 32 % 2 ^ 3 = slot ∧ h / 2 ^ 0 % 2 ^ 32 = kacc := by
  omega

/-- A head reads back as the fields that it was made of. -/
theorem Drain.head_fields {d : Drain} {x : Group} (hblk : d.blk < 8) (hgrp : d.grp < 16) (htag : d.tag < 256)
    (hslot : x.slot < 8) (hkacc : x.kacc < 2 ^ 32) :
    bits (d.head x) 63 60 = d.grp ∧ bits (d.head x) 59 52 = d.tag ∧ bits (d.head x) 51 49 = d.blk
    ∧ bit (d.head x) 48 = x.fmtA.isFp ∧ bit (d.head x) 47 = x.ovf ∧ bit (d.head x) 46 = d.suspect
    ∧ bit (d.head x) 45 = decide (d.blk = 7) ∧ bits (d.head x) 34 32 = x.slot ∧ bits (d.head x) 31 0 = x.kacc := by
  obtain ⟨h60, h52, h49, h48, h47, h46, h45, h32, h0⟩ := head_digits hblk hgrp htag (b2n_le_one x.fmtA.isFp) (b2n_le_one x.ovf)
    (b2n_le_one d.suspect) (b2n_le_one (decide (d.blk = 7))) hslot hkacc (h := d.head x) rfl
  refine ⟨h60, h52, h49, ?_, ?_, ?_, ?_, h32, h0⟩
  · rw [bit, h48, decide_b2n]
  · rw [bit, h47, decide_b2n]
  · rw [bit, h46, decide_b2n]
  · rw [bit, h45, decide_b2n]

/-- The core whose drain `d`, the oldest, has pushed an entry of head `h`: the drain stands at its next block, or has gone. -/
def Core.pushed (c : Core) (d : Drain) (r : List Drain) (h : Nat) : Core :=
  { c with mv := c.mv ++ [h], drains := if d.blk = 7 then r else { d with blk := d.blk + 1 } :: r }

theorem exec_drainEntry {g : CoreId} {s : State} {d : Drain} {r : List Drain} {x : Group} (hruns : s.mxeRuns g = true)
    (hdrains : (s.core g).drains = d :: r) (hx : s.group g d.grp = some x)
    (hroom : (s.core g).mv.length < (s.galley g).mv) :
    exec (.drainEntry g) s = .next ((s.modCore g fun c => c.pushed d r (d.head x)).settle g) := by
  rw [State.group] at hx
  refine (congrArg Host.Outcome.next (if_pos hruns)).trans (congrArg Host.Outcome.next ?_)
  simp only [drainEntry, hdrains, hx, if_neg (Nat.not_le.mpr hroom)]
  rfl

/-! ### Shadow tiles at the partner (R91) -/

theorem exec_shadowTile {g : CoreId} {s : State} {sh : Shadow} {r : List Shadow} (hruns : s.mxeRuns g = true) (hs : s.clean)
    (hin : (s.core g).shadowIn = sh :: r) (hroom : (s.core g).tiles.length < 2) :
    exec (.shadowTile g) s = .next ((s.modCore g fun c => { c with shadowIn := r }).modCore sh.owner fun c =>
      { c with shadowBack := c.shadowBack ++ [{ sh with crc := (s.reformTile sh.owner sh.tile).crc }] }) := by
  refine (congrArg Host.Outcome.next (if_pos hruns)).trans (congrArg Host.Outcome.next ?_)
  simp only [shadowTile, hin, if_neg (Nat.not_le.mpr hroom), hs.acfFresh, hs.readTile, Bool.true_eq_false, if_false]

/-! ### The CRC's return (R92) -/

/-- A shadow mismatch counted and shown at core `h`. -/
def State.shadowMissed (s : State) (h : Nat) : State :=
  (s.fadd (F.MXE_CHK_CNT_SHD_CNT h) 1).fset (F.MXE_CHK_STAT_SHD_MISS h) 1

section
variable (s : State) (h : Nat)

theorem State.shadowMissed_same : Bumped s (s.shadowMissed h) (F.MXE_CHK_CNT_SHD_CNT h)
    ∧ (s.shadowMissed h).fget (F.MXE_CHK_STAT_SHD_MISS h) = 1 := by
  constructor
  · rw [Bumped, State.shadowMissed,
      State.fget_fset_of_apart _ (Fld.apart_in_cores (.inr (.inl (by decide))) (by decide) (by decide)),
      State.fget_fadd_self _ _ (by decide)]
  · exact State.fget_fset_self _ (by decide) (by decide)

theorem State.shadowMissed_ne {g : Nat} (hn : g ≠ h) {a hi lo : Nat} (hw : lo ≤ hi) (ha : a < 0x20000) :
    (s.shadowMissed h).fget ⟨coreBase g + a, hi, lo⟩ = s.fget ⟨coreBase g + a, hi, lo⟩ := by
  rw [State.shadowMissed, State.fget_fset_of_apart _ (Fld.apart_in_cores (.inl hn) ⟨by decide, by decide, hw⟩ ⟨ha, by decide⟩),
    State.fget_fadd_of_apart _ (Fld.apart_in_cores (.inl hn) ⟨by decide, by decide, hw⟩ ⟨ha, by decide⟩)]

/-- A mismatch of the pair of cores `g` and `h` is counted and shown at both. -/
theorem State.shadowMissed_pair {g : Nat} (hn : h ≠ g) : ∀ x, x = g ∨ x = h →
    Bumped s ((s.shadowMissed g).shadowMissed h) (F.MXE_CHK_CNT_SHD_CNT x)
      ∧ ((s.shadowMissed g).shadowMissed h).fget (F.MXE_CHK_STAT_SHD_MISS x) = 1 := by
  rintro x (rfl | rfl)
  · obtain ⟨hcnt, hmiss⟩ := s.shadowMissed_same x
    rw [Bumped, State.shadowMissed_ne _ _ hn.symm (by decide) (by decide),
      State.shadowMissed_ne _ _ hn.symm (by decide) (by decide)]
    exact ⟨hcnt, hmiss⟩
  · obtain ⟨hcnt, hmiss⟩ := (s.shadowMissed g).shadowMissed_same x
    refine ⟨?_, hmiss⟩
    rw [Bumped] at hcnt ⊢
    rw [hcnt, State.shadowMissed_ne _ _ hn (by decide) (by decide)]

end

theorem CountsMismatch.markSuspect {s t : State} (h : CountsMismatch s t) (g : Nat) : CountsMismatch s (t.markSuspect g) := by
  unfold State.markSuspect
  split
  · exact h
  · exact h.modCtx ..

/-- The core whose oldest CRC from a partner has been taken, and with it the pair of tile `num`. -/
def Core.paired (c : Core) (r : List Shadow) (num : Nat) : Core :=
  { c with shadowBack := r, shadowWait := c.shadowWait.filter fun y => y.tile.num != num }

/-- R92: the CRCs of a pair, `g` and `h`, disagree. -/
def State.shadowDiffers (s : State) (g h : Nat) : State :=
  (((((s.shadowMissed g).shadowMissed h).raise 0x0103 (s.occupant g) g []).markSuspect g).mismatch g).mismatch h

section
variable {g : CoreId} {s : State} {b x : Shadow} {r : List Shadow} (hruns : s.mxeRuns g = true)
  (hback : (s.core g).shadowBack = b :: r) (hx : ((s.core g).shadowWait.find? fun y => y.tile.num == b.tile.num) = some x)
include hruns hback hx

theorem exec_shadowCrcReturn_agrees (hcrc : x.crc = b.crc) :
    exec (.shadowCrcReturn g) s = .next (s.modCore g fun c => c.paired r b.tile.num) := by
  refine (congrArg Host.Outcome.next (if_pos hruns)).trans (congrArg Host.Outcome.next ?_)
  simp only [shadowReturn, hback, hx, if_pos hcrc]
  rfl

theorem exec_shadowCrcReturn_differs (hcrc : x.crc ≠ b.crc) :
    exec (.shadowCrcReturn g) s = .next ((s.modCore g fun c => c.paired r b.tile.num).shadowDiffers g b.partner) := by
  refine (congrArg Host.Outcome.next (if_pos hruns)).trans (congrArg Host.Outcome.next ?_)
  simp only [shadowReturn, hback, hx, if_neg hcrc]
  rfl

end

/-- What a disagreement does: the count and the bit at both cores and the event, the rest as a mismatch leaves it. -/
theorem State.shadowDiffers_spec {s : State} {g h : Nat} (hg : g < 128) (hh : h < 128) (hn : h ≠ g) (hroom : s.eventRoom 1) :
    (s.shadowDiffers g h).mem = s.mem ∧ (∃ l, (s.shadowDiffers g h).core g = { s.core g with mxeMiss := l })
    ∧ (∀ x, x = g ∨ x = h → Bumped s (s.shadowDiffers g h) (F.MXE_CHK_CNT_SHD_CNT x)
      ∧ (s.shadowDiffers g h).fget (F.MXE_CHK_STAT_SHD_MISS x) = 1)
    ∧ ∃ v ∈ (s.shadowDiffers g h).evq, v.code = 0x0103 ∧ v.unit = g := by
  have hroom' : ((s.shadowMissed g).shadowMissed h).eventRoom 1 := hroom
  have hregs := State.raise_regs_of_room hroom' 0x0103 (s.occupant g) g []
  have hevq : (((s.shadowMissed g).shadowMissed h).raise 0x0103 (s.occupant g) g []).evq
      = s.evq ++ [⟨0x0103, s.occupant g, s.evSeq, s.tick, g, []⟩] := by rw [State.raise_of_room hroom']; rfl
  have hmem : (((s.shadowMissed g).shadowMissed h).raise 0x0103 (s.occupant g) g []).mem = s.mem := State.raise_mem ..
  have hcore : (((s.shadowMissed g).shadowMissed h).raise 0x0103 (s.occupant g) g []).core g = s.core g := by
    rw [State.core, State.raise_cores]; rfl
  have hpair := s.shadowMissed_pair h hn
  unfold State.shadowDiffers
  generalize ((s.shadowMissed g).shadowMissed h).raise 0x0103 (s.occupant g) g [] = t at *
  have hk := (((CountsMismatch.refl t).markSuspect g).mismatch hg).mismatch hh
  refine ⟨hk.mem.trans hmem, ?core, fun x hx => ?fields, _, hk.events.subset (hevq ▸ List.mem_append_right _ (.head _)), rfl, rfl⟩
  case core => rw [← hcore]; exact hk.core g
  case fields =>
    obtain ⟨hcnt, hmiss⟩ := hpair x hx
    rw [Bumped, hk.core_field (by decide), hk.core_field (by decide), State.fget_of_regs hregs, State.fget_of_regs hregs]
    exact ⟨hcnt, hmiss⟩

/-- R92: the owner drops the pair, and a disagreement is counted, shown and reported. -/
theorem shadowCrcReturn_settles {g : CoreId} {s : State} {b x : Shadow} {r : List Shadow} (hruns : s.mxeRuns g = true)
    (hback : (s.core g).shadowBack = b :: r) (hx : ((s.core g).shadowWait.find? fun y => y.tile.num == b.tile.num) = some x)
    (hroom : s.eventRoom 1) (hne : b.partner ≠ g) (hlt : b.partner < 128) :
    ∃ u, exec (.shadowCrcReturn g) s = .next u ∧ (u.core g).shadowBack = r
      ∧ (∀ y ∈ (u.core g).shadowWait, y.tile.num ≠ b.tile.num) ∧ u.mem = s.mem
      ∧ (x.crc = b.crc → OnlyCore s u g)
      ∧ (x.crc ≠ b.crc → (∀ h, h = g.val ∨ h = b.partner → Bumped s u (F.MXE_CHK_CNT_SHD_CNT h)
          ∧ u.fget (F.MXE_CHK_STAT_SHD_MISS h) = 1) ∧ ∃ v ∈ u.evq, v.code = 0x0103 ∧ v.unit = g) := by
  have hdropped : ∀ y ∈ ((s.core g).paired r b.tile.num).shadowWait, y.tile.num ≠ b.tile.num := by
    intro y hy
    simpa using (List.mem_filter.mp hy).2
  by_cases hcrc : x.crc = b.crc
  · refine ⟨_, exec_shadowCrcReturn_agrees hruns hback hx hcrc, ?_, ?_, rfl, fun _ => .modCore s g _, fun e => absurd hcrc e⟩
    · rw [State.core_modCore_same]; rfl
    · rw [State.core_modCore_same]; exact hdropped
  · have hroom' : (s.modCore g fun c => c.paired r b.tile.num).eventRoom 1 := hroom
    obtain ⟨hmem, ⟨l, hcore⟩, hfields, hevent⟩ := State.shadowDiffers_spec g.isLt hlt hne hroom'
    rw [State.core_modCore_same] at hcore
    refine ⟨_, exec_shadowCrcReturn_differs hruns hback hx hcrc, ?_, ?_, hmem, fun e => absurd e hcrc,
      fun _ => ⟨hfields, hevent⟩⟩
    · rw [hcore]; rfl
    · rw [hcore]; exact hdropped

/-! ### A frozen engine (R217) -/

theorem exec_mxe_frozen {g : CoreId} {s : State} (h : (s.core g).mxeFrozen = true) {i : Instr}
    (hi : i ∈ [Instr.tileVerdict g, .drainEntry g, .shadowTile g, .shadowCrcReturn g]) : exec i s = .next s := by
  have hstop : ¬s.mxeRuns g = true := by simp [State.mxeRuns, h]
  simp only [List.mem_cons, List.not_mem_nil, or_false] at hi
  obtain rfl | rfl | rfl | rfl := hi
  all_goals exact congrArg Host.Outcome.next (if_neg hstop)

/-- Settles O17: the entry of a drain, the shadow tile at the partner, the CRC's return to the owner, and the engine that is
frozen. -/
theorem drainsAndShadowTiles : Obligations.DrainsAndShadowTiles := by
  unfold Obligations.DrainsAndShadowTiles
  refine ⟨?drain, ?shadow, fun g s b x r => shadowCrcReturn_settles, fun g s h i => exec_mxe_frozen h⟩
  case drain =>
    intro g s d r x hruns hdrains hx hroom hblk hgrp htag hslot hkacc
    obtain ⟨hgrp', htag', hblk', hfp, hovf, hsus, hlast, hslot', hkacc'⟩ := Drain.head_fields hblk hgrp htag hslot hkacc
    have hcore := (s.modCore g fun c => c.pushed d r (d.head x)).core_settle_same g
    rw [State.core_modCore_same] at hcore
    exact ⟨_, d.head x, exec_drainEntry hruns hdrains hx hroom, by rw [hcore]; rfl, hgrp', htag', hblk', hfp, hovf, hsus, hlast,
      hslot', hkacc', by rw [hcore]; rfl, .trans (.modCore s g _) (.settle _ g)⟩
  case shadow =>
    intro g s sh r hruns hs hin hroom hne
    refine ⟨_, exec_shadowTile hruns hs hin hroom, ?_, ?_, fun h hg ho => ?_, rfl⟩
    · rw [State.core_modCore_ne _ hne.symm, State.core_modCore_same]
    · rw [State.core_modCore_same, State.core_modCore_ne _ hne]
    · rw [State.core_modCore_ne _ ho, State.core_modCore_ne _ hg]

end Sys2Proof.Machine
end

section
/-!
PROOFS. The range monitor (R95, R96, R124, R207): a flush that arrives, an entry that passes, and the statement
RangeMonitorFlushAndVerdict.
-/

namespace Sys2Proof.Machine

/-! ### A flush that arrives (R95, R124) -/

/-- Entry `m` with the counts of flush `f` added. -/
def MonEntry.flushed (m : MonEntry) (f : Flush) : MonEntry :=
  ⟨satAdd (2 ^ 48 - 1) m.elem f.set.elem, satAdd (2 ^ 48 - 1) m.nz f.set.nz, satAdd (2 ^ 48 - 1) m.sat f.set.sat,
    satAdd (2 ^ 48 - 1) m.zl f.set.zl, peakMerge true m.peakP f.set.peakP, peakMerge false m.peakQ f.set.peakQ, none, none,
    m.flushes + 1, false⟩

theorem State.takeFlush_open {s : State} {d : Nat} {f : Flush} {r : List Flush} (hf : (s.die d).flushes = f :: r)
    (hopen : ((s.die d).mon.get MonEntry.zero f.entry).decided = false) :
    s.takeFlush d f = ((s.modDie d fun x => { x with flushes := r }).modDie d fun x =>
      { x with mon := x.mon.set f.entry (((s.die d).mon.get MonEntry.zero f.entry).flushed f) }).settle f.core := by
  have herase : (s.modDie d fun x => { x with flushes := x.flushes.erase f }) = s.modDie d fun x => { x with flushes := r } := by
    rw [State.modDie, State.modDie, hf, List.erase_cons_head]
  simp only [State.takeFlush, herase, State.die_modDie_same, hopen, Bool.false_eq_true, if_false]
  rfl

theorem State.settle_dies (s : State) (g : Nat) : (s.settle g).dies = s.dies := (OnlyCore.settle s g).dies

theorem exec_monitorFlushArrival {d : DieId} {s : State} {f : Flush} {r : List Flush} (hf : (s.die d).flushes = f :: r)
    (hclock : s.clockStopped (some d.val) = false)
    (hopen : ((s.die d).mon.get MonEntry.zero f.entry).decided = false) :
    ∃ u, exec (.monitorFlushArrival d) s = .next u ∧ (u.die d).flushes = r
      ∧ (u.die d).mon.find f.entry = some (((s.die d).mon.get MonEntry.zero f.entry).flushed f)
      ∧ u.mem = s.mem ∧ u.regs = s.regs := by
  have hexec : exec (.monitorFlushArrival d) s = .next (s.takeFlush d f) := by
    refine congrArg Host.Outcome.next ((if_neg (by rw [hclock]; exact Bool.false_ne_true)).trans ?_)
    simp only [flushArrival, hf]
  rw [State.takeFlush_open hf hopen] at hexec
  have hdie : ∀ v : State, (v.settle f.core).die d = v.die d := fun v => by rw [State.die, State.settle_dies]; rfl
  refine ⟨_, hexec, ?_, ?_, (OnlyCore.settle _ _).mem, (OnlyCore.settle _ _).regs⟩
  · rw [hdie, State.die_modDie_same, State.die_modDie_same]
  · rw [hdie, State.die_modDie_same, Tbl.find_set_same]

/-! ### A verdict of PASS (R96, R207) -/

/-- R96: an entry within both thresholds passes, whatever its scale record reads. -/
theorem rangeDecide_pass {m : MonEntry} {tsat tuf : Nat} (hsat : m.sat * 2 ^ tsat ≤ m.elem) (hzl : m.zl * 256 ≤ tuf * m.nz)
    (r : Option ScaleRec) (reserve : Nat) : rangeDecide m r tsat tuf reserve = (1, 0) := by
  simp only [rangeDecide, decide_eq_false (Nat.not_lt.mpr hsat), decide_eq_false (Nat.not_lt.mpr hzl), Bool.not_false,
    Bool.and_self, if_true]

/-- Entry `e` of die `d` decided. -/
def State.rangeDecided (s : State) (d e : Nat) : State :=
  s.modDie d fun x => { x with mon := x.mon.set e { (s.die d).mon.get MonEntry.zero e with decided := true } }

/-- Entry `e` of die `d` decided with PASS for the record `mr`: its verdict quoin is 1. -/
def State.rangePassed (s : State) (d e : Nat) (mr : MonRec) : State := (s.rangeDecided d e).quoinSet (32 * d) mr.vq 1

/-- The die with its quoin `q` at `v`. -/
def Die.withQuoin (x : Die) (q v : Nat) : Die := { x with quoin := x.quoin.set q (BitVec.ofNat 32 v) }

section
variable {s : State} {d q : Nat} (hq : 512 ≤ q) (v : Nat)
include hq

/-- A die quoin that is set differs at its die, and wakes waiters of the die's cores. -/
theorem State.quoinSet_die :
    ∃ k, s.quoinSet (32 * d) q v = { s.modDie d fun x => x.withQuoin q (v % 2 ^ 32) with cores := k } := by
  have hd : 32 * d / 32 = d := Nat.mul_div_cancel_left d (by decide)
  have h0 : q ≠ 0 := by omega
  rw [State.quoinSet, if_neg h0, if_neg (Nat.not_lt.mpr hq), hd]
  exact ⟨_, rfl⟩

theorem State.die_quoinSet_die : (s.quoinSet (32 * d) q v).die d = (s.die d).withQuoin q (v % 2 ^ 32) := by
  obtain ⟨k, hset⟩ := State.quoinSet_die (s := s) (d := d) hq v
  rw [hset]
  exact s.die_modDie_same d fun x => x.withQuoin q (v % 2 ^ 32)

/-- R153: a die quoin reads as set, modulo 2^32. -/
theorem State.quoin_quoinSet_die : (s.quoinSet (32 * d) q v).quoin (32 * d) q = v % 2 ^ 32 := by
  have hd : 32 * d / 32 = d := Nat.mul_div_cancel_left d (by decide)
  have h0 : q ≠ 0 := by omega
  rw [State.quoin, if_neg h0, if_neg (Nat.not_lt.mpr hq), hd, State.die_quoinSet_die hq, Die.withQuoin, Tbl.get_set_same,
    BitVec.toNat_ofNat, Nat.mod_mod]

end

/-! ### The step record that a last verdict lets be posted (R397) -/

/-- With room for an event, a step record that joins the backlog changes contexts and events alone. -/
theorem State.postStep_parts {s : State} (h : s.eventRoom 1) (c : Nat) : (s.postStep c).mem = s.mem
    ∧ (s.postStep c).regs = s.regs ∧ (s.postStep c).cores = s.cores ∧ (s.postStep c).dies = s.dies := by
  have hpush : ∀ r, (s.pushRec c r).regs = s.regs := by
    intro r
    unfold State.pushRec State.noteBacklog
    split
    · exact State.raise_regs_of_room (by exact h) ..
    · rfl
  unfold State.postStep
  dsimp only
  split
  · have hframe := State.pushRec_frame s c
    unfold State.stepRecord
    dsimp only
    refine ⟨(hframe _).mem, hpush _, (hframe _).cores, ?_⟩
    rw [State.modCtx_dies, hframe]
  · exact ⟨rfl, rfl, rfl, rfl⟩

theorem State.quoin_of_parts {s u : State} (hc : u.cores = s.cores) (hd : u.dies = s.dies) (g q : Nat) :
    u.quoin g q = s.quoin g q := by
  rw [State.quoin, State.quoin, State.core, State.core, State.die, State.die, hc, hd]

/-- Past its clock's check a verdict leaves what `rangeVerdict` gives, but for contexts and events. -/
theorem exec_rangeVerdict_parts {d : DieId} {e : Fin 64} {s : State} (hclock : s.clockStopped (some d.val) = false)
    (hroom : (rangeVerdict d e s).eventRoom 1) : ∃ u, exec (.rangeVerdict d e) s = .next u ∧ u.mem = (rangeVerdict d e s).mem
      ∧ u.regs = (rangeVerdict d e s).regs ∧ u.cores = (rangeVerdict d e s).cores ∧ u.dies = (rangeVerdict d e s).dies := by
  refine ⟨_, if_neg (by rw [hclock]; exact Bool.false_ne_true), ?_⟩
  split
  · exact ⟨rfl, rfl, rfl, rfl⟩
  · exact State.postStep_parts hroom _

theorem State.rangePassed_parts {s : State} {d e : Nat} {mr : MonRec} (hq : 512 ≤ mr.vq) :
    (s.rangePassed d e mr).mem = s.mem ∧ (s.rangePassed d e mr).regs = s.regs
    ∧ (s.eventRoom 1 → (s.rangePassed d e mr).eventRoom 1) ∧ (s.rangePassed d e mr).quoin (32 * d) mr.vq = 1
    ∧ ∃ n, ((s.rangePassed d e mr).die d).mon.find e = some n ∧ n.decided = true := by
  have hquoin := State.quoin_quoinSet_die (s := s.rangeDecided d e) (d := d) hq 1
  have hdie := State.die_quoinSet_die (s := s.rangeDecided d e) (d := d) hq 1
  obtain ⟨k, hset⟩ := State.quoinSet_die (s := s.rangeDecided d e) (d := d) hq 1
  refine ⟨?_, ?_, fun hroom => ?_, hquoin, { (s.die d).mon.get MonEntry.zero e with decided := true }, ?entry, rfl⟩
  · rw [State.rangePassed, hset]; rfl
  · rw [State.rangePassed, hset]; rfl
  · rw [State.rangePassed, hset]; exact hroom
  case entry => rw [State.rangePassed, hdie, State.rangeDecided, State.die_modDie_same]; exact Tbl.find_set_same ..

section
variable {d : DieId} {e : Fin 64} {s : State} {c : Nat} {mr : MonRec}
  (hrec : (s.formes.findSome? fun p => (p.2.mons.find? fun m => m.die == d.val && m.entry == e.val).map fun m => (p.1, m))
    = some (c, mr))
  (hopen : ((s.die d).mon.get MonEntry.zero e).decided = false)
  (hall : mr.prod ≤ ((s.die d).mon.get MonEntry.zero e).flushes) (hq : 512 ≤ mr.vq)
  (hsat : ((s.die d).mon.get MonEntry.zero e).sat * 2 ^ s.fget (F.CD_RM_THRESH_TSAT_EXP d)
    ≤ ((s.die d).mon.get MonEntry.zero e).elem)
  (hzl : ((s.die d).mon.get MonEntry.zero e).zl * 256
    ≤ s.fget (F.CD_RM_THRESH_TUF_NUM d) * ((s.die d).mon.get MonEntry.zero e).nz)

include hrec hopen hall hsat hzl in
theorem rangeVerdict_pass : rangeVerdict d e s = s.rangePassed d e mr := by
  have hgo : ¬(((s.die d).mon.get MonEntry.zero e).decided = true ∨ ((s.die d).mon.get MonEntry.zero e).flushes < mr.prod) := by
    simp [hopen, hall]
  simp only [rangeVerdict, hrec, if_neg hgo, rangeDecide_pass hsat hzl, if_true]
  cases maskCores mr.cmask <;> rfl

include hrec hopen hall hq hsat hzl in
/-- R96, R207: an entry that passes is decided, and its verdict quoin is 1. -/
theorem exec_rangeVerdict_pass (hclock : s.clockStopped (some d.val) = false) (hroom : s.eventRoom 1) :
    ∃ u n, exec (.rangeVerdict d e) s = .next u ∧ u.quoin (32 * d) mr.vq = 1 ∧ (u.die d).mon.find e = some n
      ∧ n.decided = true ∧ u.mem = s.mem ∧ u.regs = s.regs := by
  obtain ⟨hmem, hregs, hroom', hquoin, n, hentry, hdecided⟩ := State.rangePassed_parts (s := s) (d := d) (e := e) hq
  have hpass := rangeVerdict_pass hrec hopen hall hsat hzl
  obtain ⟨u, hexec, humem, huregs, hucores, hudies⟩ := exec_rangeVerdict_parts hclock (by rw [hpass]; exact hroom' hroom)
  rw [hpass] at humem huregs hucores hudies
  refine ⟨u, n, hexec, (State.quoin_of_parts hucores hudies _ _).trans hquoin, ?_, hdecided, humem.trans hmem,
    huregs.trans hregs⟩
  rw [State.die, hudies]
  exact hentry

end

/-- Settles O18: a flush in time is added to its entry, an entry within its thresholds passes, and neither happens on a die
whose clock a capture has stopped. -/
theorem rangeMonitorFlushAndVerdict : Obligations.RangeMonitorFlushAndVerdict := by
  unfold Obligations.RangeMonitorFlushAndVerdict
  refine ⟨fun d s f r hf hclock hopen => ?flush, fun d e s c mr => exec_rangeVerdict_pass, fun d e s hclock => ⟨?_, ?_⟩⟩
  case flush =>
    obtain ⟨u, hexec, hrest, hentry, hmem, hregs⟩ := exec_monitorFlushArrival hf hclock hopen
    exact ⟨u, _, hexec, hrest, hentry, rfl, rfl, rfl, rfl, rfl, hmem, hregs⟩
  · exact congrArg Host.Outcome.next (if_pos hclock)
  · exact if_pos hclock

end Sys2Proof.Machine
end

section
/-!
PROOFS. The transfer engine of a core (R156, R157, R161): when its pump issues nothing, and what a descriptor's start leaves
to the pump.
-/

namespace Sys2Proof.Machine

/-! ### An engine with nothing to issue (R157) -/

section
variable {s : State} {g c : Nat}

/-- A descriptor that has issued its last request has no next one. -/
theorem State.nextReq_issued {a : Active} (h : a.issued = true) : s.nextReq a = none := if_pos h

theorem State.issueOne_issued (h : ∀ a ∈ (s.core g).act, a.issued = true) (id : Nat) : s.issueOne g id = (s, false) := by
  unfold State.issueOne
  dsimp only
  split
  next a _ ha =>
    rw [State.nextReq_issued (h a (List.mem_of_find?_eq_some ha))]
    exact ite_self _
  · rfl

/-- A round in which the descriptors issue nothing, on a core without a stream, is the pump's last. -/
theorem State.pumpFrom_rests (hocc : s.occupant g = some c) (hact : ∀ a ∈ (s.core g).act, a.issued = true)
    (hstreams : (s.ctx c).streams = []) (n : Nat) : s.pumpFrom g n = s := by
  cases n with
  | zero => rfl
  | succ n =>
    have hround : ∀ l : List Active, l.foldl (fun (p : State × Bool) a =>
        ((p.1.issueOne g a.d.id).1, p.2 || (p.1.issueOne g a.d.id).2)) (s, false) = (s, false) := by
      intro l
      induction l with
      | nil => rfl
      | cons a r ih => rw [List.foldl_cons, State.issueOne_issued hact]; exact ih
    simp only [State.pumpFrom, hround, hocc, Option.getD_some, hstreams, Option.isNone_some, List.foldl_nil,
      Bool.false_eq_true, if_false]

/-- With one active descriptor and no stream, each round of the pump is one try to issue. -/
theorem State.pumpFrom_single {a : Active} (hocc : s.occupant g = some c) (hact : (s.core g).act = [a]) {t : State} {b : Bool}
    (hissue : s.issueOne g a.d.id = (t, b)) (hstreams : (t.ctx c).streams = []) (n : Nat) :
    s.pumpFrom g (n + 1) = if b = true then t.pumpFrom g n else t := by
  simp only [State.pumpFrom, hact, List.foldl_cons, List.foldl_nil, hissue, hocc, Option.getD_some, hstreams,
    Option.isNone_some, Bool.false_or, Bool.false_eq_true, if_false]

theorem State.promote_rests (h : (s.core g).waits = []) : s.promote g = s := by rw [State.promote, h, List.foldl_nil]

theorem State.pump_live (hlive : s.xfeLive g = true) (hwaits : (s.core g).waits = []) : s.pump g = s.pumpFrom g 64 := by
  rw [State.pump, if_pos hlive, State.promote_rests hwaits]

theorem State.pump_rests (hocc : s.occupant g = some c) (hwaits : (s.core g).waits = [])
    (hact : ∀ a ∈ (s.core g).act, a.issued = true) (hstreams : (s.ctx c).streams = []) : s.pump g = s := by
  rw [State.pump, State.promote_rests hwaits, State.pumpFrom_rests hocc hact hstreams, ite_self]

end

/-! ### The start of a descriptor (R156 steps 1 to 4) -/

/-- Descriptor `d`, its source no galley entry, as it becomes active on core `g` to move `rows` rows. -/
def State.active (s : State) (g : Nat) (d : Desc) (rows : Nat) (refetch : Bool) : Active :=
  ⟨d, dField d.words 1 47 0, 64 * (dField d.words 3 63 46 + 1), rows, 0, 0, s.quoin g (dField d.words 5 21 12), false, refetch,
    false⟩

/-- The core with active descriptor `a` more. -/
def Core.withAct (k : Core) (a : Active) : Core := { k with act := k.act ++ [a] }

/-- The core without descriptor `d` in its queue. -/
def Core.unqueue (k : Core) (d : Desc) : Core := { k with xq := k.xq.erase d }

theorem XferIdle.quiet {s : State} {g c : Nat} (h : XferIdle s g c) : XferQuiet s g c :=
  ⟨h.occupant, h.act, h.slots, h.waits, h.streams, h.ended⟩

section
variable {s : State} {g : Nat} {d : Desc} (hgsrc : dField d.words 0 24 24 = 0)
include hgsrc

theorem State.descShape_plain :
    s.descShape g d.words = (dField d.words 1 47 0, 64 * (dField d.words 3 63 46 + 1), dField d.words 3 45 30 + 1) :=
  if_neg (by rw [hgsrc]; exact Nat.zero_ne_one)

/-- A COPY or ZERO without a sum block and without a generation step of its own is active, and the pump issues. -/
theorem State.startDesc_moves (hop : dField d.words 0 63 60 = 1 ∨ dField d.words 0 63 60 = 2)
    (hsum : dField d.words 0 54 52 = 0) {refetch : Bool} (hseq : dField d.words 0 25 25 = 0 ∨ refetch = true) :
    s.startDesc g d refetch =
      (s.modCore g fun k => k.withAct (s.active g d (dField d.words 3 45 30 + 1) refetch)).pump g := by
  have hmoves : (dField d.words 0 63 60 == 1 || dField d.words 0 63 60 == 2) = true := by simpa using hop
  have hnohint : dField d.words 0 63 60 ≠ 4 := by omega
  have hnoseq : ¬ ((dField d.words 0 25 25 == 1) = true ∧ refetch = false) := by
    rcases hseq with h | h <;> simp [h]
  simp only [State.startDesc, State.descShape_plain hgsrc, hmoves, hsum, Active.seqBit, if_neg hnoseq, hnohint, bne_self_eq_false,
    Bool.and_false, Bool.false_eq_true, false_and, Bool.true_eq_false, if_false, if_true]
  rfl

/-- A QSET outside a chain is active. -/
theorem State.startDesc_qset (hop : dField d.words 0 63 60 = 3) (hseq : dField d.words 0 25 25 = 0)
    (hnext : dField d.words 7 21 6 = 0) :
    s.startDesc g d false = (s.modCore g fun k => k.withAct (s.active g d 0 false)).pump g := by
  simp only [State.startDesc, State.descShape_plain hgsrc, hop, hseq, hnext, Active.seqBit, State.chainNext, Nat.reduceBEq,
    Bool.or_self, Bool.false_and, Bool.false_eq_true, Nat.reduceEqDiff, false_and, true_or, Bool.true_eq_false, if_false, if_true]
  rfl

/-- A HINT outside a chain whose rows all reach their addresses rewrites the lines of its shape and is active. -/
theorem State.startDesc_hint {c : Nat} (hocc : s.occupant g = some c) (hop : dField d.words 0 63 60 = 4)
    (hseq : dField d.words 0 25 25 = 0) (hnext : dField d.words 7 21 6 = 0)
    (hreach : ∀ r, r ≤ dField d.words 3 45 30 → s.rowReach c false (64 * (dField d.words 3 63 46 + 1) / 0x40000 + 2)
      (dField d.words 1 47 0 + r * dField d.words 4 63 32) (64 * (dField d.words 3 63 46 + 1)) = true) :
    s.startDesc g d false = ((s.hintLines g (s.active g d (dField d.words 3 45 30 + 1) false)).modCore g
      fun k => k.withAct (s.active g d 0 false)).pump g := by
  have hall : ((List.range (dField d.words 3 45 30 + 1)).all fun r =>
      s.rowReach c false (64 * (dField d.words 3 63 46 + 1) / 0x40000 + 2)
        (dField d.words 1 47 0 + r * dField d.words 4 63 32) (64 * (dField d.words 3 63 46 + 1))) = true :=
    List.all_eq_true.mpr fun r hr => hreach r (Nat.le_of_lt_succ (List.mem_range.mp hr))
  simp only [State.startDesc, State.descShape_plain hgsrc, hop, hseq, hnext, hocc, Option.getD_some, hall, Active.seqBit,
    State.chainNext, Nat.reduceBEq, Bool.or_self, Bool.false_and, Bool.false_eq_true, false_and, true_or,
    Bool.true_eq_false, and_false, if_false, if_true]
  rfl

end

end Sys2Proof.Machine
end

section
/-!
PROOFS. Descriptors that start from the queue or from a chain (R155 to R158, R161), and the statement
DescriptorsStartTheirRequests.
-/

namespace Sys2Proof.Machine

/-! ### Two changes of one core -/

theorem Tbl.insertIn_insertIn {α : Type} (k : Nat) (v w : α) (l : List (Nat × α)) :
    Tbl.insertIn k v (Tbl.insertIn k w l) = Tbl.insertIn k v l := by
  induction l with
  | nil => simp [Tbl.insertIn]
  | cons e r ih =>
    obtain ⟨a, x⟩ := e
    by_cases h1 : a = k
    · simp [Tbl.insertIn, h1]
    · by_cases h2 : k < a
      · simp [Tbl.insertIn, h1, h2]
      · simp [Tbl.insertIn, h1, h2, ih]

/-- Two changes of one core are one. -/
theorem State.modCore_modCore (s : State) (g : Nat) (f f' : Core → Core) :
    (s.modCore g f).modCore g f' = s.modCore g fun k => f' (f k) := by
  rw [State.modCore, State.core_modCore_same]
  simp only [State.modCore, State.setCore, Tbl.set, Tbl.insertIn_insertIn]

/-! ### Requests within a core's own memories (R161) -/

/-- Active descriptor `a` with its next request at row and position `p`. -/
def Active.past (a : Active) (p : Nat × Nat) : Active := { a with row := p.1, pos := p.2 }

/-- The core with `a` as its only active descriptor. -/
def Core.working (k : Core) (a : Active) : Core := { k with act := [a] }

/-- The core with one more slot held. -/
def Core.withSlot (k : Core) (x : Slot) : Core := { k with slots := k.slots ++ [x] }

section
variable {s : State} {g c : Nat}

theorem State.bankRoom_inner {a : Nat} (h : isMem a = false) : s.bankRoom a = 2048 := by
  unfold isMem at h
  unfold State.bankRoom
  cases hp : place a with
  | hbm d => simp [hp] at h
  | lpx e => simp [hp] at h
  | _ => rfl

/-- The one request of a row of at most 2 KiB that is moved within the local store and the operand cache. -/
theorem State.nextReq_oneRow {a : Active} (hrows : a.rows = 1) (hrow : a.row = 0) (hpos : a.pos = 0) (hsrcRem : a.srcRem = false)
    (hdstRem : a.dstRem = false) (hop : a.op = 1 ∧ isMem a.src = false ∨ a.op = 2) (hdst : isMem a.dst = false)
    (hlen : a.rowLen ≤ 2048) : s.nextReq a =
      some (⟨a.d.id, if a.op = 2 then .zero else .copy, a.src, a.dst, a.rowLen, 0x20000, 0x20000⟩, 1, 0) := by
  have hissued : a.issued = false := by simp [Active.issued, hrows, hrow]
  have hmin : Nat.min 2048 a.rowLen = a.rowLen := Nat.min_eq_right hlen
  have hmin' : Nat.min a.rowLen 2048 = a.rowLen := Nat.min_eq_left hlen
  rcases hop with ⟨hop, hsrc⟩ | hop
  · simp [State.nextReq, hissued, hrow, hpos, hsrcRem, hdstRem, hop, hsrc, hdst, State.bankRoom_inner, hmin, hmin']
  · simp [State.nextReq, hissued, hrow, hpos, hsrcRem, hdstRem, hop, hdst, State.bankRoom_inner, hmin, hmin']

/-- The slot of a request within the core's own memories, or of zeros: the bytes that it will write are those of its source as
the slot is taken. -/
def State.innerSlot (s : State) (r : Req) (issued : Nat) : Slot :=
  ⟨r, false, s.timeUs, s.nextXfer, if r.kind = .zero then List.replicate r.len 0 else s.bytes r.src r.len, issued, [],
    if s.queueRoom r then some s.timeUs else none⟩

theorem State.takeSlot_inner {r : Req} (h : r.kind = .copy ∧ isMem r.src = false ∨ r.kind = .zero) (a : Active) (n : Nat) :
    s.takeSlot g c r a n = s.modCore g fun k => k.withSlot (s.innerSlot r n) := by
  rcases h with ⟨hk, hsrc⟩ | hk
  · simp only [State.takeSlot, State.innerSlot, hk, State.dcRead, hsrc, true_or, if_true, reduceCtorEq, if_false,
      ReqKind.isLocal, Bool.true_and]
    rfl
  · simp only [State.takeSlot, State.innerSlot, hk, reduceCtorEq, false_and, or_self, if_true, if_false, ReqKind.isLocal,
      Bool.true_and]
    rfl

theorem Core.bankFree_of_no_slot {k : Core} (h : k.slots = []) (r : Req) : k.bankFree r = true := by
  simp [Core.bankFree, Core.bankHeld, h]

/-- The only active descriptor of a core that holds no slot issues its next request. -/
theorem State.issueOne_first {a : Active} {r : Req} {p : Nat × Nat} (hocc : s.occupant g = some c)
    (hact : (s.core g).act = [a]) (hslots : (s.core g).slots = []) (hwaits : (s.core g).waits = []) (hlive : s.xfeLive g = true)
    (hgood : a.failed = false) (hreq : s.nextReq a = some (r, p)) (hrd : r.kind = .zero ∨ s.xfeReach c false r.src r.len = true)
    (hwr : s.xfeReach c true r.dst r.len = true) : s.issueOne g a.d.id =
      (((s.modCore g fun k => k.working (a.past p)).takeSlot g c r (a.past p) s.timeUs).lastIssued g (a.past p), true) := by
  have hfind : (s.core g).act.find? (fun x => x.d.id == a.d.id) = some a := by simp [hact]
  have hno : ¬ (s.xfeLive g = false ∨ a.failed = true ∨ ((s.core g).waits.any fun x => x.req.desc == a.d.id) = true
      ∨ 48 ≤ (s.core g).slots.length) := by simp [hlive, hgood, hwaits, hslots]
  have hbusy : (s.core g).copyBusy r = false := by simp [Core.copyBusy, hslots]
  have hok : (r.kind == .zero || a.srcRem || a.op == 2 || s.xfeReach c false r.src r.len) = true := by
    rcases hrd with h | h <;> simp [h]
  have hput : (s.modCore g fun k => k.modAct a.d.id fun _ => { a with row := p.1, pos := p.2 }) =
      s.modCore g fun k => k.working (a.past p) := by
    simp [State.modCore, Core.modAct, hact, Core.working, Active.past]
  simp only [State.issueOne, hocc, hfind, if_neg hno, hreq, hbusy, hok, hwr, Bool.or_true, Bool.and_self, hput,
    Core.bankFree_of_no_slot hslots, Bool.false_eq_true, Bool.true_eq_false, if_false, if_true]
  rfl

/-- R157: a descriptor without a galley entry as its source, outside a chain, ends its issue with nothing more. -/
theorem State.lastIssued_plain {a : Active} (hgsrc : a.gsrc = false) (hnext : dField a.d.words 7 21 6 = 0) :
    s.lastIssued g a = s := by
  simp [State.lastIssued, State.dropSource, State.chainNext, hgsrc, hnext]

end

/-! ### Starts (R157) -/

theorem XferQuiet.modCore {s : State} {g c : Nat} (h : XferQuiet s g c) {f : Core → Core}
    (hf : ∀ k, (f k).act = k.act ∧ (f k).slots = k.slots ∧ (f k).waits = k.waits) : XferQuiet (s.modCore g f) g c where
  occupant := h.occupant
  act := by rw [State.core_modCore_same, (hf _).1]; exact h.act
  slots := by rw [State.core_modCore_same, (hf _).2.1]; exact h.slots
  waits := by rw [State.core_modCore_same, (hf _).2.2]; exact h.waits
  streams := h.streams
  ended := h.ended

theorem State.xfeLive_modCore {s : State} {g : Nat} {f : Core → Core} (hf : ∀ k, (f k).stopped = k.stopped) :
    (s.modCore g f).xfeLive g = s.xfeLive g := by
  unfold State.xfeLive State.live
  rw [State.core_modCore_same, hf]
  rfl

section
variable {s : State} {g c : Nat} {d : Desc}

/-- The first descriptor of its operation that may start leaves the queue of an idle engine (R157). -/
theorem XferIdle.startQueued (h : XferIdle s g c) (hlive : s.xfeLive g = true) {op : Nat}
    (hd : (s.core g).xq.find? (fun d => d.ready && dField d.words 0 63 60 == op && s.canStart g d.words) = some d) :
    s.startQueued g op = (s.modCore g fun k => k.unqueue d).startDesc g d false := by
  have hno : ¬ (s.xfeLive g = false ∨ (s.core g).placeFree = false) := by simp [hlive, Core.placeFree, h.act, h.chain]
  simp only [State.startQueued, if_neg hno, hd]
  rfl

/-- A QSET that starts becomes active and does nothing more. -/
theorem XferQuiet.startDesc_qset (h : XferQuiet s g c) (hgsrc : dField d.words 0 24 24 = 0)
    (hop : dField d.words 0 63 60 = 3) (hseq : dField d.words 0 25 25 = 0) (hnext : dField d.words 7 21 6 = 0) :
    s.startDesc g d false = s.modCore g fun k => k.withAct (s.active g d 0 false) := by
  rw [State.startDesc_qset hgsrc hop hseq hnext]
  refine State.pump_rests h.occupant ?_ ?_ h.streams
  · rw [State.core_modCore_same]; exact h.waits
  · intro a ha
    rw [State.core_modCore_same, Core.withAct, h.act, List.nil_append, List.mem_singleton] at ha
    rw [ha]; rfl

end

/-- R161: the pump takes a slot for the one request that is left of the only active descriptor, and then rests. -/
theorem State.pump_lastRequest {s : State} {g c : Nat} {a : Active} {r : Req} (hocc : s.occupant g = some c)
    (hact : (s.core g).act = [a]) (hslots : (s.core g).slots = []) (hwaits : (s.core g).waits = [])
    (hstreams : (s.ctx c).streams = []) (hlive : s.xfeLive g = true) (hgood : a.failed = false)
    (hgsrc : a.gsrc = false) (hnext : dField a.d.words 7 21 6 = 0) (hreq : s.nextReq a = some (r, a.rows, 0))
    (hkind : r.kind = .copy ∧ isMem r.src = false ∧ s.xfeReach c false r.src r.len = true ∨ r.kind = .zero)
    (hwr : s.xfeReach c true r.dst r.len = true) :
    ∃ x, s.pump g = (s.modCore g fun k => (k.working (a.past (a.rows, 0))).withSlot x) ∧ x.req = r
      ∧ x.data = if r.kind = .zero then List.replicate r.len 0 else s.bytes r.src r.len := by
  have hissue := State.issueOne_first hocc hact hslots hwaits hlive hgood hreq (hkind.elim (fun h => .inr h.2.2) .inl) hwr
  rw [State.takeSlot_inner (hkind.imp (fun h => ⟨h.1, h.2.1⟩) id), State.lastIssued_plain (a := a.past (a.rows, 0)) hgsrc hnext,
    State.modCore_modCore] at hissue
  refine ⟨(s.modCore g fun k => k.working (a.past (a.rows, 0))).innerSlot r s.timeUs, ?_, rfl, rfl⟩
  rw [State.pump_live hlive hwaits, State.pumpFrom_single hocc hact hissue hstreams, if_pos rfl]
  refine State.pumpFrom_rests (s := s.modCore g _) hocc (fun x hx => ?_) hstreams 63
  rw [State.core_modCore_same] at hx
  rw [List.mem_singleton.mp hx]
  exact decide_eq_true (Nat.le_refl a.rows)

section
variable {s : State} {g c : Nat} {d : Desc} (h : XferQuiet s g c) (hlive : s.xfeLive g = true)
  (hgsrc : dField d.words 0 24 24 = 0) (hsrcRem : dField d.words 0 56 56 = 0) (hdstRem : dField d.words 0 55 55 = 0)
  (hsum : dField d.words 0 54 52 = 0) (hseq : dField d.words 0 25 25 = 0) (hrows : dField d.words 3 45 30 = 0)
  (hnext : dField d.words 7 21 6 = 0) (hlen : 64 * (dField d.words 3 63 46 + 1) ≤ 2048)
  (hdst : isMem (dField d.words 2 47 0) = false)
  (hwr : s.xfeReach c true (dField d.words 2 47 0) (64 * (dField d.words 3 63 46 + 1)) = true)
include h hlive hgsrc hsrcRem hdstRem hsum hseq hrows hnext hlen hdst hwr

/-- R156, R161: a COPY or ZERO of one row within the core's own memories becomes active, and its one request holds a slot. -/
theorem XferQuiet.startDesc_oneRow
    (hop : dField d.words 0 63 60 = 1 ∧ isMem (dField d.words 1 47 0) = false
        ∧ s.xfeReach c false (dField d.words 1 47 0) (64 * (dField d.words 3 63 46 + 1)) = true
      ∨ dField d.words 0 63 60 = 2) :
    ∃ x a, s.startDesc g d false = (s.modCore g fun k => (k.working a).withSlot x) ∧ a.d = d
      ∧ x.req = ⟨d.id, if dField d.words 0 63 60 = 2 then .zero else .copy, dField d.words 1 47 0, dField d.words 2 47 0,
          64 * (dField d.words 3 63 46 + 1), 0x20000, 0x20000⟩
      ∧ x.data = if dField d.words 0 63 60 = 2 then List.replicate (64 * (dField d.words 3 63 46 + 1)) 0
          else s.bytes (dField d.words 1 47 0) (64 * (dField d.words 3 63 46 + 1)) := by
  have hmoves : dField d.words 0 63 60 = 1 ∨ dField d.words 0 63 60 = 2 := hop.imp And.left id
  have hreq : (s.modCore g fun k => k.withAct (s.active g d 1 false)).nextReq (s.active g d 1 false) = _ :=
    State.nextReq_oneRow rfl rfl rfl (beq_eq_false_iff_ne.mpr (by rw [State.active, hsrcRem]; decide))
      (beq_eq_false_iff_ne.mpr (by rw [State.active, hdstRem]; decide)) (hop.imp (fun h => ⟨h.1, h.2.1⟩) id) hdst hlen
  obtain ⟨x, hpump, hxreq, hxdata⟩ := State.pump_lastRequest (s := s.modCore g fun k => k.withAct (s.active g d 1 false)) h.occupant
    (by rw [State.core_modCore_same, Core.withAct, h.act]; rfl) (by rw [State.core_modCore_same]; exact h.slots)
    (by rw [State.core_modCore_same]; exact h.waits) h.streams
    ((State.xfeLive_modCore fun k => by rfl).trans hlive) rfl (beq_eq_false_iff_ne.mpr (by rw [State.active, hgsrc]; decide))
    hnext hreq (hop.imp (fun h => ⟨if_neg (by rw [Active.op, State.active, h.1]; decide), h.2⟩) fun h => if_pos h) hwr
  rw [State.modCore_modCore] at hpump
  have hstart := State.startDesc_moves (s := s) (g := g) hgsrc hmoves hsum (refetch := false) (.inl hseq)
  rw [hrows, Nat.zero_add, hpump] at hstart
  refine ⟨x, _, hstart, rfl, hxreq, hxdata.trans ?_⟩
  rcases hop with h1 | h2
  · simp [Active.op, State.active, h1.1]
  · simp [Active.op, State.active, h2]

end

/-! ### The statement -/

/-- Settles O19: the descriptor that starts is active, and its one request has taken a slot with the bytes to write. -/
theorem descriptorsStartTheirRequests : Obligations.DescriptorsStartTheirRequests := by
  unfold Obligations.DescriptorsStartTheirRequests
  intro g s c op d hidle hlive hd l src dst n hgsrc hsrcRem hdstRem hsum hseq hrows hnext hlen hdst hrd hwr starts
  have hdop : dField d.words 0 63 60 = op := by
    have hfound := List.find?_some hd
    simp only [Bool.and_eq_true, beq_iff_eq] at hfound
    exact hfound.1.2
  have hquiet : XferQuiet (s.modCore g fun k => k.unqueue d) g c := hidle.quiet.modCore fun _ => ⟨rfl, rfl, rfl⟩
  have hlive' : (s.modCore g fun k => k.unqueue d).xfeLive g = true :=
    (State.xfeLive_modCore fun k => by rfl).trans hlive
  have hstart : ∀ i, exec i s = .next (s.startQueued g op).flush → (op = 1 ∨ op = 2) →
      starts i (if op = 2 then .zero else .copy) (if op = 2 then List.replicate n 0 else s.bytes src n) := by
    intro i hexec hop
    obtain ⟨x, a, hstart, had, hreq, hdata⟩ := hquiet.startDesc_oneRow hlive' hgsrc hsrcRem hdstRem hsum hseq hrows hnext hlen
      hdst hwr (hop.imp (fun h => ⟨hdop.trans h, hrd h⟩) hdop.trans)
    rw [hidle.startQueued hlive hd, hstart, State.modCore_modCore, State.flush_of_ended_nil (s := s.modCore g _) hidle.ended] at hexec
    rw [hdop] at hreq hdata
    refine ⟨_, x, a, hexec, ?_, by rw [hreq], by rw [hreq], by rw [hreq], hdata, ?_, had, ?_, .modCore s g _⟩
    · rw [State.core_modCore_same, Core.withSlot, Core.working, Core.unqueue, hidle.slots]; rfl
    · rw [State.core_modCore_same]; rfl
    · rw [State.core_modCore_same]; rfl
  refine ⟨fun hop => ?_, fun hop => ?_⟩
  · subst hop
    exact hstart (.copy g) rfl (.inl rfl)
  · subst hop
    exact hstart (.zero g) rfl (.inr rfl)

end Sys2Proof.Machine
end

section
/-!
PROOFS. QSET, HINT and the completion of descriptors (R155, R156), and the statement QsetHintAndCompletion.
-/

namespace Sys2Proof.Machine

/-! ### Quoins set (R152, R153) -/

theorem Tbl.find_map {α : Type} (t : Tbl α) (f : Nat → α → α) (k : Nat) : (t.map f).find k = (t.find k).map (f k) := by
  obtain ⟨l⟩ := t
  induction l with
  | nil => rfl
  | cons e r ih =>
    by_cases h : e.1 = k
    · simp [Tbl.find, Tbl.map, Tbl.findIn, h]
    · simpa [Tbl.find, Tbl.map, Tbl.findIn, h] using ih

section
variable (s : State) (g q v : Nat)

/-- A quoin that is set changes counters of cores and dies and what waits on them. -/
theorem State.quoinSet_frame : ∃ k d, s.quoinSet g q v = { s with cores := k, dies := d } := by
  unfold State.quoinSet
  dsimp only
  split_ifs
  · exact ⟨_, _, rfl⟩
  · exact ⟨_, _, rfl⟩
  · exact ⟨_, _, rfl⟩

/-- Of its own core it changes the core's counters and the threads and descriptors that wait on the quoin. -/
theorem State.core_quoinSet : ∃ t l m n, (s.quoinSet g q v).core g =
    { s.core g with quoin := t, thr := l, xq := m, chainWait := n } := by
  unfold State.quoinSet
  dsimp only
  split_ifs
  · exact ⟨_, _, _, _, rfl⟩
  · exact ⟨_, _, _, _, by rw [State.core_modCore_same]; rfl⟩
  · simp only [State.core, State.modDie_cores, Tbl.get, Tbl.find_map, if_true]
    cases s.cores.find g with
    | none => exact ⟨_, _, _, _, rfl⟩
    | some k => exact ⟨_, _, _, _, rfl⟩

/-- R153: a quoin but the null one reads as set, modulo 2^32. -/
theorem State.quoin_quoinSet_same (hq : q ≠ 0) : (s.quoinSet g q v).quoin g q = v % 2 ^ 32 := by
  by_cases hl : q < 512
  · exact State.quoin_quoinSet hq hl v
  · have hdie : (s.quoinSet g q v).die (g / 32) =
        ((s.modDie (g / 32) fun d => d.withQuoin q (v % 2 ^ 32)).die (g / 32)) := by
      rw [State.quoinSet, if_neg hq, if_neg hl]; rfl
    rw [State.quoin, if_neg hq, if_neg hl, hdie, State.die_modDie_same, Die.withQuoin, Tbl.get_set_same, BitVec.toNat_ofNat,
      Nat.mod_mod]

end

/-! ### QSET and HINT -/

/-- R216: what a row reaches is no matter of the cores' state. -/
theorem State.rowReach_modCore (s : State) (g : Nat) (f : Core → Core) (c : Nat) (write : Bool) (fuel a n : Nat) :
    (s.modCore g f).rowReach c write fuel a n = s.rowReach c write fuel a n := by
  induction fuel generalizing a n with
  | zero => rfl
  | succ fuel ih => simp only [State.rowReach, ih]; rfl

/-- A HINT outside a chain that starts rewrites its lines, becomes active and does nothing more. -/
theorem XferQuiet.startDesc_hint {s : State} {g c : Nat} {d : Desc} (h : XferQuiet s g c) (hgsrc : dField d.words 0 24 24 = 0)
    (hop : dField d.words 0 63 60 = 4) (hseq : dField d.words 0 25 25 = 0) (hnext : dField d.words 7 21 6 = 0)
    (hreach : ∀ r, r ≤ dField d.words 3 45 30 → s.rowReach c false (64 * (dField d.words 3 63 46 + 1) / 0x40000 + 2)
      (dField d.words 1 47 0 + r * dField d.words 4 63 32) (64 * (dField d.words 3 63 46 + 1)) = true) :
    s.startDesc g d false = (s.hintLines g (s.active g d (dField d.words 3 45 30 + 1) false)).modCore g
      fun k => k.withAct (s.active g d 0 false) := by
  rw [State.startDesc_hint hgsrc h.occupant hop hseq hnext hreach]
  refine State.pump_rests (s := (s.hintLines g _).modCore g _) h.occupant ?_ ?_ h.streams
  · rw [State.core_modCore_same]; exact h.waits
  · intro a ha
    rw [State.core_modCore_same] at ha
    have hone : (((s.hintLines g (s.active g d (dField d.words 3 45 30 + 1) false)).core g).withAct
        (s.active g d 0 false)).act = [s.active g d 0 false] := congrArg (· ++ _) h.act
    rw [hone, List.mem_singleton] at ha
    rw [ha]; rfl

section
variable {g : CoreId} {s : State} {c : Nat} {d : Desc} (h : XferIdle s g c) (hlive : s.xfeLive g = true)
  (hgsrc : dField d.words 0 24 24 = 0) (hseq : dField d.words 0 25 25 = 0) (hnext : dField d.words 7 21 6 = 0)
include h hlive hgsrc hseq hnext

theorem exec_qset (hd : (s.core g).xq.find? (fun e => e.ready && dField e.words 0 63 60 == 3 && s.canStart g e.words) = some d)
    (hop : dField d.words 0 63 60 = 3) : ∃ u a, exec (.qset g) s = .next u ∧ (u.core g).act = [a] ∧ a.d = d
      ∧ a.issued = true ∧ (u.core g).xq = (s.core g).xq.erase d ∧ OnlyCore s u g := by
  have hquiet : XferQuiet (s.modCore g fun k => k.unqueue d) g c := h.quiet.modCore fun _ => ⟨rfl, rfl, rfl⟩
  have hexec : exec (.qset g) s = .next (s.startQueued g 3).flush := rfl
  rw [h.startQueued hlive hd, hquiet.startDesc_qset hgsrc hop hseq hnext, State.modCore_modCore,
    State.flush_of_ended_nil (s := s.modCore g _) h.ended] at hexec
  refine ⟨_, (s.modCore g fun k => k.unqueue d).active g d 0 false, hexec, ?_, rfl, rfl, ?_, .modCore s g _⟩
  · rw [State.core_modCore_same, Core.withAct, Core.unqueue, h.act]; rfl
  · rw [State.core_modCore_same]; rfl

theorem exec_hint (hd : (s.core g).xq.find? (fun e => e.ready && dField e.words 0 63 60 == 4 && s.canStart g e.words) = some d)
    (hop : dField d.words 0 63 60 = 4)
    (hreach : ∀ r, r ≤ dField d.words 3 45 30 → s.rowReach c false (64 * (dField d.words 3 63 46 + 1) / 0x40000 + 2)
      (dField d.words 1 47 0 + r * dField d.words 4 63 32) (64 * (dField d.words 3 63 46 + 1)) = true) :
    ∃ u, exec (.hint g) s = .next u ∧ u.mem = s.mem ∧ (u.core g).xq = (s.core g).xq.erase d
      ∧ (u.die (g / 32)).lines =
        ((s.hintLines g (s.active g d (dField d.words 3 45 30 + 1) false)).die (g / 32)).lines := by
  have hquiet : XferQuiet (s.modCore g fun k => k.unqueue d) g c := h.quiet.modCore fun _ => ⟨rfl, rfl, rfl⟩
  have hexec : exec (.hint g) s = .next (s.startQueued g 4).flush := rfl
  rw [h.startQueued hlive hd, hquiet.startDesc_hint hgsrc hop hseq hnext
      fun r hr => (s.rowReach_modCore ..).trans (hreach r hr)] at hexec
  refine ⟨_, hexec.trans (congrArg _ (State.flush_of_ended_nil (by exact h.ended))), rfl, ?_, ?_⟩
  · rw [State.core_modCore_same]
    exact congrArg Core.xq (s.core_modCore_same g fun k => k.unqueue d)
  · rw [State.modCore_die', State.hintLines, State.hintLines, State.die_modDie_same, State.die_modDie_same]
    rfl

end

/-! ### Completion (R156 steps 5 to 9) -/

/-- The value that CQ takes when descriptor `a` completes. -/
def State.cqValue (s : State) (g : Nat) (a : Active) : Nat :=
  if a.op = 3 then dField a.d.words 4 31 0
  else wrap 32 ((s.quoin g (dField a.d.words 6 47 38) : Int) + sext 16 (dField a.d.words 6 37 22))

/-- The core whose active descriptor `id` has done its generation steps. -/
def Core.sampled (k : Core) (id : Nat) : Core := k.modAct id fun x => { x with sampled := true }

/-- The core whose active descriptor `id` has ended. -/
def Core.unact (k : Core) (id : Nat) : Core := { k with act := k.act.filter fun x => x.d.id != id }

theorem State.quoin_modCore {s : State} {g : Nat} {f : Core → Core} (hf : ∀ k, (f k).quoin = k.quoin) (q : Nat) :
    (s.modCore g f).quoin g q = s.quoin g q := by
  rw [State.quoin, State.core_modCore_same, hf]; rfl

section
variable {g : Nat} {s : State} {c i : Nat} {a : Active} (h : XferDone s g c a)
include h

theorem XferDone.completeDesc (hi : (s.core g).act[i]? = some a) (hlive : s.xfeLive g = true) : s.completeDesc g i =
    (((((s.modCore g fun k => k.sampled a.d.id).quoinSet g (dField a.d.words 6 47 38) (s.cqValue g a)).modCore g
      fun k => k.unact a.d.id).pump g).settle g) := by
  have hmoved : (s.core g).moved a = true := by simp [Core.moved, h.moved, h.slots, h.waits]
  have hfirst : ((s.core g).act.all fun b => b.refetch || b.d.chain != a.d.chain || decide (a.d.id ≤ b.d.id)) = true := by
    simp [h.act]
  have hsteps : (if a.sampled = true then some s else s.genSteps g a) = some s := by
    split
    · rfl
    · exact if_pos h.galley
  have hquoin : ∀ q, (s.modCore g fun k => k.modAct a.d.id fun x => { x with sampled := true }).quoin g q = s.quoin g q :=
    State.quoin_modCore fun _ => rfl
  simp only [State.completeDesc, hi, hlive, h.good, hmoved, hfirst, hsteps, h.first, h.link, h.region, Bool.false_or,
    Bool.true_eq_false, Bool.false_eq_true, or_self, Nat.zero_ne_one, false_and, if_true, if_false, State.quoinAdd, hquoin,
    State.cqValue]
  by_cases hop : a.op = 3
  · simp only [if_pos hop]
    rfl
  · simp only [if_neg hop]
    rfl

end

/-- R156 steps 8 and 9: the completion signals CQ and ends the descriptor. -/
theorem exec_descriptorComplete {g : CoreId} {s : State} {c : Nat} {a : Active} (h : XferDone s g c a) {i : Fin 16}
    (hi : (s.core g).act[i.val]? = some a) (hlive : s.xfeLive g = true) (hcq : dField a.d.words 6 47 38 ≠ 0) :
    ∃ u, exec (.descriptorComplete g i) s = .next u ∧ (u.core g).act = [] ∧ u.mem = s.mem ∧ u.regs = s.regs
      ∧ u.quoin g (dField a.d.words 6 47 38) = s.cqValue g a % 2 ^ 32 := by
  have hquoin := (s.modCore g fun k => k.sampled a.d.id).quoin_quoinSet_same g _ (s.cqValue g a) hcq
  obtain ⟨t, l, m, n, hcore⟩ :=
    (s.modCore g fun k => k.sampled a.d.id).core_quoinSet g (dField a.d.words 6 47 38) (s.cqValue g a)
  obtain ⟨k, d, hset⟩ :=
    (s.modCore g fun k => k.sampled a.d.id).quoinSet_frame g (dField a.d.words 6 47 38) (s.cqValue g a)
  have hexec : exec (.descriptorComplete g i) s = .next (s.completeDesc g i).flush := rfl
  rw [h.completeDesc hi hlive] at hexec
  generalize (s.modCore g fun k => k.sampled a.d.id).quoinSet g (dField a.d.words 6 47 38) (s.cqValue g a) = v at *
  have hact : ((v.modCore g fun k => k.unact a.d.id).core g).act = [] := by
    rw [State.core_modCore_same, hcore, State.core_modCore_same, Core.sampled, Core.modAct, h.act]
    simp [Core.unact]
  have hwaits : ((v.modCore g fun k => k.unact a.d.id).core g).waits = [] := by
    rw [State.core_modCore_same, hcore, State.core_modCore_same]
    exact h.waits
  have hpump : (v.modCore g fun k => k.unact a.d.id).pump g = v.modCore g fun k => k.unact a.d.id :=
    State.pump_rests (c := c) (by rw [hset]; exact h.occupant) hwaits (by rw [hact]; exact nofun) (by rw [hset]; exact h.streams)
  rw [hpump] at hexec
  refine ⟨_, hexec.trans (congrArg _ (State.flush_of_ended_nil (by rw [hset]; exact h.ended))), ?_, ?_, ?_, ?_⟩
  · rw [State.core_settle_same]; exact hact
  · rw [hset]; rfl
  · rw [hset]; rfl
  · rw [← hquoin, State.quoin, State.core_settle_same, ← State.quoin_modCore (f := fun k => k.unact a.d.id) fun _ => rfl]
    rfl

/-! ### The statement -/

theorem State.cqValue_lt (s : State) (g : Nat) (a : Active) : s.cqValue g a < 2 ^ 32 := by
  unfold State.cqValue
  split
  · exact bits_lt _ 31 0
  · unfold wrap; omega

/-- Settles O20: QSET and HINT start and do nothing beyond their words, and a completion signals CQ and ends its descriptor. -/
theorem qsetHintAndCompletion : Obligations.QsetHintAndCompletion := by
  unfold Obligations.QsetHintAndCompletion
  refine ⟨fun g s c d h hlive hgsrc hseq hnext => exec_qset h hlive hgsrc hseq hnext,
    fun g s c d h hlive hgsrc hseq hnext hd hop hreach => ?hint, fun g i s c a h hi hlive hcq => ?complete⟩
  case hint =>
    obtain ⟨u, hexec, hmem, hxq, hlines⟩ := exec_hint h hlive hgsrc hseq hnext hd hop hreach
    refine ⟨u, hexec, hmem, hxq, hlines.trans ?_⟩
    simp only [State.hintLines, State.die_modDie_same, State.active, Bool.decide_and]
    rfl
  case complete =>
    obtain ⟨u, hexec, hact, hmem, hregs, hquoin⟩ := exec_descriptorComplete h hi hlive hcq
    exact ⟨u, hexec, hact, hmem, hregs, hquoin.trans (Nat.mod_eq_of_lt (s.cqValue_lt g a))⟩

end Sys2Proof.Machine
end

section
/-!
PROOFS. A descriptor that is fetched again (R164): what the transfer engine's work on it leaves as it was.
-/

namespace Sys2Proof.Machine

/-! ### What the work on active descriptors leaves as it was -/

/-- Memory, its upsets, the ended requests, core `g`'s context and active descriptors and every context's streams are as they
were. -/
structure SameWork (g : Nat) (s u : State) : Prop where
  mem : u.mem = s.mem
  ecc : u.ecc = s.ecc
  ended : u.ended = s.ended
  occupant : u.occupant g = s.occupant g
  streams : ∀ c, (u.ctx c).streams = (s.ctx c).streams
  act : (u.core g).act = (s.core g).act

section
variable {g : Nat} {s t u : State}

theorem SameWork.refl (g : Nat) (s : State) : SameWork g s s := ⟨rfl, rfl, rfl, rfl, fun _ => rfl, rfl⟩

theorem SameWork.trans (h : SameWork g s t) (h' : SameWork g t u) : SameWork g s u where
  mem := h'.mem.trans h.mem
  ecc := h'.ecc.trans h.ecc
  ended := h'.ended.trans h.ended
  occupant := h'.occupant.trans h.occupant
  streams c := (h'.streams c).trans (h.streams c)
  act := h'.act.trans h.act

theorem SameWork.rset {o : Nat} (ho : R.CORE_RES g ≠ o) (v : Nat) : SameWork g s (s.rset o v) where
  mem := rfl
  ecc := rfl
  ended := rfl
  occupant := by
    rw [State.occupant, State.occupant, s.fget_rset_reg (p := F.CORE_RES_OCCUPIED g) ho,
      s.fget_rset_reg (p := F.CORE_RES_CTX g) ho]
  streams _ := rfl
  act := rfl

theorem SameWork.fset {f : Fld} (ho : R.CORE_RES g ≠ f.off) (v : Nat) : SameWork g s (s.fset f v) := .rset ho _

theorem SameWork.raise (code : Nat) (ctx : Option Nat) (unit : Nat) (data : List Nat) :
    SameWork g s (s.raise code ctx unit data) := by
  unfold State.raise
  split
  · exact ⟨rfl, rfl, rfl, rfl, fun _ => rfl, rfl⟩
  · exact (SameWork.fset (Elsewhere.ne_coreRes (.inl (by decide)) g) 1).trans
      (.fset (Elsewhere.ne_coreRes (.inl (by decide)) g) _)

theorem SameWork.modCtx (c : Nat) {f : Ctx → Ctx} (hf : ∀ k, (f k).streams = k.streams) : SameWork g s (s.modCtx c f) where
  mem := rfl
  ecc := rfl
  ended := rfl
  occupant := rfl
  streams d := by
    by_cases h : d = c
    · rw [h, State.ctx_modCtx_same, hf]
    · rw [s.ctx_modCtx_ne h]
  act := rfl

theorem SameWork.modDie (d : Nat) (f : Die → Die) : SameWork g s (s.modDie d f) := ⟨rfl, rfl, rfl, rfl, fun _ => rfl, rfl⟩

theorem SameWork.modCore {f : Core → Core} (hf : ∀ k, (f k).act = k.act) : SameWork g s (s.modCore g f) where
  mem := rfl
  ecc := rfl
  ended := rfl
  occupant := rfl
  streams _ := rfl
  act := by rw [State.core_modCore_same, hf]

theorem SameWork.ctxFault (c code h : Nat) : SameWork g s (s.ctxFault c code h) := by
  have hne : R.CORE_RES g ≠ R.CTX_FAULT c := Elsewhere.ne_coreRes (.inr (by simp)) g
  unfold State.ctxFault
  dsimp only
  split
  · exact .refl g s
  · exact (SameWork.fset hne 1).trans (.trans (.fset hne h) (.trans (.fset hne code) (.trans (.raise _ _ _ _)
      (.modCtx c fun _ => rfl))))

theorem SameWork.coreFault (h code : Nat) : SameWork g s (s.coreFault h code) := by
  unfold State.coreFault
  split
  · exact .refl g s
  · exact .ctxFault _ code h

/-- R158, R217: a window violation freezes the engine and faults its context, and leaves the rest. -/
theorem SameWork.xfeViolation : SameWork g s (s.xfeViolation g) := by
  have hne : R.CORE_RES g ≠ R.XFE_STAT g := by dsimp only [R.CORE_RES, R.XFE_STAT]; omega
  exact (SameWork.fset (f := F.XFE_STAT_FROZEN g) hne 1).trans
    (.trans (.raise 0x0420 ((s.fset (F.XFE_STAT_FROZEN g) 1).occupant g) g []) (.coreFault g 0x0420))

/-- R147: a lookup of lines without an upset changes the die cache alone. -/
theorem SameWork.dcRead (hs : s.ecc = .empty) (h c cls next a n : Nat) : SameWork g s (s.dcRead h c cls next a n).1 := by
  unfold State.dcRead
  split
  · exact .refl g s
  · refine foldl_rel (rel := fun p q : State × List Nat => p.1.ecc = .empty → SameWork g p.1 q.1) (fun _ _ => .refl g _)
      (fun hpq hqr hp => (hpq hp).trans (hqr ((hpq hp).ecc.trans hp))) (fun p x _ hp => ?_) (s, []) hs
    have hempty : p.1.ecc.entries.isEmpty = true := by rw [hp]; rfl
    dsimp only
    rw [if_pos hempty]
    split_ifs
    · exact .refl g _
    · dsimp only; exact .modDie _ _
    · exact .refl g _
    · dsimp only; exact .modDie _ _

/-- R161: a request that this module's memory serves takes a slot. -/
theorem SameWork.takeSlot (hs : s.ecc = .empty) {r : Req} (hk : r.kind = .copy ∨ r.kind = .zero) (c : Nat) (a : Active)
    (n : Nat) : SameWork g s (s.takeSlot g c r a n) := by
  rcases hk with hk | hk
  · simp only [State.takeSlot, hk, true_or, if_true]
    exact (SameWork.dcRead hs g c _ _ _ _).trans (.modCore fun _ => rfl)
  · simp only [State.takeSlot, hk, reduceCtorEq, false_and, or_self, if_false]
    exact .modCore fun _ => rfl

end

/-! ### A re-fetch at work (R164) -/

theorem State.nextReq_kind {s : State} {a : Active} {r : Req} {p : Nat × Nat} (hsrcRem : a.srcRem = false)
    (hdstRem : a.dstRem = false) (h : s.nextReq a = some (r, p)) : r.kind = .copy ∨ r.kind = .zero := by
  unfold State.nextReq at h
  dsimp only at h
  split at h
  · simp at h
  · simp only [Option.some.injEq, Prod.mk.injEq, hsrcRem, hdstRem, Bool.false_eq_true, if_false] at h
    rw [← h.1]
    dsimp only
    split
    · exact .inr rfl
    · exact .inl rfl

/-- Core `g` works for context `c` on the re-fetched descriptor `d` alone, over memory as it is in `s`. -/
structure Refetching (s : State) (g c : Nat) (d : Desc) (u : State) : Prop where
  mem : u.mem = s.mem
  ecc : u.ecc = .empty
  ended : u.ended = []
  occupant : u.occupant g = some c
  streams : (u.ctx c).streams = []
  act : ∃ a, (u.core g).act = [a] ∧ a.d = d ∧ a.refetch = true

section
variable {s t u : State} {g c : Nat} {d : Desc}

theorem SameWork.refetching (h : SameWork g t u) (ht : Refetching s g c d t) : Refetching s g c d u where
  mem := h.mem.trans ht.mem
  ecc := h.ecc.trans ht.ecc
  ended := h.ended.trans ht.ended
  occupant := h.occupant.trans ht.occupant
  streams := (h.streams c).trans ht.streams
  act := by rw [h.act]; exact ht.act

/-- The descriptor's place moves on. -/
theorem Refetching.past (h : Refetching s g c d t) (p : Nat × Nat) :
    Refetching s g c d (t.modCore g fun k => k.modAct d.id fun a => a.past p) where
  mem := h.mem
  ecc := h.ecc
  ended := h.ended
  occupant := h.occupant
  streams := h.streams
  act := by
    obtain ⟨a, hact, hd, hr⟩ := h.act
    refine ⟨a.past p, ?_, hd, hr⟩
    rw [State.core_modCore_same, Core.modAct, hact, List.map_singleton, if_pos (by rw [hd])]

variable (hgsrc : dField d.words 0 24 24 = 0) (hsrcRem : dField d.words 0 56 56 = 0) (hdstRem : dField d.words 0 55 55 = 0)
include hgsrc hsrcRem hdstRem

theorem Refetching.issueOne (h : Refetching s g c d t) : Refetching s g c d (t.issueOne g d.id).1 := by
  obtain ⟨a, hact, hd, hr⟩ := h.act
  have hfind : (t.core g).act.find? (fun x => x.d.id == d.id) = some a := by simp [hact, hd]
  have hsrcRem' : a.srcRem = false := by simp [Active.srcRem, hd, hsrcRem]
  have hdstRem' : a.dstRem = false := by simp [Active.dstRem, hd, hdstRem]
  unfold State.issueOne
  simp only [h.occupant, hfind]
  split
  · exact h
  · split
    · exact h
    next r p hreq =>
      split
      · exact h
      · split
        · exact SameWork.xfeViolation.refetching h
        · have hp := h.past p
          have hput : (t.modCore g fun k => k.modAct d.id fun _ => { a with row := p.1, pos := p.2 }) =
              t.modCore g fun k => k.modAct d.id fun a => a.past p := by
            simp [State.modCore, Core.modAct, hact, Active.past]
          rw [hput]
          split
          · have hkind : r.kind = .copy ∨ r.kind = .zero := t.nextReq_kind hsrcRem' hdstRem' hreq
            have hlast : ∀ v : State, v.lastIssued g (a.past p) = v := fun v => by
              simp [State.lastIssued, State.dropSource, State.chainNext, Active.past, Active.gsrc, hd, hgsrc, hr]
            refine SameWork.refetching ?_ hp
            dsimp only
            rw [← Active.past, hlast]
            exact .takeSlot hp.ecc hkind c _ _
          · refine SameWork.refetching ?_ hp
            dsimp only
            exact .modCore fun _ => rfl

/-- The pump issues what it can of the descriptor. -/
theorem Refetching.pumpFrom (h : Refetching s g c d t) (n : Nat) : Refetching s g c d (t.pumpFrom g n) := by
  induction n generalizing t with
  | zero => exact h
  | succ n ih =>
    obtain ⟨a, hact, hd, -⟩ := h.act
    have hone := h.issueOne hgsrc hsrcRem hdstRem
    rw [State.pumpFrom_single h.occupant hact (t := (t.issueOne g d.id).1) (b := (t.issueOne g d.id).2) (by rw [hd]) hone.streams]
    split
    · exact ih hone
    · exact hone

end

/-- The descriptor that a re-fetch of buffer `r` by core `g` starts, with words `l`. -/
def State.refetchDesc (s : State) (g : Nat) (r : Refetch) (l : List Nat) : Desc :=
  ⟨(s.core g).nextDesc, (s.core g).nextDesc, 8, r.fill.desc, l, true⟩

section
variable {s : State} {g : Nat}

/-- The words at LS offset `o` pass the checks of R152, R155 and R216. -/
theorem State.descRead_passes (hs : s.clean) {o : Nat} (ho : o + 64 ≤ 0x400000) (hlayout : s.lsOk g o 64 = true)
    (hlegal : descLegal g (s.descWords g o) = true) (howned : (descQuoins (s.descWords g o)).all (s.quoinOwned g) = true) :
    s.descRead g o = (s, true) := by
  have hall : (descQuoins (s.descWords g o)).any (fun q => !s.quoinOwned g q) = false := by
    rw [List.all_eq_true] at howned
    rw [List.any_eq_false]
    exact fun q hq => by simp [howned q hq]
  simp only [State.descRead, if_neg (Nat.not_lt.mpr ho), hlayout, hs.checkRead, hlegal, hall, Bool.true_eq_false,
    Bool.false_eq_true, if_false]

theorem exec_xfeRefetch {g : CoreId} {c : Nat} {r : Refetch} (h : XferIdle s g c) (hlive : s.xfeLive g = true) (hs : s.clean)
    (hwait : (s.core g).refetch = [r]) (hopen : r.done = false) (heven : s.quoin g r.fill.gq % 2 = 0)
    (hread : s.descRead g r.fill.desc = (s, true)) {l : List Nat} (hl : s.descWords g r.fill.desc = l)
    (hgsrc : dField l 0 24 24 = 0) (hsum : dField l 0 54 52 = 0) (hsrcRem : dField l 0 56 56 = 0) (hdstRem : dField l 0 55 55 = 0)
    (hop : dField l 0 63 60 = 1 ∨ dField l 0 63 60 = 2) :
    ∃ u, exec (.xfeRefetch g) s = .next u ∧ Refetching s g c (s.refetchDesc g r l) u := by
  let w := s.modCore g fun k => { k with nextDesc := k.nextDesc + 1 }
  let a := w.active g (s.refetchDesc g r l) (dField l 3 45 30 + 1) true
  have hnext : (s.core g).refetch.find? (fun r => !r.done && s.quoin g r.fill.gq % 2 == 0
      && (s.core g).act.all fun a => !(a.refetch && a.d.addr == r.fill.desc)) = some r := by
    simp [hwait, hopen, heven, h.act]
  have hstart : s.canStart g l = true := by simp [State.canStart, hgsrc]
  have hrefetch : s.startRefetch g = (w.modCore g fun k => k.withAct a).pump g := by
    simp only [State.startRefetch, hlive, hnext, hread, hl, hstart, Bool.true_eq_false, if_false]
    exact State.startDesc_moves (d := s.refetchDesc g r l) hgsrc hop hsum (.inr rfl)
  have hlive' : (w.modCore g fun k => k.withAct a).xfeLive g = true :=
    ((State.xfeLive_modCore fun k => by rfl).trans (State.xfeLive_modCore fun k => by rfl)).trans hlive
  have hbegin : Refetching s g c (s.refetchDesc g r l) (w.modCore g fun k => k.withAct a) := by
    refine ⟨rfl, hs.1, h.ended, h.occupant, h.streams, a, ?_, rfl, rfl⟩
    rw [State.core_modCore_same, State.core_modCore_same, Core.withAct, h.act]
    rfl
  have hwaits : ((w.modCore g fun k => k.withAct a).core g).waits = [] := by
    rw [State.core_modCore_same, State.core_modCore_same]
    exact h.waits
  have hdone := hbegin.pumpFrom hgsrc hsrcRem hdstRem 64
  rw [← State.pump_live hlive' hwaits, ← hrefetch] at hdone
  exact ⟨_, congrArg Host.Outcome.next (State.flush_of_ended_nil hdone.ended), hdone⟩

end

end Sys2Proof.Machine
end

section
/-!
PROOFS. Members of a chain (R157), requests that age and banks that serve nothing (Table 5-8), and the statement
ChainsRefetchesAndAging.
-/

namespace Sys2Proof.Machine

/-! ### The next of a chain (R157) -/

/-- The core without chain member `d` among those that wait. -/
def Core.unchain (k : Core) (d : Desc) : Core := { k with chainWait := k.chainWait.erase d }

theorem exec_descriptorChainNext_qset {g : CoreId} {s : State} {c : Nat} {d : Desc} (h : XferQuiet s g c)
    (hlive : s.xfeLive g = true) (hwait : (s.core g).chainWait = [d]) (hread : d.words ≠ []) (hready : d.ready = true)
    (hop : dField d.words 0 63 60 = 3) (hgsrc : dField d.words 0 24 24 = 0) (hseq : dField d.words 0 25 25 = 0)
    (hnext : dField d.words 7 21 6 = 0) : ∃ u a, exec (.descriptorChainNext g) s = .next u ∧ (u.core g).chainWait = []
      ∧ (u.core g).act = [a] ∧ a.d = d ∧ OnlyCore s u g := by
  have hfind : (s.core g).chainWait.find? (fun d => !d.words.isEmpty && d.ready && s.canStart g d.words) = some d := by
    simp [hwait, hread, hready, State.canStart, hgsrc]
  have hquiet : XferQuiet (s.modCore g fun k => k.unchain d) g c := h.modCore fun _ => ⟨rfl, rfl, rfl⟩
  have hstart : s.startChained g = (s.modCore g fun k => k.unchain d).startDesc g d false := by
    simp only [State.startChained, hlive, hfind, Bool.true_eq_false, if_false]
    rfl
  have hexec : exec (.descriptorChainNext g) s = .next (s.startChained g).flush := rfl
  rw [hstart, hquiet.startDesc_qset hgsrc hop hseq hnext, State.modCore_modCore,
    State.flush_of_ended_nil (s := s.modCore g _) h.ended] at hexec
  refine ⟨_, (s.modCore g fun k => k.unchain d).active g d 0 false, hexec, ?_, ?_, rfl, .modCore s g _⟩
  · rw [State.core_modCore_same, Core.withAct, Core.unchain, hwait]; simp
  · rw [State.core_modCore_same, Core.withAct, Core.unchain, h.act]; rfl

/-! ### Requests that age (Table 5-8) -/

theorem exec_requestAged {g : CoreId} {i : Fin 48} {s : State} {x : Slot} (hx : (s.core g).slots[i.val]? = some x)
    (hlate : x.since + 4 < s.timeUs) (hyoung : x.aged = false) : ∃ u, exec (.requestAged g i) s = .next u
      ∧ (u.core g).slots = listSet (s.core g).slots i { x with aged := true } ∧ u.fget (F.XFE_STAT_AGED_SEEN g) = 1
      ∧ u.mem = s.mem := by
  have hexec : exec (.requestAged g i) s = .next ((s.modCore g fun k =>
      { k with slots := listSet k.slots i { x with aged := true } }).fset (F.XFE_STAT_AGED_SEEN g) 1) := by
    refine congrArg Host.Outcome.next ?_
    simp only [hx, hlate, hyoung, and_self, if_true]
  refine ⟨_, hexec, ?_, State.fget_fset_self _ (by decide) (by decide), rfl⟩
  rw [State.fset_core', State.core_modCore_same]

/-! ### Banks that serve nothing (Table 5-8) -/

section
variable {s : State} {b : Nat}

theorem State.bankOverdue_none : s.bankOverdue 0x20000 = s := by
  unfold State.bankOverdue
  exact if_neg fun h => h.1 rfl

/-- A bank recorded at this instant is not recorded again. -/
theorem State.bankOverdue_recorded (h : s.lastEvent.find (2 ^ 40 + b) = some s.timeUs) : s.bankOverdue b = s := by
  unfold State.bankOverdue
  dsimp only
  rw [h]
  exact if_neg fun h => by simpa using h.2

/-- The instant at which bank `b` is recorded. -/
def State.withBankEvent (s : State) (b : Nat) : State := { s with lastEvent := s.lastEvent.set (2 ^ 40 + b) s.timeUs }

theorem State.bankOverdue_first (hb : b ≠ 0x20000) (h : s.lastEvent.find (2 ^ 40 + b) = none) :
    s.bankOverdue b = (s.withBankEvent b).bankDegraded b := by
  unfold State.bankOverdue
  dsimp only
  rw [h]
  exact if_pos ⟨hb, rfl⟩

/-- A field reads as the value it was set to, cut to its width. -/
theorem State.fget_fset_cut (s : State) {off hi lo : Nat} (v : Nat) (h : lo ≤ hi ∧ hi < 32) :
    (s.fset ⟨off, hi, lo⟩ v).fget ⟨off, hi, lo⟩ = v % 2 ^ (hi - lo + 1) :=
  s.fget_fset_same ⟨off, hi, lo⟩ v h.1 h.2

/-- HBM bank `b`, or LPDDR5X bank `b` - 0x10000, shown in the register of its stack or device. -/
def State.bankShown (s : State) (b : Nat) : State :=
  if b < 0x10000 then
    ((s.fadd (F.HBM_BANK_DEG_DEG_CNT (b / 512 / 3) (b / 512 % 3)) 1).fset (F.HBM_BANK_DEG_PC (b / 512 / 3) (b / 512 % 3)) (b / 16)).fset
      (F.HBM_BANK_DEG_BANK (b / 512 / 3) (b / 512 % 3)) b
  else
    (s.fadd (F.LPX_BANK_DEG_DEG_CNT ((b - 0x10000) / 16 / 8) ((b - 0x10000) / 16 % 8)) 1).fset
      (F.LPX_BANK_DEG_BANK ((b - 0x10000) / 16 / 8) ((b - 0x10000) / 16 % 8)) b

theorem State.bankDegraded_eq : s.bankDegraded b =
    (s.bankShown b).raise 0x0305 none (if b < 0x10000 then b / 512 else 0x100 + (b - 0x10000) / 16) [] := by
  unfold State.bankDegraded State.bankShown
  split
  · rfl
  · rfl

theorem State.bankShown_frame : s.bankShown b = { s with regs := (s.bankShown b).regs } := by
  unfold State.bankShown
  split
  · rfl
  · rfl

theorem State.bankShown_hbm (h : b < 0x10000) : Bumped s (s.bankShown b) (F.HBM_BANK_DEG_DEG_CNT (b / 512 / 3) (b / 512 % 3))
    ∧ (s.bankShown b).fget (F.HBM_BANK_DEG_BANK (b / 512 / 3) (b / 512 % 3)) = b % 16
    ∧ (s.bankShown b).fget (F.HBM_BANK_DEG_PC (b / 512 / 3) (b / 512 % 3)) = b / 16 % 32 := by
  rw [State.bankShown, if_pos h]
  refine ⟨?_, State.fget_fset_cut _ b (by decide), ?_⟩
  · rw [Bumped, State.fget_fset_apart _ _ (by decide), State.fget_fset_apart _ _ (by decide), State.fget_fadd_self _ _ (by decide)]
  · rw [State.fget_fset_apart _ _ (by decide)]
    exact State.fget_fset_cut _ (b / 16) (by decide)

theorem State.bankShown_lpx (h : 0x10000 ≤ b) :
    Bumped s (s.bankShown b) (F.LPX_BANK_DEG_DEG_CNT ((b - 0x10000) / 16 / 8) ((b - 0x10000) / 16 % 8))
    ∧ (s.bankShown b).fget (F.LPX_BANK_DEG_BANK ((b - 0x10000) / 16 / 8) ((b - 0x10000) / 16 % 8)) = b % 16 := by
  rw [State.bankShown, if_neg (Nat.not_lt.mpr h)]
  refine ⟨?_, State.fget_fset_cut _ b (by decide)⟩
  rw [Bumped, State.fget_fset_apart _ _ (by decide), State.fget_fadd_self _ _ (by decide)]

end

section
variable {g : CoreId} {i : Fin 48} {s : State} {x : Slot} {q : Nat} (hx : (s.core g).slots[i.val]? = some x)
  (hq : x.queued = some q) (hlate : q + 100 < s.timeUs) (hlocal : x.req.kind.isLocal = true) (hbank : x.req.bank ≠ 0x20000)
  (hother : x.req.bank2 = 0x20000 ∨ x.req.bank2 = x.req.bank) (hfirst : s.lastEvent.find (2 ^ 40 + x.req.bank) = none)
  (hroom : s.eventRoom 1)
include hx hq hlate hlocal hbank hother hfirst hroom

/-- Table 5-8: the bank of a request that is not served is shown once, with event 0x0305. -/
theorem exec_memBankDegraded : exec (.memBankDegraded g i) s =
    .next (((s.withBankEvent x.req.bank).bankShown x.req.bank).raise 0x0305 none
      (if x.req.bank < 0x10000 then x.req.bank / 512 else 0x100 + (x.req.bank - 0x10000) / 16) []) := by
  have hgo : (x.queued.map (· + 100)).getD s.timeUs < s.timeUs ∧ x.req.kind.isLocal = true := ⟨by simpa [hq] using hlate, hlocal⟩
  refine congrArg Host.Outcome.next ?_
  simp only [State.memBankDegraded, hx, if_pos hgo, List.foldl_cons, List.foldl_nil, State.bankOverdue_first hbank hfirst]
  rw [State.bankDegraded_eq]
  rcases hother with h | h
  · rw [h, State.bankOverdue_none]
  · rw [h, State.raise_of_room (by rw [State.bankShown_frame]; exact hroom)]
    refine State.bankOverdue_recorded ?_
    rw [State.bankShown_frame]
    exact Tbl.find_set_same ..

end

/-! ### The statement -/

/-- Settles O22: a chain member at its turn starts, a failed buffer is fetched again, and requests that wait are aged and their
banks recorded. -/
theorem chainsRefetchesAndAging : Obligations.ChainsRefetchesAndAging := by
  unfold Obligations.ChainsRefetchesAndAging
  refine ⟨fun g s c d h hlive hwait hread hready hop hgsrc hseq hnext =>
      exec_descriptorChainNext_qset h hlive hwait hread hready hop hgsrc hseq hnext,
    fun g s c r h hlive hs hwait hopen heven ho hlayout hlegal howned hgsrc hsum hsrcRem hdstRem hop => ?refetch,
    fun g i s x hx => ⟨fun hlate hyoung => exec_requestAged hx hlate hyoung,
      fun q hq hlate hlocal hbank hother hfirst hroom => ?degraded⟩⟩
  case refetch =>
    obtain ⟨u, hexec, hu⟩ := exec_xfeRefetch h hlive hs hwait hopen heven (State.descRead_passes hs ho hlayout hlegal howned) rfl
      hgsrc hsum hsrcRem hdstRem hop
    obtain ⟨a, hact, hd, hr⟩ := hu.act
    exact ⟨u, a, hexec, hact, hr, by rw [hd]; rfl, by rw [hd]; rfl, hu.mem⟩
  case degraded =>
    have hexec := exec_memBankDegraded hx hq hlate hlocal hbank hother hfirst hroom
    rw [State.bankShown_frame, State.raise_of_room (by exact hroom)] at hexec
    refine ⟨_, _, hexec, rfl, rfl, rfl, fun h => ?hbm, fun b hb h => ?lpx⟩
    case hbm =>
      have hlow : x.req.bank < 0x10000 := Nat.lt_trans h (by decide)
      exact ⟨if_pos hlow, State.bankShown_hbm hlow⟩
    case lpx =>
      have hhigh : 0x10000 ≤ x.req.bank := by omega
      have hsub : x.req.bank - 0x10000 = b := by omega
      have hshown := State.bankShown_lpx (s := s.withBankEvent x.req.bank) hhigh
      rw [hsub] at hshown
      exact ⟨(if_neg (Nat.not_lt.mpr hhigh)).trans (by rw [hsub]), hshown.1, hshown.2.trans (by omega)⟩

end Sys2Proof.Machine
end

section
/-!
PROOFS. Requests that land (R156 step 4, R161): the source's check and fills, the bytes written, the slot freed, and the
statement LandedRequestWritesItsBytes.
-/

namespace Sys2Proof.Machine

/-! ### The source of a request without an upset (R145, R166) -/

section
variable {s : State}

theorem State.clean.checkSource (hs : s.clean) (hit : List Nat) (a n : Nat) (c : Option Nat) :
    s.checkSource hit a n c = (s, true) := by
  simp [State.checkSource, State.checkWords, State.eccHits_clean hs.1, State.segBad_clean hs.2, State.misaddressed]

/-- Without an upset a fresh line of a die cache drops none. -/
theorem State.dcFresh_clean (hs : s.ecc = .empty) (d way set : Nat) : s.dcFresh d way set = s := by
  have hdrop : s.ecc.dropIf (fun a => sramOf a == some (.line d way set)) = s.ecc := by rw [hs]; rfl
  rw [State.dcFresh, hdrop]

/-- R145: fills that end change the die caches alone. -/
theorem State.dcFill_frame (hs : s.ecc = .empty) (g a n : Nat) : ∃ d, s.dcFill g a n = { s with dies := d } := by
  unfold State.dcFill
  split
  · exact ⟨_, rfl⟩
  · refine foldl_rel (rel := fun s u : State => s.ecc = .empty → ∃ d, u = { s with dies := d }) (fun _ _ => ⟨_, rfl⟩)
      (fun hst htu hs => ?_) (fun s x _ hs => ?_) s hs
    · obtain ⟨d, rfl⟩ := hst hs
      obtain ⟨e, rfl⟩ := htu hs
      exact ⟨e, rfl⟩
    · dsimp only
      split
      · exact ⟨_, rfl⟩
      · split
        · exact ⟨_, rfl⟩
        · split
          · exact ⟨_, rfl⟩
          · rw [State.dcFresh_clean (by exact hs)]
            exact ⟨_, rfl⟩

/-! ### The bytes written (R453, R74) -/

theorem State.clearSums_none {g : Nat} (h : (s.core g).sums = []) (off n : Nat) :
    s.clearSums g off n = s.setCore g (s.core g) := by
  have hcore : { s.core g with sums := [] } = s.core g := by rw [← h]
  simp only [State.clearSums, h, List.filter_nil, List.foldl_nil, hcore]

theorem State.core_setCore_self (s : State) (g h : Nat) : (s.setCore g (s.core g)).core h = s.core h := by
  by_cases hn : h = g
  · rw [hn, State.core_setCore_same]
  · rw [s.core_setCore_ne hn]

/-- Bytes landed where no upset and no sum block stands are all stored, and no core differs. -/
theorem State.landBytes_clean (hs : s.clean) {a : Nat} (hsums : ∀ g, place a = .oc g → (s.core g).sums = []) (l : List Byte)
    (c : Option Nat) : ∃ d k, s.landBytes a l c = ({ s with mem := memPutList s.mem a l, dies := d, cores := k }, true)
      ∧ ∀ h, State.core { s with cores := k } h = s.core h := by
  obtain ⟨hwhole, hmem⟩ := State.memWrite_clean hs.1 hs.2 a l c
  obtain ⟨m, d, hwrite⟩ := State.memWrite_clean_frame hs a l c
  have hm : m = memPutList s.mem a l := by rw [hwrite] at hmem; exact hmem
  subst hm
  have hpair : s.memWrite a l c = ({ s with mem := memPutList s.mem a l, dies := d }, true) := Prod.ext hwrite hwhole
  unfold State.landBytes
  rw [hpair]
  dsimp only
  split
  next g hplace =>
    rw [State.clearSums_none (by exact hsums g hplace)]
    exact ⟨d, _, rfl, fun h => s.core_setCore_self g h⟩
  · exact ⟨d, _, rfl, fun h => rfl⟩

/-! ### A slot freed (R157, Table 5-8) -/

theorem State.admitQueue_frame (s : State) : ∃ k, s.admitQueue = { s with cores := k } := by
  unfold State.admitQueue
  dsimp only
  split
  · exact ⟨_, rfl⟩
  · exact ⟨_, rfl⟩

/-- Table 5-8: the entry of a held request into its queue changes the slots of its core. -/
theorem State.core_admitQueue (s : State) (g : Nat) : ∃ f : Slot → Slot,
    s.admitQueue.core g = { s.core g with slots := (s.core g).slots.map f } := by
  have hid : s.core g = { s.core g with slots := (s.core g).slots.map id } := by rw [List.map_id]
  unfold State.admitQueue
  dsimp only
  split
  · exact ⟨id, hid⟩
  next h r _ =>
    by_cases hn : g = (r.foldl (fun a b => if b.2.since < a.2.since then b else a) h).1
    · rw [← hn, State.core_modCore_same]
      exact ⟨_, rfl⟩
    · rw [State.core_modCore_ne _ hn]
      exact ⟨id, hid⟩

section
variable {g c : Nat} {a : Active} (hact : (s.core g).act = [a])
include hact

theorem State.finishMove_plain {id : Nat} (hid : a.d.id = id) (hsum : dField a.d.words 0 54 52 = 0) : s.finishMove g id = s := by
  have hfind : (s.core g).act.find? (fun x => x.d.id == id) = some a := by simp [hact, hid]
  simp only [State.finishMove, hfind, hsum, true_or, if_true]

theorem State.endFailedAll_good (hgood : a.failed = false) : s.endFailedAll g = s := by
  simp only [State.endFailedAll, hact, List.foldl_cons, List.foldl_nil, State.endFailed, List.find?_cons, beq_self_eq_true,
    hgood, true_or, if_true]

/-- The core's only slot is freed, and its only active descriptor has nothing more to issue. -/
theorem State.freeSlot_last {x : Slot} (hocc : s.occupant g = some c) (hstreams : (s.ctx c).streams = [])
    (hissued : a.issued = true) (hgood : a.failed = false) (hsum : dField a.d.words 0 54 52 = 0) (hid : a.d.id = x.req.desc)
    (hslots : (s.core g).slots = [x]) (hwaits : (s.core g).waits = []) :
    ∃ k, s.freeSlot g x = { s with cores := k } ∧ ((s.freeSlot g x).core g).slots = [] := by
  let w := s.modCore g fun k => { k with slots := k.slots.filter fun y => !(y == x), xfeAt := s.timeUs }
  obtain ⟨k, hframe⟩ := w.admitQueue_frame
  obtain ⟨f, hcore⟩ := w.core_admitQueue g
  have hact' : (w.admitQueue.core g).act = [a] := by rw [hcore, State.core_modCore_same]; exact hact
  have hslots' : (w.admitQueue.core g).slots = [] := by rw [hcore, State.core_modCore_same, hslots]; simp
  have hwaits' : (w.admitQueue.core g).waits = [] := by rw [hcore, State.core_modCore_same]; exact hwaits
  have hpump : w.admitQueue.pump g = w.admitQueue := by
    refine State.pump_rests (c := c) (by rw [hframe]; exact hocc) hwaits' (fun b hb => ?_) (by rw [hframe]; exact hstreams)
    rw [hact', List.mem_singleton] at hb
    exact hb ▸ hissued
  have hfree : s.freeSlot g x = w.admitQueue.settle g := by
    rw [State.freeSlot, State.finishMove_plain hact' hid hsum, State.endFailedAll_good hact' hgood, hpump]
  rw [hfree]
  refine ⟨(w.admitQueue.settle g).cores, ?_, by rw [State.core_settle_same]; exact hslots'⟩
  rw [State.settle_eq, hframe]
  rfl

end

/-! ### A landing (R161) -/

/-- A request of a descriptor lands where no upset and no sum block stands: its bytes are stored, and beside the memory the
caches, the cores and the bridges' instants alone differ. -/
theorem State.landReq_clean {g c : Nat} {x : Slot} (hs : s.clean)
    (hsums : ∀ h, place x.req.dst = .oc h → (s.core h).sums = []) (hdesc : x.req.desc < streamDesc)
    (hkind : x.req.kind = .copy ∨ x.req.kind = .zero) :
    ∃ d k b, s.landReq g c x =
        State.freeSlot { s with mem := memPutList s.mem x.req.dst x.data, dies := d, cores := k, bridgeAt := b } g x
      ∧ ∀ h, State.core { s with cores := k } h = s.core h := by
  have hland : ∀ d b, ∃ d' k, State.landBytes { s with dies := d, bridgeAt := b } x.req.dst x.data (some c) =
      ({ s with mem := memPutList s.mem x.req.dst x.data, dies := d', cores := k, bridgeAt := b }, true)
      ∧ ∀ h, State.core { s with cores := k } h = s.core h := fun d b =>
    State.landBytes_clean (s := { s with dies := d, bridgeAt := b }) hs hsums x.data (some c)
  rcases hkind with hk | hk
  · obtain ⟨d, hfill⟩ := State.dcFill_frame hs.1 g x.req.src x.req.len
    let v := ((s.dcFill g x.req.src x.req.len).crossed (some c) (homeDie x.req.src) (some (g / 32))).crossed (some c)
      (some (g / 32)) (homeDie x.req.dst)
    have hv : v = { s with dies := d, bridgeAt := v.bridgeAt } := by simp only [v, hfill, State.crossed]
    obtain ⟨d', k, hbytes, hcore⟩ := hland d v.bridgeAt
    rw [← hv] at hbytes
    refine ⟨d', k, v.bridgeAt, ?_, hcore⟩
    simp only [State.landReq, hk, hs.checkSource, hdesc, Bool.true_eq_false, if_true, if_false]
    rw [hbytes]
    rfl
  · let v := s.crossed (some c) (some (g / 32)) (homeDie x.req.dst)
    obtain ⟨d', k, hbytes, hcore⟩ : ∃ d' k, v.landBytes x.req.dst x.data (some c) = _ ∧ _ := hland s.dies v.bridgeAt
    refine ⟨d', k, v.bridgeAt, ?_, hcore⟩
    simp only [State.landReq, hk, hdesc, reduceCtorEq, Bool.true_eq_false, if_true, if_false]
    rw [hbytes]
    rfl

/-! ### The statement -/

theorem exec_requestLanded {g : CoreId} {i : Fin 48} {c : Nat} {x : Slot} (hocc : s.occupant g = some c)
    (hlive : s.xfeLive g = true) (hslot : (s.core g).slots[i.val]? = some x)
    (hkind : x.req.kind = .copy ∨ x.req.kind = .zero) (hqueued : x.queued.isSome = true) (hfirst : s.heldBehind x = false)
    (hbank : s.bankStopped x.req.bank = false) (hbank2 : s.bankStopped x.req.bank2 = false) :
    exec (.requestLanded g i) s = .next (s.landReq g c x).flush := by
  have hlocal : x.req.kind.isLocal = true := by rcases hkind with h | h <;> rw [h] <;> rfl
  refine congrArg Host.Outcome.next ?_
  simp only [State.requestLanded, hocc, hslot, hlive, hlocal, hqueued, hfirst, hbank, hbank2, and_self, if_true]

end

theorem bytes_memPutList {m : List Host.Cell} (hm : Memory.wf m = true) (a : Nat) (l : List Byte) :
    ((List.range l.length).map fun i => memGet (memPutList m a l) (a + i)) = l := by
  refine List.ext_getElem (by simp) fun i h h' => ?_
  rw [List.getElem_map, List.getElem_range, memGet_memPutList l hm, if_pos (by omega), Nat.add_sub_cancel_left,
    List.getD_eq_getElem _ _ h']

/-- Settles O21: the bytes of the request that lands are stored, and no others differ; its slot is free. -/
theorem landedRequestWritesItsBytes : Obligations.LandedRequestWritesItsBytes := by
  unfold Obligations.LandedRequestWritesItsBytes
  intro g i s c a x hocc hlive hs hmem hended hstreams hslots hi hqueued hact hwaits hsums hgood hdone hid hdesc hsum hlen hkind
    hfirst hbank hbank2
  obtain ⟨d, k, b, hland, hcore⟩ := State.landReq_clean (g := g) (c := c) hs hsums hdesc hkind
  obtain ⟨k', hfree, hfreed⟩ := State.freeSlot_last (x := x)
    (s := { s with mem := memPutList s.mem x.req.dst x.data, dies := d, cores := k, bridgeAt := b })
    ((congrArg Core.act (hcore g)).trans hact) hocc hstreams (decide_eq_true hdone) hgood hsum hid
    ((congrArg Core.slots (hcore g)).trans hslots) ((congrArg Core.waits (hcore g)).trans hwaits)
  have hexec := exec_requestLanded hocc hlive (i := i) (by rw [hslots, hi]; rfl) hkind hqueued hfirst hbank hbank2
  rw [hland, State.flush_of_ended_nil (by rw [hfree]; exact hended)] at hexec
  refine ⟨_, hexec, ?_, fun y hy => ?_, hfreed, ?_⟩
  · rw [hfree, ← hlen]
    exact bytes_memPutList hmem _ _
  · rw [hfree]
    exact (memGet_memPutList x.data hmem _ y).trans (if_neg (by omega))
  · rw [hfree]
    exact memPutList_wf hmem _ _

end Sys2Proof.Machine
end

section
/-!
PROOFS. The scrubbers (R143, R166 to R168), and the statement ScrubbersCorrectOrRecord.
-/

namespace Sys2Proof.Machine

/-! ### Events of the scrubbers -/

theorem State.raise_codes {s : State} (h : s.eventRoom 1) (code : Nat) (ctx : Option Nat) (unit : Nat) (data : List Nat) :
    (s.raise code ctx unit data).evq.map (·.code) = s.evq.map (·.code) ++ [code] := by
  rw [State.raise_of_room h, List.map_append]
  rfl

/-- An event may be raised, and its instant noted; nothing else differs but the drop registers. -/
theorem OnlyRegsEvents.raiseEvery (s : State) (period code : Nat) (ctx : Option Nat) (unit : Nat) (data : List Nat) :
    OnlyRegsEvents s (s.raiseEvery period code ctx unit data) := by
  have hnote : OnlyRegsEvents s { s with lastEvent := s.lastEvent.set (code * 65536 + unit) s.timeUs } := rfl
  unfold State.raiseEvery
  dsimp only
  split
  · split
    · exact hnote.raise ..
    · exact .refl s
  · exact hnote.raise ..

theorem State.fget_raiseEvery (s : State) {p : Fld} (h : p.Apart F.MGT_PLANE_STAT_EVQ_OVF) (h' : p.Apart F.MGT_EVQ_DROP_DROP_COUNT)
    (period code : Nat) (ctx : Option Nat) (unit : Nat) (data : List Nat) :
    (s.raiseEvery period code ctx unit data).fget p = s.fget p := by
  unfold State.raiseEvery
  dsimp only
  split
  · split
    · exact State.fget_raise _ h h' ..
    · rfl
  · exact State.fget_raise _ h h' ..

section
variable {s u : State} (h : OnlyRegsEvents s u)
include h

theorem OnlyRegsEvents.mem : u.mem = s.mem := by rw [h]

theorem OnlyRegsEvents.ecc : u.ecc = s.ecc := by rw [h]

end

/-! ### Words corrected (R166) -/

section
variable {s : State} {a : Nat}

/-- A counter above the management registers reads as raised by one past an event. -/
theorem bumped_raiseEvery {t : State} {off hi lo : Nat} (ho : 0x1000 ≤ off) (hw : lo ≤ hi ∧ hi < 32)
    (ht : t.fget ⟨off, hi, lo⟩ = s.fget ⟨off, hi, lo⟩) (period code unit : Nat) :
    Bumped s ((t.fadd ⟨off, hi, lo⟩ 1).raiseEvery period code none unit []) ⟨off, hi, lo⟩ := by
  rw [Bumped, State.fget_raiseEvery _ (Fld.apart_of_low hw.1 ho (by decide)) (Fld.apart_of_low hw.1 ho (by decide)),
    t.fget_fadd_self 1 hw, ht]

theorem State.corrected_frame : OnlyRegsEvents { s with ecc := s.ecc.erase a } (s.corrected a) := by
  unfold State.corrected
  dsimp only
  split
  · exact ((OnlyRegsEvents.refl _).fadd _ 1).trans (.raiseEvery ..)
  · exact ((OnlyRegsEvents.refl _).fadd _ 1).trans (.raiseEvery ..)
  · split
    · exact ((OnlyRegsEvents.refl _).fadd _ 1).trans (.raiseEvery ..)
    · exact .refl _

theorem State.corrected_hbm {d : Nat} (h : place a = .hbm d) :
    Bumped s (s.corrected a) (F.HBM_ECC_CNT_CE_CNT d ((s.hbmBank a).1 % 3)) := by
  simp only [State.corrected, h]
  exact bumped_raiseEvery (by dsimp only [R.HBM_ECC_CNT, dieBase]; omega) (by decide) rfl _ _ _

theorem State.corrected_lpx {e : Nat} (h : place a = .lpx e) :
    Bumped s (s.corrected a) (F.LPX_ECC_CNT_CE_CNT e ((s.lpxSeg a).1 % 8)) := by
  simp only [State.corrected, h]
  exact bumped_raiseEvery (by dsimp only [R.LPX_ECC_CNT, edgeBase]; omega) (by decide) rfl _ _ _

theorem State.corrected_sram {w : Sram} (hm : isMem a = false) (hw : sramOf a = some w) :
    Bumped s (s.corrected a) (F.DC_ECC_CNT_CE_CNT w.die) := by
  unfold isMem at hm
  unfold State.corrected
  cases hp : place a with
  | hbm d => simp [hp] at hm
  | lpx e => simp [hp] at hm
  | _ =>
    simp only [hw]
    exact bumped_raiseEvery (by dsimp only [R.DC_ECC_CNT, dieBase]; omega) (by decide) rfl _ _ _

end

/-! ### Blocks that cannot be corrected (R143, R167) -/

/-- The block at `b` counted in the register at `cnt`, and shown at `lo` and `hi` as one that a scrubber met. -/
def State.blockShown (s : State) (cnt lo hi b : Nat) : State :=
  ((((s.fadd ⟨cnt, 31, 24⟩ 1).rset lo (b % 2 ^ 32)).fset ⟨hi, 15, 0⟩ (b / 2 ^ 32)).fset ⟨hi, 31, 31⟩ 1).fset ⟨hi, 30, 30⟩ 1

/-- The count at `cnt` has been raised by one, and the block at `b` is shown at `lo` and `hi` as one that a scrubber met. -/
def ShowsBlock (s u : State) (cnt lo hi b : Nat) : Prop :=
  Bumped s u ⟨cnt, 31, 24⟩ ∧ u.fget ⟨hi, 31, 31⟩ = 1 ∧ u.fget ⟨hi, 30, 30⟩ = 1 ∧ u.rget lo = b % 2 ^ 32

/-- The count of wrong tags (R143) lies below bit 24 of its register. -/
theorem State.fget_countTag (s : State) (e k : Nat) {off hi lo : Nat} (h : 23 < lo ∧ lo ≤ hi) :
    (s.fadd (F.LPX_ECC_CNT_TAG_CNT e k) 1).fget ⟨off, hi, lo⟩ = s.fget ⟨off, hi, lo⟩ :=
  s.fget_fadd_of_apart ⟨by dsimp only; omega, by dsimp only; omega, h.2, .inr (.inr h.1)⟩ 1

section
variable {s u v : State} {cnt lo hi b : Nat}

theorem ShowsBlock.of_regs (h : ShowsBlock s u cnt lo hi b) (hr : v.regs = u.regs) : ShowsBlock s v cnt lo hi b := by
  rw [ShowsBlock, Bumped, State.fget_of_regs hr, State.fget_of_regs hr, State.fget_of_regs hr, State.rget_of_regs hr]
  exact h

theorem ShowsBlock.countTag (h : ShowsBlock s u cnt lo hi b) {e k : Nat} (hlo : lo ≠ R.LPX_ECC_CNT e k) :
    ShowsBlock s (u.fadd (F.LPX_ECC_CNT_TAG_CNT e k) 1) cnt lo hi b := by
  rw [ShowsBlock, Bumped, State.fget_countTag _ _ _ (by decide), State.fget_countTag _ _ _ (by decide),
    State.fget_countTag _ _ _ (by decide), State.rget_fadd_ne _ hlo]
  exact h

theorem State.blockShown_shows (h : lo ≠ cnt ∧ hi ≠ cnt ∧ hi ≠ lo) (b : Nat) :
    ShowsBlock s (s.blockShown cnt lo hi b) cnt lo hi b := by
  obtain ⟨hlo, hhi, hne⟩ := h
  refine ⟨?_, ?_, State.fget_fset_self _ (by decide) (by decide), ?_⟩
  · simp only [Bumped, State.blockShown]
    rw [State.fget_fset_reg _ hhi.symm, State.fget_fset_reg _ hhi.symm, State.fget_fset_reg _ hhi.symm,
      State.fget_rset_reg _ hlo.symm, State.fget_fadd_self _ _ (by decide)]
  · rw [State.blockShown, State.fget_fset_apart _ _ (by decide), State.fget_fset_self _ (by decide) (by decide)]
  · rw [State.blockShown, State.rget_fset_ne _ hne.symm, State.rget_fset_ne _ hne.symm, State.rget_fset_ne _ hne.symm,
      State.rget_rset_same, Nat.mod_mod]

end

/-- The memory and its upsets are as before, and the block at `a` is counted and shown with its stack or device (R167). -/
structure RecordsBlock (s u : State) (a : Nat) : Prop where
  ecc : u.ecc = s.ecc
  mem : u.mem = s.mem
  hbm : ∀ d, place a = .hbm d → ShowsBlock s u (R.HBM_ECC_CNT d ((s.hbmBank a).1 % 3))
    (R.HBM_ERR_ADDR_LO d ((s.hbmBank a).1 % 3)) (R.HBM_ERR_ADDR_HI d ((s.hbmBank a).1 % 3)) a
  lpx : ∀ e, place a = .lpx e → ShowsBlock s u (R.LPX_ECC_CNT e ((s.lpxSeg a).1 % 8))
    (R.LPX_ERR_ADDR_LO e ((s.lpxSeg a).1 % 8)) (R.LPX_ERR_ADDR_HI e ((s.lpxSeg a).1 % 8)) a

section
variable {s : State} {a : Nat}

theorem State.eventRoom_of_parts {u : State} {n : Nat} (hq : u.evq = s.evq) (hh : u.hpt = s.hpt) (h : s.eventRoom n) :
    u.eventRoom n := by
  rw [State.eventRoom, State.evFlying, hq, hh]
  exact h

theorem State.blockShown_parts (cnt lo hi b : Nat) : (s.blockShown cnt lo hi b).mem = s.mem
    ∧ (s.blockShown cnt lo hi b).ecc = s.ecc ∧ (s.blockShown cnt lo hi b).evq = s.evq
    ∧ ∀ n, s.eventRoom n → (s.blockShown cnt lo hi b).eventRoom n := by
  have hevq : (s.blockShown cnt lo hi b).evq = s.evq := by simp [State.blockShown]
  exact ⟨by simp [State.blockShown], by simp [State.blockShown], hevq,
    fun n => State.eventRoom_of_parts hevq (by simp [State.blockShown])⟩

theorem State.uncorrectable_hbm {d : Nat} (h : place a = .hbm d) (ha : a / 64 * 64 = a) : s.uncorrectable a true none =
    (s.blockShown (R.HBM_ECC_CNT d ((s.hbmBank a).1 % 3)) (R.HBM_ERR_ADDR_LO d ((s.hbmBank a).1 % 3))
      (R.HBM_ERR_ADDR_HI d ((s.hbmBank a).1 % 3)) a).raise 0x0303 none (s.hbmBank a).1 [] := by
  simp only [State.uncorrectable, h, ha, if_true]
  rfl

theorem State.uncorrectable_lpx {e : Nat} (h : place a = .lpx e) (ha : a / 64 * 64 = a) : s.uncorrectable a true none =
    (s.blockShown (R.LPX_ECC_CNT e ((s.lpxSeg a).1 % 8)) (R.LPX_ERR_ADDR_LO e ((s.lpxSeg a).1 % 8))
      (R.LPX_ERR_ADDR_HI e ((s.lpxSeg a).1 % 8)) a).raise 0x0303 none (s.lpxSeg a).1 [] := by
  simp only [State.uncorrectable, h, ha, if_true]
  rfl

theorem RecordsBlock.raise {t : State} (h : RecordsBlock s t a) (hroom : t.eventRoom 1) (code : Nat) (ctx : Option Nat)
    (unit : Nat) (data : List Nat) : RecordsBlock s (t.raise code ctx unit data) a where
  ecc := by rw [State.raise_of_room hroom]; exact h.ecc
  mem := (t.raise_mem ..).trans h.mem
  hbm d hd := (h.hbm d hd).of_regs (State.raise_regs_of_room hroom ..)
  lpx e he := (h.lpx e he).of_regs (State.raise_regs_of_room hroom ..)

/-- R143: the count of wrong tags shares no bit with what is recorded. -/
theorem RecordsBlock.countTag {t : State} (h : RecordsBlock s t a) (e k : Nat) :
    RecordsBlock s (t.fadd (F.LPX_ECC_CNT_TAG_CNT e k) 1) a where
  ecc := h.ecc
  mem := h.mem
  hbm d hd := (h.hbm d hd).countTag (by dsimp only [R.HBM_ERR_ADDR_LO, R.LPX_ECC_CNT, dieBase, edgeBase]; omega)
  lpx e' he := (h.lpx e' he).countTag (by dsimp only [R.LPX_ERR_ADDR_LO, R.LPX_ECC_CNT, edgeBase]; omega)

theorem State.uncorrectable_records (hm : isMem a = true) (ha : a / 64 * 64 = a) {n : Nat} (hroom : s.eventRoom (n + 1)) :
    RecordsBlock s (s.uncorrectable a true none) a ∧ (s.uncorrectable a true none).eventRoom n
    ∧ (s.uncorrectable a true none).evq.map (·.code) = s.evq.map (·.code) ++ [0x0303] := by
  have hone : s.eventRoom 1 := by unfold State.eventRoom at *; omega
  unfold isMem at hm
  cases hp : place a with
  | hbm d =>
    rw [State.uncorrectable_hbm hp ha]
    have hshown := State.blockShown_shows (s := s) (cnt := R.HBM_ECC_CNT d ((s.hbmBank a).1 % 3))
      (lo := R.HBM_ERR_ADDR_LO d ((s.hbmBank a).1 % 3)) (hi := R.HBM_ERR_ADDR_HI d ((s.hbmBank a).1 % 3))
      (by dsimp only [R.HBM_ECC_CNT, R.HBM_ERR_ADDR_LO, R.HBM_ERR_ADDR_HI, dieBase]; omega) a
    obtain ⟨hmem, hecc, hevq, hkeeps⟩ := s.blockShown_parts (R.HBM_ECC_CNT d ((s.hbmBank a).1 % 3))
      (R.HBM_ERR_ADDR_LO d ((s.hbmBank a).1 % 3)) (R.HBM_ERR_ADDR_HI d ((s.hbmBank a).1 % 3)) a
    refine ⟨RecordsBlock.raise ⟨hecc, hmem, fun e he => ?_, fun e he => ?_⟩ (hkeeps 1 hone) _ _ _ _,
      State.eventRoom_raise (hkeeps _ hroom) .., by rw [State.raise_codes (hkeeps 1 hone), hevq]⟩
    · obtain rfl : d = e := by rw [hp] at he; exact Place.hbm.inj he
      exact hshown
    · rw [hp] at he
      exact absurd he Place.noConfusion
  | lpx e =>
    rw [State.uncorrectable_lpx hp ha]
    have hshown := State.blockShown_shows (s := s) (cnt := R.LPX_ECC_CNT e ((s.lpxSeg a).1 % 8))
      (lo := R.LPX_ERR_ADDR_LO e ((s.lpxSeg a).1 % 8)) (hi := R.LPX_ERR_ADDR_HI e ((s.lpxSeg a).1 % 8))
      (by dsimp only [R.LPX_ECC_CNT, R.LPX_ERR_ADDR_LO, R.LPX_ERR_ADDR_HI, edgeBase]; omega) a
    obtain ⟨hmem, hecc, hevq, hkeeps⟩ := s.blockShown_parts (R.LPX_ECC_CNT e ((s.lpxSeg a).1 % 8))
      (R.LPX_ERR_ADDR_LO e ((s.lpxSeg a).1 % 8)) (R.LPX_ERR_ADDR_HI e ((s.lpxSeg a).1 % 8)) a
    refine ⟨RecordsBlock.raise ⟨hecc, hmem, fun d hd => ?_, fun d hd => ?_⟩ (hkeeps 1 hone) _ _ _ _,
      State.eventRoom_raise (hkeeps _ hroom) .., by rw [State.raise_codes (hkeeps 1 hone), hevq]⟩
    · rw [hp] at hd
      exact absurd hd Place.noConfusion
    · obtain rfl : e = d := by rw [hp] at hd; exact Place.lpx.inj hd
      exact hshown
  | _ => simp [hp] at hm

/-- R143: one block under a wrong tag is counted and raises event 0x0309. -/
theorem State.misaddressed_single : s.misaddressed [a] none =
    (s.fadd (F.LPX_ECC_CNT_TAG_CNT ((s.lpxSeg a).1 / 8) ((s.lpxSeg a).1 % 8)) 1).raise 0x0309 none (s.lpxSeg a).1 [] := rfl

/-- R168: a block that is uncorrectable, or whose segment has a wrong tag, is left and recorded. -/
theorem State.scrubBlock_records (hm : isMem a = true) (ha : a / 64 * 64 = a)
    (hbad : s.segBad a = true ∨ ∃ m, s.ecc.find a = some m ∧ correctable a m = false) (hroom : s.eventRoom 2) :
    RecordsBlock s (s.scrubBlock a) a ∧ (s.scrubBlock a).evq.map (·.code) =
      s.evq.map (·.code) ++ if s.segBad a = true then [0x0303, 0x0309] else [0x0303] := by
  obtain ⟨hrec, hroom', hcodes⟩ := State.uncorrectable_records hm ha (n := 1) hroom
  by_cases htag : s.segBad a = true
  · rw [State.scrubBlock, if_pos htag, if_pos htag, State.misaddressed_single]
    refine ⟨(hrec.countTag _ _).raise hroom' _ _ _ _, ?_⟩
    rw [State.raise_codes (by exact hroom'), State.fadd_evq, hcodes, List.append_assoc]
    rfl
  · obtain ⟨m, hfind, hm⟩ := hbad.resolve_left htag
    simp only [State.scrubBlock, if_neg htag, hfind, hm, Bool.false_eq_true, if_false]
    exact ⟨hrec, hcodes⟩

end

/-! ### Words of the SRAM arrays (R167) -/

theorem Tbl.find_dropIf {α : Type} (t : Tbl α) {p : Nat → Bool} {k : Nat} (h : p k = true) : (t.dropIf p).find k = none := by
  obtain ⟨l⟩ := t
  induction l with
  | nil => rfl
  | cons e r ih =>
    by_cases hp : p e.1 = true
    · simpa [Tbl.find, Tbl.dropIf, hp] using ih
    · have hne : e.1 ≠ k := fun heq => hp (heq ▸ h)
      simpa [Tbl.find, Tbl.dropIf, Tbl.findIn, hp, hne] using ih

section
variable {s : State} {a : Nat}

/-- The fault of context `c` written to its registers (R217): valid, with its core and its event. -/
def State.withFaultRecord (s : State) (c code g : Nat) : State :=
  ((s.fset (F.CTX_FAULT_VALID c) 1).fset (F.CTX_FAULT_CORE c) g).fset (F.CTX_FAULT_EVENT c) code

theorem State.withFaultRecord_ecc (c code g : Nat) : (s.withFaultRecord c code g).ecc = s.ecc := rfl

theorem State.withFaultRecord_evq (c code g : Nat) : (s.withFaultRecord c code g).evq = s.evq := rfl

theorem State.ctxFault_of_running {c : Nat} (h : s.ctxState c = ctxRunning) (code g : Nat) : s.ctxFault c code g =
    ((s.withFaultRecord c code g).raise 0x0421 (some c) g []).modCtx c fun x => { x with faultStop := true } := by
  have hgo : ¬ (s.ctxState c = ctxFree ∨ s.ctxState c = ctxTearing) := by rw [h]; decide
  exact if_neg hgo

/-- An event that is raised, or lost on a full queue, leaves the queue as it was before it. -/
theorem State.evq_prefix_raise (s : State) (code : Nat) (ctx : Option Nat) (unit : Nat) (data : List Nat) :
    s.evq <+: (s.raise code ctx unit data).evq := by
  obtain ⟨-, hevq, -⟩ | ⟨-, hdrop⟩ := s.raise_cases code ctx unit data
  · exact ⟨_, hevq.symm⟩
  · rw [hdrop]
    exact List.prefix_rfl

/-- R217: a RUNNING context that faults shows the event, and stops at the next tick. -/
theorem State.ctxFault_shows {c : Nat} (h : s.ctxState c = ctxRunning) {code : Nat} (hcode : code < 2 ^ 16) (g : Nat) :
    (s.ctxFault c code g).fget (F.CTX_FAULT_EVENT c) = code ∧ ((s.ctxFault c code g).ctx c).faultStop = true
    ∧ (s.ctxFault c code g).ecc = s.ecc ∧ s.evq <+: (s.ctxFault c code g).evq := by
  have hevent : (s.withFaultRecord c code g).fget (F.CTX_FAULT_EVENT c) = code := State.fget_fset_self _ (by decide) hcode
  have hlow : ∀ f : Fld, f.off < 0x1000 ∧ f.lo ≤ f.hi ∧ f.hi < 32 → (F.CTX_FAULT_EVENT c).Apart f := fun f hf =>
    Fld.apart_of_low (Nat.zero_le 15) (by dsimp only [R.CTX_FAULT]; omega) hf
  have hrecord := s.withFaultRecord_ecc c code g
  have hqueue := s.withFaultRecord_evq c code g
  rw [State.ctxFault_of_running h]
  generalize s.withFaultRecord c code g = t at hevent hrecord hqueue ⊢
  have hecc : (t.raise 0x0421 (some c) g []).ecc = t.ecc := (OnlyRegsEvents.refl t).raise _ _ _ _ |>.ecc
  have hevq := t.evq_prefix_raise 0x0421 (some c) g []
  have hkept := t.fget_raise (p := F.CTX_FAULT_EVENT c) (hlow _ (by decide)) (hlow _ (by decide)) 0x0421 (some c) g []
  exact ⟨hkept.trans hevent, by rw [State.ctx_modCtx_same], hecc.trans hrecord, hqueue ▸ hevq⟩

theorem State.sramUncorrectable_unowned {g : Nat} (hw : sramOf a = some (.core g)) (ha : a / 8 * 8 = a)
    (hfree : s.occupant g = none) : s.sramUncorrectable a =
      State.raise { s with ecc := s.ecc.erase a, mem := memClear s.mem a 8 } 0x0304 none g [] := by
  simp only [State.sramUncorrectable, hw, hfree, ha]

theorem State.sramUncorrectable_owned {g c : Nat} (hw : sramOf a = some (.core g)) (hocc : s.occupant g = some c) :
    s.sramUncorrectable a = (s.raise 0x0304 (some c) g []).ctxFault c 0x0304 g := by
  simp only [State.sramUncorrectable, hw, hocc]

/-- A line of a die cache with an uncorrectable word is gone, with the upsets of its words; nothing is raised. -/
theorem State.sramUncorrectable_line {d w x : Nat} (hw : sramOf a = some (.line d w x)) :
    (s.sramUncorrectable a).mem = s.mem ∧ (s.sramUncorrectable a).evq = s.evq
    ∧ (∀ l ∈ ((s.sramUncorrectable a).die d).lines, ¬ (l.way = w ∧ l.set = x)) ∧ (s.sramUncorrectable a).ecc.find a = none := by
  let t := if (s.die d).lines.any (fun l => l.way == w && l.set == x) then s.fadd (F.DC_ECC_CNT_REFETCH d) 1 else s
  have hcount : ∃ r, t = { s with regs := r } := by
    unfold t
    split
    · exact ⟨_, rfl⟩
    · exact ⟨_, rfl⟩
  obtain ⟨r, hr⟩ := hcount
  have hline : s.sramUncorrectable a = (t.modDie d fun y =>
      { y with lines := y.lines.filter fun l => !(l.way == w && l.set == x) }).dcFresh d w x := by
    simp only [State.sramUncorrectable, hw, t]
  rw [hline]
  refine ⟨by rw [hr]; rfl, by rw [hr]; rfl, fun l hl => ?_, Tbl.find_dropIf _ (by simp [hw])⟩
  have hdie := t.die_modDie_same d fun y => { y with lines := y.lines.filter fun l => !(l.way == w && l.set == x) }
  have hkept := (List.mem_filter.mp (congrArg Die.lines hdie ▸ hl)).2
  simpa [← not_and_or] using hkept

end

/-! ### The statement -/

section
variable {addr : BitVec 48} {s : State}

theorem exec_patrolScrub {a : Nat} (ha : addr.toNat / 64 * 64 = a) (hm : isMem a = true) (hserve : s.inService a 64 = true)
    (hon : s.scrubOn a = true) : exec (.patrolScrub addr) s = .next (s.scrubBlock a) := by
  subst ha
  exact congrArg Host.Outcome.next (if_pos ⟨hm, hserve, hon⟩)

theorem State.scrubBlock_good {a : Nat} (htag : s.segBad a = false) (hword : s.ecc.find a = none) : s.scrubBlock a = s := by
  simp only [State.scrubBlock, htag, hword, Bool.false_eq_true, if_false]

theorem State.scrubBlock_correctable {a m : Nat} (htag : s.segBad a = false) (hword : s.ecc.find a = some m)
    (hc : correctable a m = true) : s.scrubBlock a = s.corrected a := by
  simp only [State.scrubBlock, htag, hword, hc, Bool.false_eq_true, if_false, if_true]

/-- The SRAM word at `a` as the scrubber leaves it. -/
def State.scrubWord (s : State) (a : Nat) : State :=
  match s.ecc.find a with
  | none => s
  | some m => if correctable a m then s.corrected a else s.sramUncorrectable a

theorem exec_sramScrub {a : Nat} (ha : addr.toNat / 8 * 8 = a) (hm : isMem a = false) (hon : s.scrubOn a = true) :
    exec (.sramScrub addr) s = .next (s.scrubWord a) := by
  subst ha
  exact congrArg Host.Outcome.next (if_pos ⟨hm, hon⟩)

theorem State.scrubWord_uncorrectable {a m : Nat} (hword : s.ecc.find a = some m) (hc : correctable a m = false) :
    s.scrubWord a = s.sramUncorrectable a := by
  simp only [State.scrubWord, hword, hc, Bool.false_eq_true, if_false]

theorem State.scrubWord_correctable {a m : Nat} (hword : s.ecc.find a = some m) (hc : correctable a m = true) :
    s.scrubWord a = s.corrected a := by
  simp only [State.scrubWord, hword, hc, if_true]

end

/-- Settles O23: what a scrubber finds good it leaves, what it can correct it corrects and counts, and what it cannot it
records, or gives up with the word's owner or line. -/
theorem scrubbersCorrectOrRecord : Obligations.ScrubbersCorrectOrRecord := by
  unfold Obligations.ScrubbersCorrectOrRecord
  intro addr s
  refine ⟨fun hm hserve hon => ?block, fun hm hon => ?word⟩
  case block =>
    have hexec := exec_patrolScrub rfl hm hserve hon
    have ha : addr.toNat / 64 * 64 / 64 * 64 = addr.toNat / 64 * 64 := by omega
    refine ⟨fun htag hword => ?_, fun m htag hword hc => ?_, fun hbad hroom => ?_⟩
    · rw [hexec, State.scrubBlock_good htag hword]
    · rw [State.scrubBlock_correctable htag hword hc] at hexec
      exact ⟨_, hexec, State.corrected_frame.ecc, State.corrected_frame.mem, fun d hd => State.corrected_hbm hd,
        fun e he => State.corrected_lpx he⟩
    · obtain ⟨hrec, hcodes⟩ := State.scrubBlock_records hm ha hbad hroom
      exact ⟨_, hexec, hrec.ecc, hrec.mem, hcodes, hrec.hbm, hrec.lpx⟩
  case word =>
    have hexec := exec_sramScrub rfl hm hon
    have ha : addr.toNat / 8 * 8 / 8 * 8 = addr.toNat / 8 * 8 := by omega
    refine ⟨fun hword => ?_, fun m w hword hc hw => ?_, fun m g hword hc hw hroom => ⟨fun hfree => ?_, fun c hocc hrun => ?_⟩,
      fun m d w x hword hc hw => ?_⟩
    · rw [hexec, State.scrubWord, hword]
    · rw [State.scrubWord_correctable hword hc] at hexec
      exact ⟨_, hexec, State.corrected_frame.mem, State.corrected_frame.ecc, State.corrected_sram hm hw⟩
    · rw [State.scrubWord_uncorrectable hword hc, State.sramUncorrectable_unowned hw ha hfree,
        State.raise_of_room (by exact hroom)] at hexec
      exact ⟨_, _, hexec, rfl, rfl, rfl, rfl⟩
    · have hraise := State.raise_of_room hroom 0x0304 (some c) g []
      have hstate : (s.raise 0x0304 (some c) g []).ctxState c = ctxRunning :=
        (State.ctxState_of_regs (State.raise_regs_of_room hroom ..) c).trans hrun
      obtain ⟨hevent, hstop, hecc, l, hl⟩ := State.ctxFault_shows hstate (code := 0x0304) (by decide) g
      rw [State.scrubWord_uncorrectable hword hc, State.sramUncorrectable_owned hw hocc] at hexec
      refine ⟨_, ⟨0x0304, some c, s.evSeq, s.tick, g, []⟩, hexec, ?_, ?_, ?_, rfl, hevent, hstop⟩
      · exact (State.ctxFault_frame _ c 0x0304 g).1.trans (s.raise_mem ..)
      · rw [hecc, hraise]
      · rw [← hl, hraise]
        exact List.take_left' (by simp)
    · rw [State.scrubWord_uncorrectable hword hc] at hexec
      exact ⟨_, hexec, State.sramUncorrectable_line hw⟩

end Sys2Proof.Machine
end

section
/-!
PROOFS. Control cells (R240 to R254): what the sending of a cell leaves as it was, on what it depends, and the taking of a
control cell that passes R250.
-/

namespace Sys2Proof.Machine

/-! ### The tick unit's own state -/

@[simp] theorem State.fget_modTck (s : State) (f : TickUnit → TickUnit) (p : Fld) : (s.modTck f).fget p = s.fget p := rfl

@[simp] theorem State.tck_modTck (s : State) (f : TickUnit → TickUnit) : (s.modTck f).tck = f s.tck := rfl

/-! ### Operations that leave the compute parts -/

section
variable {s u : State} (h : SameCompute s u)
include h

theorem SameCompute.trans {v : State} (h' : SameCompute u v) : SameCompute s v := by
  obtain ⟨hmem, hcores, hdies, hctxs⟩ := h
  obtain ⟨hmem', hcores', hdies', hctxs'⟩ := h'
  exact ⟨hmem'.trans hmem, hcores'.trans hcores, hdies'.trans hdies, hctxs'.trans hctxs⟩

theorem SameCompute.fset (f : Fld) (n : Nat) : SameCompute s (u.fset f n) := h.trans ⟨rfl, rfl, rfl, rfl⟩

theorem SameCompute.modTck (f : TickUnit → TickUnit) : SameCompute s (u.modTck f) := h.trans ⟨rfl, rfl, rfl, rfl⟩

theorem SameCompute.raise (code : Nat) (ctx : Option Nat) (unit : Nat) (data : List Nat) :
    SameCompute s (u.raise code ctx unit data) := h.trans ⟨u.raise_mem .., u.raise_cores .., u.raise_dies .., u.raise_ctxs ..⟩

end

theorem SameCompute.refl (s : State) : SameCompute s s := ⟨rfl, rfl, rfl, rfl⟩

/-! ### What a cell's sending leaves as it was -/

/-- Nothing differs but the links, the instants of the requests, what is sent, the event queue with what records it, and the
fields that tell of a dropped event. -/
structure OnlySends (s u : State) : Prop where
  frame : u = { s with links := u.links, xfers := u.xfers, out := u.out, regs := u.regs, evq := u.evq,
                       evSeq := u.evSeq, evLog := u.evLog }
  fget : ∀ p : Fld, p.Apart F.MGT_PLANE_STAT_EVQ_OVF → p.Apart F.MGT_EVQ_DROP_DROP_COUNT → u.fget p = s.fget p
  evq : s.evq <+: u.evq

theorem OnlySends.refl (s : State) : OnlySends s s := ⟨rfl, fun _ _ _ => rfl, List.prefix_rfl⟩

theorem OnlySends.trans {s t u : State} (h : OnlySends s t) (h' : OnlySends t u) : OnlySends s u where
  frame := h'.frame.trans (by rw [h.frame])
  fget p hp hp' := (h'.fget p hp hp').trans (h.fget p hp hp')
  evq := h.evq.trans h'.evq

section
variable {s u : State} (h : OnlySends s u)
include h

theorem OnlySends.tck : u.tck = s.tck := by rw [h.frame]

theorem OnlySends.ctxs : u.ctxs = s.ctxs := by rw [h.frame]

theorem OnlySends.mem : u.mem = s.mem := by rw [h.frame]

theorem OnlySends.cores : u.cores = s.cores := by rw [h.frame]

theorem OnlySends.sameCompute : SameCompute s u := ⟨h.mem, h.cores, by rw [h.frame], h.ctxs⟩

/-- A register field at 0x1000 or above is as it was. -/
theorem OnlySends.fget_high {p : Fld} (hp : p.lo ≤ p.hi) (ho : 0x1000 ≤ p.off) : u.fget p = s.fget p :=
  h.fget p (p.apart_of_low hp ho (by decide)) (p.apart_of_low hp ho (by decide))

end

section
variable (s : State)

theorem OnlySends.raise (code : Nat) (ctx : Option Nat) (unit : Nat) (data : List Nat) :
    OnlySends s (s.raise code ctx unit data) where
  frame := by unfold State.raise; split <;> rfl
  fget _ hp hp' := s.fget_raise hp hp' ..
  evq := s.evq_prefix_raise ..

theorem OnlySends.linkSend (p tc : Nat) (l : List Byte) : OnlySends s (s.linkSend p tc l) := by
  unfold State.linkSend
  split
  · exact ⟨rfl, fun _ _ _ => rfl, List.prefix_rfl⟩
  · exact ⟨rfl, fun _ _ _ => rfl, List.prefix_rfl⟩

theorem OnlySends.sendControl (type tc dst : Nat) (pl : List Byte) : OnlySends s (s.sendControl type tc dst pl) := by
  unfold State.sendControl State.sendCell
  split
  · exact .refl s
  · split
    · exact .raise s ..
    · exact .linkSend s ..

end

/-! ### On what a control cell's sending depends -/

/-- The links, the routes, what has been sent and the registers of the edge dies are the same. -/
structure SameFabric (s u : State) : Prop where
  links : u.links = s.links
  routes : u.routes = s.routes
  out : u.out = s.out
  regs : ∀ o, 0x08000000 ≤ o → u.rget o = s.rget o

theorem SameFabric.of_regs {s u : State} (hl : u.links = s.links) (hr : u.routes = s.routes) (ho : u.out = s.out)
    (h : u.regs = s.regs) : SameFabric s u := ⟨hl, hr, ho, fun o _ => State.rget_of_regs h o⟩

section
variable {s u : State} (h : SameFabric s u)
include h

theorem SameFabric.fget {p : Fld} (ho : 0x08000000 ≤ p.off) : u.fget p = s.fget p := by
  rw [State.fget, State.fget, h.regs _ ho]

theorem SameFabric.link (p : Nat) : u.link p = s.link p := by rw [State.link, State.link, h.links]

theorem SameFabric.fget_portStat (p hi lo : Nat) : u.fget ⟨R.FAB_PORT_STAT (p / 24) (p % 24), hi, lo⟩ =
    s.fget ⟨R.FAB_PORT_STAT (p / 24) (p % 24), hi, lo⟩ :=
  h.fget (by dsimp only [R.FAB_PORT_STAT, edgeBase]; omega)

theorem SameFabric.carries (tc p : Nat) : u.carries tc p = s.carries tc p := by
  rw [State.carries, State.carries, State.portState, State.portState, h.fget_portStat]

theorem SameFabric.standsFor (p : Nat) : u.standsFor p = s.standsFor p := by
  rw [State.standsFor, State.standsFor, h.fget_portStat, h.fget_portStat]

/-- R253: the port of a cell follows the routes and the ports' states. -/
theorem SameFabric.portFor (dst tc : Nat) : u.portFor dst tc = s.portFor dst tc := by
  have hserves : u.serves tc = s.serves tc := by
    funext p
    simp only [State.serves, h.carries, h.standsFor]
  rw [State.portFor, State.portFor, State.routeFor, State.routeFor, h.routes, hserves, h.fget (Nat.le_refl _)]

/-- R241, R242: what a cell puts on its link follows the link. -/
theorem SameFabric.linkSend_out (p tc : Nat) (l : List Byte) : (u.linkSend p tc l).out = (s.linkSend p tc l).out := by
  have hopen : u.linkOpen p tc = s.linkOpen p tc := by simp only [State.linkOpen, h.link, h.carries]
  rw [State.linkSend, State.linkSend, hopen, h.link]
  split
  · exact congrArg (· ++ _) h.out
  · exact h.out

theorem SameFabric.sendControl_out {type : Nat} (htype : isControl type = true) (tc dst : Nat) (pl : List Byte) :
    (u.sendControl type tc dst pl).out = (s.sendControl type tc dst pl).out := by
  have hdata : ¬ (isControl type = false ∧ u.fenced = true) := by rw [htype]; simp
  have hdata' : ¬ (isControl type = false ∧ s.fenced = true) := by rw [htype]; simp
  simp only [State.sendControl, State.sendCell, if_neg hdata, if_neg hdata', h.portFor]
  split
  · rw [State.raise_out, State.raise_out]
    exact h.out
  · rw [h.fget (p := F.FAB_SELF_FAB) (Nat.le_refl _), h.regs R.FAB_MEMB_EPOCH (by decide)]
    exact h.linkSend_out ..

end

/-! ### Control cells that arrive (R250) -/

section
variable {s : State} {p ty : Nat} {c : Cell} {raw : List Byte}

theorem State.front_eq (h : s.front p ty = some (c, raw)) : c = Cell.parse raw := by
  unfold State.front at h
  split at h
  · simp at h
  · split at h
    · simp only [Option.some.injEq, Prod.mk.injEq] at h
      rw [← h.1, ← h.2]
    · simp at h

/-- R250: a control cell that passes leaves its port's queue and is delivered. -/
theorem State.control_of_passes (hfront : s.front p ty = some (c, raw)) (h : ControlPasses s raw) (eff : State → Cell → State) :
    s.control p ty eff = eff (s.pop p) c := by
  obtain ⟨hcheck, hfold, hok⟩ := h
  have hfail : ¬ (checkPasses (foldOf ((s.pop p).fget F.FAB_SELF_FAB) 0 0) raw = false
      ∨ leAt raw 276 4 ≠ foldOf ((s.pop p).fget F.FAB_SELF_FAB) 0 0) := by
    rintro (hn | hn)
    · exact Bool.false_ne_true (hn.symm.trans hcheck)
    · exact hn hfold
  have hrx : (s.pop p).rxControl p c raw = (s.pop p, true) := by
    rw [State.front_eq hfront, State.rxControl]
    simp only [if_neg hfail, hok, if_true]
  simp only [State.control, hfront, hrx]

theorem State.pop_rxq (s : State) (p : Nat) : ((s.pop p).link p).rxq = (s.link p).rxq.tail := by
  simp [State.pop, State.modLink, State.link]

end

end Sys2Proof.Machine
end

section
/-!
PROOFS. The tick unit's parameters, roles and states (R190, R192, R420), and the statement TickUnitParametersAndStates.
-/

namespace Sys2Proof.Machine

/-! ### Parameters (R192, R193) -/

/-- R193: what an announced change does to the contexts whose formes it does not suit. -/
theorem State.tellMismatch_frame (s : State) (period cut : Nat) : OnlyRegsCtxsEvents s (s.tellMismatch period cut) := by
  refine foldl_rel .refl .trans (fun t p _ => ?_) s
  split
  · exact .refl t
  · exact OnlyRegsCtxsEvents.trans (u := t.modCtx p.1 fun x => { x with unfit := true }) rfl (.raise ..)

/-- R193: a change that suits every forme is told to no context. -/
theorem State.tellMismatch_of_fits {s : State} {period cut : Nat} (h : ∀ x ∈ s.formes, x.2.fits period cut = true) :
    s.tellMismatch period cut = s :=
  foldl_view_same (view := id) (fun _ x hx => if_pos (h x hx)) s

/-- R192: a master's write of TCK_PERIOD with values in their ranges announces them for the 16th tick from now. -/
theorem exec_tckPeriodWrite_announces {s : State} {w : Word} (hrole : s.tckRole = rolePrimary ∨ s.tckRole = roleStandalone)
    (hnone : s.tck.change = none) (hp : 50 ≤ bits w.toNat 13 0 ∧ bits w.toNat 13 0 ≤ 10000)
    (ht : 4 ≤ bits w.toNat 31 24 ∧ bits w.toNat 31 24 ≤ 32) :
    exec (.tckPeriodWrite w) s = .next (s.announce ((s.tick + 16) % 2 ^ 48) (bits w.toNat 13 0) (bits w.toNat 31 24)) := by
  refine congrArg Host.Outcome.next ?_
  rw [if_pos hp, if_pos ht, if_pos ⟨hrole, hnone⟩]

/-- R192: the announced values are in force from their tick on. -/
theorem exec_periodChangeApply_applies {s : State} {k p t : Nat} (hdue : s.tickDue = true)
    (hchange : s.tck.change = some (k, p, t)) (hk : k ≤ s.nextTick) (hp : p < 2 ^ 14) (ht : t < 2 ^ 8) :
    ∃ u, exec .periodChangeApply s = .next u ∧ u.periodUs = p ∧ u.cutUs = t ∧ u.tck.change = none ∧ SameCompute s u
      ∧ SameRegsBut s u [R.TCK_PERIOD] := by
  have happly : s.applyChange s.nextTick = ((s.fset F.TCK_PERIOD_PERIOD_US p).fset F.TCK_PERIOD_SLIP_CUT t).modTck
      fun u => { u with change := none } := by
    simp only [State.applyChange, hchange, if_pos hk]
  have hexec : exec .periodChangeApply s = .next (s.applyChange s.nextTick) := congrArg Host.Outcome.next (if_pos hdue)
  rw [happly] at hexec
  refine ⟨_, hexec, ?_, ?_, rfl, ⟨rfl, rfl, rfl, rfl⟩, ?_⟩
  · rw [State.periodUs, State.fget_modTck, State.fget_fset_apart _ t (by decide), State.fget_fset_self _ (by decide) hp]
  · rw [State.cutUs, State.fget_modTck, State.fget_fset_self _ (by decide) ht]
  · exact (((SameRegsBut.refl s _).fset (f := F.TCK_PERIOD_PERIOD_US) (by simp) p).fset (f := F.TCK_PERIOD_SLIP_CUT)
      (by simp) t).of_regs rfl

/-! ### Enabling and disabling (R190, R420) -/

/-- The unit as EN changes: its lists, its gathered requests and its path measurement are gone, and no tick is due. -/
def State.tckCleared (s : State) : State :=
  s.modTck fun t => { t with
    lists := [], gather := [], followers := [], good := 0, alone := [], delayAt := none, nextNs := 0 }

/-- The unit enabled in role `role`, the primary its source. -/
def State.tckEnabled (s : State) (role : Nat) : State :=
  ((s.fset F.TCK_CTRL_ROLE role).fset F.TCK_CTRL_EN 1).tckCleared.fset F.TCK_STAT_SRC 0

/-- R190: an enabled unit that takes its ticks from cells acquires them; one that keeps its own time is LOCKED, its next tick a
period from now. -/
def State.tckStarted (s : State) : State :=
  if s.follows then s.setTck tckAcquiring
  else (s.setTck tckLocked).modTck fun t => { t with nextNs := s.nowNs + 1000 * s.periodUs }

@[simp] theorem State.fget_tckCleared (s : State) (p : Fld) : s.tckCleared.fget p = s.fget p := rfl

theorem State.tckEnabled_role (s : State) {role : Nat} (h : role < 4) : (s.tckEnabled role).tckRole = role := by
  rw [State.tckRole, State.tckEnabled, State.fget_fset_of_apart _ (by decide), State.fget_tckCleared,
    State.fget_fset_apart _ 1 (by decide), State.fget_fset_self _ (by decide) h]

theorem State.tckEnabled_en (s : State) (role : Nat) : (s.tckEnabled role).fget F.TCK_CTRL_EN = 1 := by
  rw [State.tckEnabled, State.fget_fset_of_apart _ (by decide), State.fget_tckCleared,
    State.fget_fset_self _ (by decide) (by decide)]

theorem State.tckEnabled_periodUs (s : State) (role : Nat) : (s.tckEnabled role).periodUs = s.periodUs := by
  rw [State.periodUs, State.tckEnabled, State.fget_fset_of_apart _ (by decide), State.fget_tckCleared,
    State.fget_fset_of_apart _ (by decide), State.fget_fset_of_apart _ (by decide), State.periodUs]

theorem exec_tickUnitEnable_enables {s : State} {w : Word} (hoff : s.fget F.TCK_CTRL_EN = 0) (hen : bit w.toNat 31 = true)
    (hrole : s.fget F.MGT_CAP_SUM_STANDALONE = 0 ∨ bits w.toNat 27 26 = roleStandalone) :
    exec (.tickUnitEnable w) s = .next (s.tckEnabled (bits w.toNat 27 26)).tckStarted := by
  have hen1 : bits w.toNat 31 31 = 1 := by simpa [bit, bits] using hen
  change execTickUnitEnable w s = _
  unfold execTickUnitEnable
  extract_lets was role en s1 s2 fresh s3
  have hrole' : s1 = s.fset F.TCK_CTRL_ROLE role := if_pos ⟨hoff, hrole⟩
  have hset : s2 = (s.fset F.TCK_CTRL_ROLE role).fset F.TCK_CTRL_EN 1 := by rw [← hrole', ← hen1]
  have hstarted : s3 = s.tckEnabled role := by
    rw [State.tckEnabled, ← hset]
    rfl
  have hwas : ¬ was = en := by rw [show en = 1 from hen1, show was = 0 from hoff]; decide
  have hon : ¬ en = 0 := by rw [show en = 1 from hen1]; decide
  rw [if_neg hwas, if_neg hon, hstarted]
  rfl

theorem exec_tickUnitEnable_on {s : State} {w : Word} (hoff : s.fget F.TCK_CTRL_EN = 0) (hen : bit w.toNat 31 = true)
    (hrole : s.fget F.MGT_CAP_SUM_STANDALONE = 0 ∨ bits w.toNat 27 26 = roleStandalone) :
    ∃ u, exec (.tickUnitEnable w) s = .next u ∧ u.tckRole = bits w.toNat 27 26 ∧ u.fget F.TCK_CTRL_EN = 1 ∧ SameCompute s u
      ∧ (if bits w.toNat 27 26 = roleFollower ∨ bits w.toNat 27 26 = roleStandby then u.tckState = tckAcquiring
        else u.tckState = tckLocked ∧ u.tck.nextNs = s.nowNs + 1000 * s.periodUs) := by
  have hlt : bits w.toNat 27 26 < 4 := bits_lt _ 27 26
  have hexec := exec_tickUnitEnable_enables hoff hen hrole
  generalize bits w.toNat 27 26 = role at hlt hexec
  have hr := s.tckEnabled_role hlt
  have hon := s.tckEnabled_en role
  have hperiod := s.tckEnabled_periodUs role
  have hcompute : SameCompute s (s.tckEnabled role) := ⟨rfl, rfl, rfl, rfl⟩
  have htime : (s.tckEnabled role).timeUs = s.timeUs := rfl
  generalize s.tckEnabled role = v at hexec hr hon hperiod hcompute htime
  have hfollows : v.follows = true ↔ role = roleFollower ∨ role = roleStandby := by simp [State.follows, hr]
  by_cases hf : role = roleFollower ∨ role = roleStandby
  · rw [State.tckStarted, if_pos (hfollows.mpr hf)] at hexec
    refine ⟨_, hexec, (v.fget_fset_of_apart (by decide) _).trans hr, (v.fget_fset_of_apart (by decide) _).trans hon,
      hcompute.fset _ _, ?_⟩
    rw [if_pos hf]
    exact v.fget_fset_self (by decide) (by decide)
  · rw [State.tckStarted, if_neg (mt hfollows.mp hf), State.nowNs, htime, hperiod] at hexec
    refine ⟨_, hexec, ?_, ?_, (hcompute.fset _ _).modTck _, ?_⟩
    · rw [State.tckRole, State.fget_modTck]
      exact (v.fget_fset_of_apart (by decide) _).trans hr
    · rw [State.fget_modTck]
      exact (v.fget_fset_of_apart (by decide) _).trans hon
    · rw [if_neg hf, State.tckState, State.fget_modTck, State.tck_modTck, State.nowNs]
      exact ⟨v.fget_fset_self (by decide) (by decide), rfl⟩

theorem exec_tickUnitEnable_off {s : State} {w : Word} (hon : s.fget F.TCK_CTRL_EN = 1) (hen : bit w.toNat 31 = false) :
    ∃ u, exec (.tickUnitEnable w) s = .next u ∧ u.tckState = tckOff ∧ u.fget F.TCK_CTRL_EN = 0 ∧ u.tckRole = s.tckRole
      ∧ SameCompute s u := by
  have hen0 : bits w.toNat 31 31 = 0 := by simpa [bit, bits] using hen
  have hexec : exec (.tickUnitEnable w) s = .next ((s.fset F.TCK_CTRL_EN 0).tckCleared.setTck tckOff) := by
    refine congrArg Host.Outcome.next ?_
    rw [hon, hen0, if_neg Nat.one_ne_zero, if_pos rfl, if_neg fun h => Nat.one_ne_zero h.1]
    rfl
  refine ⟨_, hexec, State.fget_fset_self _ (by decide) (by decide), ?_, ?_, ⟨rfl, rfl, rfl, rfl⟩⟩
  · exact (State.fget_fset_of_apart _ (by decide) _).trans (s.fget_fset_self (by decide) (by decide))
  · exact (State.fget_fset_of_apart _ (by decide) _).trans (s.fget_fset_of_apart (by decide) _)

/-! ### Sources that fall silent (R190) -/

/-- With room, an event adds what it says to a queue as it was before the changes it tells of. -/
theorem raises_raise_after {s u : State} (hq : u.evq = s.evq) (hh : u.hpt = s.hpt) (h : s.eventRoom 1) (code : Nat)
    (ctx : Option Nat) (unit : Nat) (data : List Nat) : Raises s (u.raise code ctx unit data) [(code, ctx, unit, data)] := by
  rw [Raises, ← hq]
  exact raises_raise (State.eventRoom_of_parts hq hh h) code ctx unit data

section
variable {s : State}

/-- R190: a follower with cells from its other master takes that one as its source. -/
theorem exec_tickHoldover_switches (hlocked : s.tckState = tckLocked) (hfollows : s.follows = true)
    (hsilent : (if s.fget F.TCK_STAT_SRC = 0 then s.tck.lastAt else s.tck.stbAt) + 2 * s.periodUs < s.timeUs)
    (hback : s.tckRole = roleFollower ∧ s.fget F.TCK_STB_FAB_FAB ≠ 0
      ∧ (if s.fget F.TCK_STAT_SRC = 0 then s.tck.stbAt else s.tck.lastAt) ≠ 0
      ∧ s.timeUs ≤ (if s.fget F.TCK_STAT_SRC = 0 then s.tck.stbAt else s.tck.lastAt) + 2 * s.periodUs) :
    exec .tickHoldover s = .next ((s.fset F.TCK_STAT_SRC (1 - s.fget F.TCK_STAT_SRC)).raise 0x0405 none 0 []) := by
  refine congrArg Host.Outcome.next ?_
  rw [if_neg (by simp [hlocked, hfollows, hsilent]), if_pos]
  simpa using hback

theorem exec_tickHoldover_holds (hlocked : s.tckState = tckLocked) (hfollows : s.follows = true)
    (hsilent : (if s.fget F.TCK_STAT_SRC = 0 then s.tck.lastAt else s.tck.stbAt) + 2 * s.periodUs < s.timeUs)
    (hback : ¬ (s.tckRole = roleFollower ∧ s.fget F.TCK_STB_FAB_FAB ≠ 0
      ∧ (if s.fget F.TCK_STAT_SRC = 0 then s.tck.stbAt else s.tck.lastAt) ≠ 0
      ∧ s.timeUs ≤ (if s.fget F.TCK_STAT_SRC = 0 then s.tck.stbAt else s.tck.lastAt) + 2 * s.periodUs)) :
    exec .tickHoldover s
      = .next (((s.modTck fun t => { t with hold := s.timeUs }).setTck tckHoldover).raise 0x0406 none 0 []) := by
  refine congrArg Host.Outcome.next ?_
  rw [if_neg (by simp [hlocked, hfollows, hsilent]), if_neg]
  simpa using hback

theorem exec_tickLost_loses (hhold : s.tckState = tckHoldover)
    (hlate : s.tck.hold + 1000 * s.fget F.TCK_HOLD_HOLD_MAX ≤ s.timeUs) (hroom : s.eventRoom 1) :
    ∃ u, exec .tickLost s = .next u ∧ u.tckState = tckLost ∧ Raises s u [(0x0407, none, 0, [])] ∧ SameCompute s u := by
  have hexec : exec .tickLost s = .next (((s.fset F.TCK_HOLD_ELAPSED_MS (s.fget F.TCK_HOLD_HOLD_MAX)).setTck tckLost).raise
      0x0407 none 0 []) := congrArg Host.Outcome.next (if_pos ⟨hhold, hlate⟩)
  refine ⟨_, hexec, ?_, raises_raise_after (by rfl) (by rfl) hroom _ _ _ _,
    SameCompute.raise (by exact ⟨rfl, rfl, rfl, rfl⟩) ..⟩
  exact (State.fget_raise _ (by decide) (by decide) ..).trans (State.fget_fset_self _ (by decide) (by decide))

end

/-! ### The statement -/

/-- Settles O33: each clause is the rule above of its command. The 16th tick exactly (entry 55), and more than two periods and
the switch back (entry 57), are the model's choices. -/
theorem tickUnitParametersAndStates : Obligations.TickUnitParametersAndStates := by
  unfold Obligations.TickUnitParametersAndStates
  intro s
  refine ⟨fun w hrole hnone hp hp' ht ht' => ?announced, fun _ _ _ => exec_periodChangeApply_applies,
    fun _ => exec_tickUnitEnable_on, fun _ => exec_tickUnitEnable_off, ?silent, exec_tickLost_loses⟩
  case announced =>
    have hframe := (s.modTck fun t => { t with
      change := some ((s.tick + 16) % 2 ^ 48, bits w.toNat 13 0, bits w.toNat 31 24) }).tellMismatch_frame
        (bits w.toNat 13 0) (bits w.toNat 31 24)
    refine ⟨_, exec_tckPeriodWrite_announces hrole hnone ⟨hp, hp'⟩ ⟨ht, ht'⟩, hframe.mem, hframe.cores, ?_, fun hfits => ?_, ?_⟩
    · rw [State.announce, hframe]; rfl
    · rw [State.announce, State.tellMismatch_of_fits (by exact hfits)]; rfl
    · rw [State.announce, hframe]; rfl
  case silent =>
    intro src mine other back hlocked hfollows hsilent hroom
    by_cases hback : back
    · refine ⟨_, exec_tickHoldover_switches hlocked hfollows hsilent hback,
        SameCompute.raise (by exact ⟨rfl, rfl, rfl, rfl⟩) ..,
        fun h => absurd hback h, fun _ => ⟨?_, ?_, raises_raise_after (by rfl) (by rfl) hroom _ _ _ _⟩⟩
      · exact (State.fget_raise _ (by decide) (by decide) ..).trans ((s.fget_fset_of_apart (by decide) _).trans hlocked)
      · exact (State.fget_raise _ (by decide) (by decide) ..).trans (s.fget_fset_self (by decide)
          (Nat.lt_of_le_of_lt (Nat.sub_le 1 _) (by decide)))
    · refine ⟨_, exec_tickHoldover_holds hlocked hfollows hsilent hback, SameCompute.raise (by exact ⟨rfl, rfl, rfl, rfl⟩) ..,
        fun _ => ⟨?_, ?_, raises_raise_after (by rfl) (by rfl) hroom _ _ _ _⟩, fun h => absurd h hback⟩
      · exact (State.fget_raise _ (by decide) (by decide) ..).trans (State.fget_fset_self _ (by decide) (by decide))
      · unfold State.raise; split <;> rfl

end Sys2Proof.Machine
end

section
/-!
PROOFS. Impressions (R106, R177, R194, R197): the start of a ramp group's cores, the end of an impression on one core, the
cutoff, and the statement ImpressionsStartAndEnd.
-/

namespace Sys2Proof.Machine

/-! ### A core that starts (R194, R177) -/

/-- The threads that impression `r` of forme `f` starts on core `g` (R177). -/
def Forme.startedThreads (f : Forme) (r : ImpRec) (g : Nat) : List Nat :=
  (List.range 8).filter fun t => (f.startsOf r g).getD t 0xFFFFFFFF != 0xFFFFFFFF

/-- Core `g` of context `c`'s ramp group starts: with what it has restored, or with the impression's threads. -/
def State.rampCore (s : State) (c : Nat) (f : Forme) (g : Nat) : State :=
  let t := s.modCore g fun y => y.takeUp s.timeUs
  let v := if (s.core g).restored then t else match t.impRec c with
    | some r => t.startThreads f r g
    | none => t
  ((v.reawait g).settle g).pump g

theorem OnlyCore.startThreads (s : State) (f : Forme) (r : ImpRec) (g : Nat) : OnlyCore s (s.startThreads f r g) g := by
  unfold State.startThreads
  exact .modCore s g _

theorem State.rampStart_eq {s : State} {c k : Nat} {f : Forme} (hst : s.ctxState c = ctxRunning) (hran : (s.ctx c).ran = true)
    (htime : (s.ctx c).launchAt + 2 * k ≤ s.timeUs) (hf : (s.ctx c).forme = some f) :
    s.rampStart c k = (f.coreList.filter fun g => g % 8 == k && (s.core g).stopped).foldl (fun s g => s.rampCore c f g) s := by
  have hgo : ¬ (s.ctxState c ≠ ctxRunning ∨ (s.ctx c).ran = false ∨ s.timeUs < (s.ctx c).launchAt + 2 * k) := by
    simp [hst, hran, htime]
  unfold State.rampStart
  dsimp only
  rw [if_neg hgo, hf]
  rfl

section
variable {s : State} {c g : Nat} {f : Forme} (hocc : s.occupant g = some c) (hact : (s.core g).act = [])
  (hwaits : (s.core g).waits = []) (hstreams : (s.ctx c).streams = [])
include hocc hact hwaits hstreams

/-- R153, R104: on a core with no request and no active descriptor, what ends waits changes threads and queued descriptors. -/
theorem State.resume_idle : OnlyCore s (((s.reawait g).settle g).pump g) g ∧ ∃ l m n,
    (((s.reawait g).settle g).pump g).core g = { s.core g with thr := l, xq := m, chainWait := n } := by
  have honly : OnlyCore s ((s.reawait g).settle g) g := OnlyCore.trans (.modCore s g _) (.settle _ g)
  have hcore : ∃ l m n, ((s.reawait g).settle g).core g = { s.core g with thr := l, xq := m, chainWait := n } :=
    ⟨_, _, _, by rw [State.core_settle_same, State.reawait, State.core_modCore_same]⟩
  generalize (s.reawait g).settle g = v at honly hcore
  obtain ⟨l, m, n, hv⟩ := hcore
  have hpump : v.pump g = v := State.pump_rests (c := c) (by rw [honly.1]; exact hocc) (by rw [hv]; exact hwaits)
    (by rw [hv, hact]; exact fun _ h => absurd h List.not_mem_nil) (by rw [honly.1]; exact hstreams)
  rw [hpump]
  exact ⟨honly, l, m, n, hv⟩

/-- R194: a core that starts runs on, its own state apart nothing differs, and where it has restored none its threads are the
impression's. -/
theorem State.rampCore_starts : OnlyCore s (s.rampCore c f g) g
    ∧ ((s.rampCore c f g).core g).stopped = false ∧ ((s.rampCore c f g).core g).restored = false
    ∧ ((s.rampCore c f g).core g).act = [] ∧ ((s.rampCore c f g).core g).waits = []
    ∧ ((s.core g).restored = false → ∀ r, s.impRec c = some r →
        ((s.rampCore c f g).core g).started = f.startedThreads r g) := by
  let t := s.modCore g fun y => y.takeUp s.timeUs
  have htake : OnlyCore s t g := .modCore s g _
  have htcore : t.core g = (s.core g).takeUp s.timeUs := s.core_modCore_same g _
  obtain ⟨v, hv, honly, hcore, hstarted⟩ : ∃ v, s.rampCore c f g = ((v.reawait g).settle g).pump g ∧ OnlyCore t v g
      ∧ ((v.core g).stopped = (t.core g).stopped ∧ (v.core g).restored = (t.core g).restored ∧ (v.core g).act = (t.core g).act
        ∧ (v.core g).waits = (t.core g).waits)
      ∧ ((s.core g).restored = false → ∀ r, s.impRec c = some r → (v.core g).started = f.startedThreads r g) := by
    refine ⟨_, rfl, ?_⟩
    split
    next hback => exact ⟨.refl t g, ⟨rfl, rfl, rfl, rfl⟩, fun h => absurd (hback.symm.trans h) (by decide)⟩
    next hback =>
      split
      next r hr =>
        refine ⟨.startThreads t f r g, ?_, fun _ q hq => ?_⟩
        · rw [State.startThreads, State.core_modCore_same]
          exact ⟨rfl, rfl, rfl, rfl⟩
        · have hqr : q = r := Option.some.inj (hq.symm.trans hr)
          rw [State.startThreads, State.core_modCore_same, hqr]
          rfl
      next hr => exact ⟨.refl t g, ⟨rfl, rfl, rfl, rfl⟩, fun _ q hq => absurd (hq.symm.trans hr) nofun⟩
  obtain ⟨hstop, hrest, hact', hwaits'⟩ := hcore
  have hsv := htake.trans honly
  obtain ⟨hresume, l, m, n, hend⟩ := State.resume_idle (s := v) (c := c) (by rw [hsv.1]; exact hocc)
    (by rw [hact', htcore]; exact hact) (by rw [hwaits', htcore]; exact hwaits) (by rw [hsv.1]; exact hstreams)
  rw [hv, hend]
  exact ⟨hsv.trans hresume, hstop.trans (by rw [htcore]; rfl), hrest.trans (by rw [htcore]; rfl),
    hact'.trans (by rw [htcore]; exact hact), hwaits'.trans (by rw [htcore]; exact hwaits), hstarted⟩

end

/-! ### A ramp group that starts (R194) -/

/-- While the cores of forme `f` start one after the other: the cores alone differ, and of those the forme's alone, which have
no request and no active descriptor; none stops, and none has anything restored that had not. -/
structure Ramping (f : Forme) (s u : State) : Prop where
  frame : u = { s with cores := u.cores }
  idle : ∀ g ∈ f.coreList, (u.core g).act = [] ∧ (u.core g).waits = []
  others : ∀ g, g ∉ f.coreList → u.core g = s.core g
  stopped : ∀ g, (s.core g).stopped = false → (u.core g).stopped = false
  restored : ∀ g, (s.core g).restored = false → (u.core g).restored = false

/-- Core `g` has started: where it has restored nothing, with the threads of context `c`'s impression. -/
def RampStarted (c : Nat) (f : Forme) (s u : State) (g : Nat) : Prop :=
  (u.core g).stopped = false
    ∧ ((s.core g).restored = false → ∀ r, s.impRec c = some r → (u.core g).started = f.startedThreads r g)

section
variable {s t : State} {c g : Nat} {f : Forme} (h : Ramping f s t) (hg : g ∈ f.coreList)
  (hocc : s.occupant g = some c) (hstreams : (s.ctx c).streams = [])
include h hg hocc hstreams

theorem Ramping.rampCore : Ramping f s (t.rampCore c f g) ∧ RampStarted c f s (t.rampCore c f g) g
    ∧ ∀ x, x ≠ g → (t.rampCore c f g).core x = t.core x := by
  obtain ⟨hact, hwaits⟩ := h.idle g hg
  obtain ⟨honly, hstop, hrest, hact', hwaits', hstarted⟩ := State.rampCore_starts (f := f) (by rw [h.frame]; exact hocc) hact
    hwaits (by rw [h.frame]; exact hstreams)
  have himp : t.impRec c = s.impRec c := by rw [h.frame]; rfl
  generalize t.rampCore c f g = u at honly hstop hrest hact' hwaits' hstarted
  obtain ⟨hframe, hother⟩ := honly
  refine ⟨⟨hframe.trans (by rw [h.frame]), fun x hx => ?_, fun x hx => ?_, fun x hx => ?_, fun x hx => ?_⟩,
    ⟨hstop, fun hr r hir => hstarted (h.restored g hr) r (himp.trans hir)⟩, hother⟩
  · by_cases hxg : x = g
    · rw [hxg]; exact ⟨hact', hwaits'⟩
    · rw [hother x hxg]; exact h.idle x hx
  · rw [hother x fun e => hx (e ▸ hg)]; exact h.others x hx
  · by_cases hxg : x = g
    · rw [hxg]; exact hstop
    · rw [hother x hxg]; exact h.stopped x hx
  · by_cases hxg : x = g
    · rw [hxg]; exact hrest
    · rw [hother x hxg]; exact h.restored x hx

end

/-- Every core of a list of the forme's cores starts, and stays so while the others do. -/
theorem Ramping.rampCores {s t : State} {c : Nat} {f : Forme} (hocc : ∀ g ∈ f.coreList, s.occupant g = some c)
    (hstreams : (s.ctx c).streams = []) (l : List Nat) (hl : ∀ g ∈ l, g ∈ f.coreList) (h : Ramping f s t) :
    Ramping f s (l.foldl (fun s g => s.rampCore c f g) t)
      ∧ ∀ x, x ∈ l ∨ RampStarted c f s t x → RampStarted c f s (l.foldl (fun s g => s.rampCore c f g) t) x := by
  induction l generalizing t with
  | nil => exact ⟨h, fun x hx => hx.resolve_left List.not_mem_nil⟩
  | cons g r ih =>
    have hg := hl g List.mem_cons_self
    obtain ⟨hramp, hstarted, hother⟩ := h.rampCore hg (hocc g hg) hstreams
    obtain ⟨hrest, hall⟩ := ih (fun x hx => hl x (List.mem_cons_of_mem _ hx)) hramp
    refine ⟨hrest, fun x hx => hall x ?_⟩
    by_cases hxg : x = g
    · exact .inr (hxg ▸ hstarted)
    · refine hx.imp (fun hx => (List.mem_cons.mp hx).resolve_left hxg) fun hx => ?_
      rw [RampStarted, hother x hxg]
      exact hx

theorem exec_rampStart_starts {c : CtxId} {k : Fin 8} {s : State} {f : Forme} (hst : s.ctxState c = ctxRunning)
    (hran : (s.ctx c).ran = true) (htime : (s.ctx c).launchAt + 2 * k ≤ s.timeUs) (hf : (s.ctx c).forme = some f)
    (hstreams : (s.ctx c).streams = []) (hended : s.ended = [])
    (hidle : ∀ g ∈ f.coreList, s.occupant g = some c.val ∧ (s.core g).act = [] ∧ (s.core g).waits = []) :
    ∃ u, exec (.rampStart c k) s = .next u ∧ Ramping f s u
      ∧ ∀ g ∈ f.coreList, g % 8 = k → (s.core g).stopped = true → RampStarted c f s u g := by
  have hbegin : Ramping f s s := ⟨rfl, fun g hg => (hidle g hg).2, fun _ _ => rfl, fun _ => id, fun _ => id⟩
  obtain ⟨hramp, hall⟩ := hbegin.rampCores (fun g hg => (hidle g hg).1) hstreams
    (f.coreList.filter fun g => g % 8 == k && (s.core g).stopped) fun g hg => List.mem_of_mem_filter hg
  rw [← State.rampStart_eq hst hran htime hf] at hramp hall
  refine ⟨_, congrArg Host.Outcome.next (State.flush_of_ended_nil (by rw [hramp.frame]; exact hended)), hramp, ?_⟩
  exact fun g hg hk hstop => hall g (.inl (List.mem_filter.mpr ⟨hg, by simp [hk, hstop]⟩))

/-! ### The end of an impression on a core (R106) -/

theorem exec_impressionEnd_marks {g : CoreId} {s : State} {c h : Nat} (hocc : s.occupant g = some c) (hlive : s.live g = true)
    (hstep : (s.ctx c).pos.inStep = true) (hopen : (s.core g).impDone = false) (hdone : s.coreDone g = true)
    (hh : h ∈ s.chaseCoresOf c) (hne : h ≠ g) (hother : (s.core h).impDone = false) :
    exec (.impressionEnd g) s = .next (s.modCore g fun k => { k with impDone := true }) := by
  have hwait : ((s.modCore g fun k => { k with impDone := true }).chaseCoresOf c).all
      (fun h => ((s.modCore g fun k => { k with impDone := true }).core h).impDone) = false :=
    List.all_eq_false.mpr ⟨h, hh, by rw [s.core_modCore_ne hne, hother]; decide⟩
  refine congrArg Host.Outcome.next ?_
  unfold State.impressionEnd
  rw [hocc]
  dsimp only
  rw [if_pos ⟨hlive, hstep, hopen, hdone⟩, if_neg (by rw [hwait]; decide)]

/-! ### Slip requests (R191, R197, R199, R201) -/

theorem TickUnit.gathered_gather_congr {t t' : TickUnit} (h : t.gather = t'.gather) (n g flags : Nat) :
    (t.gathered n g flags).gather = (t'.gathered n g flags).gather := by
  unfold TickUnit.gathered
  rw [h]
  split
  · rfl
  · rfl

theorem TickUnit.gathered_cut (t : TickUnit) (n g flags : Nat) : (t.gathered n g flags).cut = t.cut := by
  unfold TickUnit.gathered; split <;> rfl

/-- What this module notes of its slip request before it sends it: a slip of its own, and a master's gathering. -/
def State.slipNoted (s : State) (c n flags : Nat) : State :=
  let g := s.fget (F.CTX_CFG_TICK_GROUP c)
  let t := if s.slipsAlone c then s.modTck fun t => { t with alone := t.alone ++ [(g, flags)] } else s
  if s.tckRole = rolePrimary ∨ s.tckRole = roleStandby then t.modTck fun t => t.gathered n g flags else t

section
variable (s : State) (c n flags : Nat)

theorem State.slipNoted_frame : s.slipNoted c n flags = { s with tck := (s.slipNoted c n flags).tck } := by
  unfold State.slipNoted
  dsimp only
  split
  · split
    · rfl
    · rfl
  · split
    · rfl
    · rfl

theorem State.slipNoted_cut : (s.slipNoted c n flags).tck.cut = s.tck.cut := by
  unfold State.slipNoted
  dsimp only
  split
  · rw [State.tck_modTck, TickUnit.gathered_cut]
    split
    · rfl
    · rfl
  · split
    · rfl
    · rfl

/-- R201: a standalone module notes the slip as its own. -/
theorem State.slipNoted_alone (h : s.tckRole = roleStandalone) :
    (s.slipNoted c n flags).tck.alone = s.tck.alone ++ [(s.fget (F.CTX_CFG_TICK_GROUP c), flags)] := by
  have halone : s.slipsAlone c = true := by simp [State.slipsAlone, h]
  have hrole : ¬ (s.tckRole = rolePrimary ∨ s.tckRole = roleStandby) := by rw [h]; decide
  simp only [State.slipNoted, halone, if_neg hrole, if_true]
  rfl

/-- R199: a master gathers its own request. -/
theorem State.slipNoted_gather (h : s.tckRole = rolePrimary ∨ s.tckRole = roleStandby) : (s.slipNoted c n flags).tck.gather
    = (s.tck.gathered n (s.fget (F.CTX_CFG_TICK_GROUP c)) flags).gather := by
  simp only [State.slipNoted, if_pos h, State.tck_modTck]
  refine TickUnit.gathered_gather_congr ?_ ..
  split
  · rfl
  · rfl

/-- R191: the request goes to the masters, unless the module is on its own. -/
theorem State.slipRequest_eq : s.slipRequest c n flags = if s.tckRole = roleStandalone then s.slipNoted c n flags
    else s.masters.foldl (fun t f => t.sendControl tySlipReq 7 f
      (leBytes 6 n ++ leBytes 2 (s.fget (F.CTX_CFG_TICK_GROUP c)) ++ leBytes 1 flags)) (s.slipNoted c n flags) := by
  unfold State.slipRequest
  dsimp only
  split
  next halone =>
    have hrole : ¬ (s.tckRole = rolePrimary ∨ s.tckRole = roleStandby) := by rw [halone]; decide
    rw [State.slipNoted, if_neg hrole]
  next =>
    have hmasters : (s.slipNoted c n flags).masters = s.masters := by rw [State.slipNoted_frame]; rfl
    rw [← hmasters]
    rfl

theorem State.slipRequest_sends : OnlySends (s.slipNoted c n flags) (s.slipRequest c n flags) := by
  rw [State.slipRequest_eq]
  split
  · exact .refl _
  · exact foldl_rel .refl .trans (fun t f _ => .sendControl t ..) _

end

/-! ### The cutoff (R197) -/

/-- A fold none of whose steps changes the state it starts from leaves it. -/
theorem foldl_unchanged {σ ι : Type} {f : σ → ι → σ} {s : σ} {l : List ι} (h : ∀ j ∈ l, f s j = s) : l.foldl f s = s := by
  induction l with
  | nil => rfl
  | cons j r ih =>
    rw [List.foldl_cons, h j List.mem_cons_self]
    exact ih fun i hi => h i (List.mem_cons_of_mem _ hi)

theorem State.cutoffCtx_idle {s : State} {d : Nat} (h : s.ctxState d = ctxFree) (n : Nat) : s.cutoffCtx d n = s :=
  if_pos (.inl (by rw [h]; decide))

/-- The overrun of context `c`'s impression is counted, told and marked. -/
def State.overrunTold (s : State) (c : Nat) : State :=
  ((s.fadd F.TCK_OVR_CNT_OVERRUNS 1).raise 0x0402 (some c) 0 [(s.ctx c).pos.imp, s.overrunCause c]).modCtx c fun y =>
    { y with overrun := true }

/-- R197: an impression that has not ended at the cutoff is an overrun, and its group asks for a slip. -/
theorem State.cutoffCtx_overruns {s : State} {c : Nat} (hst : s.ctxState c = ctxRunning) (hstep : (s.ctx c).pos.inStep = true)
    (hposted : (s.ctx c).posted = false) (hlate : s.impEnded c = false) (hfirst : (s.ctx c).overrun = false) (n : Nat) :
    s.cutoffCtx c n = (s.overrunTold c).slipRequest c n (b2n (s.ctx c).retryWant + 2) := by
  have hgo : ¬ (s.ctxState c ≠ ctxRunning ∨ (s.ctx c).pos.inStep = false ∨ (s.ctx c).posted = true) := by
    simp [hst, hstep, hposted]
  unfold State.cutoffCtx
  dsimp only
  rw [if_neg hgo, hlate, hfirst]
  rfl

theorem State.nextTick_modTck (s : State) (f : TickUnit → TickUnit) : (s.modTck f).nextTick = s.nextTick := rfl

/-- R197: where every other context is FREE, the cutoff is that of context `c`. -/
theorem exec_slipCutoff_only {s : State} {c : CtxId} {u : State} (hdue : s.cutoffDue = true)
    (hothers : ∀ d : CtxId, d.val ≠ c → s.ctxState d = ctxFree)
    (hu : State.cutoffCtx (s.modTck fun t => { t with cut := s.nextTick }) c s.nextTick = u)
    (hkeep : ∀ d, u.ctxState d = s.ctxState d) : exec .slipCutoff s = .next u := by
  obtain ⟨a, l, hal⟩ := List.mem_iff_append.mp (List.mem_range.mpr c.isLt)
  have hnd := List.nodup_append.mp (hal ▸ List.nodup_range (n := 8))
  have hfree : ∀ d, d ∈ a ++ c.val :: l → d ≠ c → s.ctxState d = ctxFree := fun d hd hne =>
    hothers ⟨d, List.mem_range.mp (hal ▸ hd)⟩ hne
  refine congrArg Host.Outcome.next ?_
  rw [if_pos hdue, hal, List.foldl_append, List.foldl_cons, foldl_unchanged (l := a), State.nextTick_modTck, hu,
    foldl_unchanged]
  · intro d hd
    refine State.cutoffCtx_idle ((hkeep d).trans (hfree d (List.mem_append_right _ (List.mem_cons_of_mem _ hd)) ?_)) _
    exact fun e => (List.nodup_cons.mp hnd.2.1).1 (e ▸ hd)
  · intro d hd
    have hd' := hfree d (List.mem_append_left _ hd) fun e => hnd.2.2 d hd c.val List.mem_cons_self e
    exact State.cutoffCtx_idle (s := s.modTck fun t => { t with cut := s.nextTick }) hd' _

/-- What tells of an overrun, its event having room: the count, the event and the context's mark. -/
structure TellsOverrun (s u : State) (c : Nat) : Prop where
  frame : u = { s with regs := u.regs, ctxs := u.ctxs, evq := u.evq, evSeq := u.evSeq, evLog := u.evLog }
  regs : u.regs = (s.fadd F.TCK_OVR_CNT_OVERRUNS 1).regs
  marked : (u.ctx c).overrun = true
  event : ∃ e ∈ u.evq, e.says = (0x0402, some c, 0, [(s.ctx c).pos.imp, s.overrunCause c])

theorem State.overrunTold_tells {s : State} (hroom : s.eventRoom 1) (c : Nat) : TellsOverrun s (s.overrunTold c) c := by
  rw [State.overrunTold, State.raise_of_room (s := s.fadd F.TCK_OVR_CNT_OVERRUNS 1) hroom]
  exact ⟨rfl, rfl, by rw [State.ctx_modCtx_same], _, List.mem_append_right _ (List.mem_singleton_self _), rfl⟩

theorem TellsOverrun.fget_ne {s u : State} {c : Nat} (h : TellsOverrun s u c) {p : Fld} (hp : p.off ≠ R.TCK_OVR_CNT) :
    u.fget p = s.fget p := (State.fget_of_regs h.regs p).trans (s.fget_fadd_reg hp 1)

theorem TellsOverrun.sameFabric {s u : State} {c : Nat} (h : TellsOverrun s u c) : SameFabric s u where
  links := by rw [h.frame]
  routes := by rw [h.frame]
  out := by rw [h.frame]
  regs o ho := (State.rget_of_regs h.regs o).trans (s.rget_fadd_ne (f := F.TCK_OVR_CNT_OVERRUNS) (p := o)
    (fun e => by rw [e] at ho; exact absurd ho (by decide)) 1)

/-- R197: an impression that has not ended at the cutoff. -/
theorem exec_slipCutoff_overruns {s : State} {c : CtxId} (hdue : s.cutoffDue = true) (hothers : OnlyContext s c)
    (hst : s.ctxState c = ctxRunning) (hstep : (s.ctx c).pos.inStep = true) (hposted : (s.ctx c).posted = false)
    (hlate : s.impEnded c = false) (hfirst : (s.ctx c).overrun = false) (hroom : s.eventRoom 1) :
    ∃ v, TellsOverrun (s.modTck fun t => { t with cut := s.nextTick }) v c
      ∧ exec .slipCutoff s = .next (v.slipRequest c s.nextTick (b2n (s.ctx c).retryWant + 2)) := by
  have hcut : SameButTick s (s.modTck fun t => { t with cut := s.nextTick }) := .modTck s rfl rfl rfl
  have htells := State.overrunTold_tells (s := s.modTck fun t => { t with cut := s.nextTick }) hroom c
  have hover := State.cutoffCtx_overruns (s := s.modTck fun t => { t with cut := s.nextTick }) (c := c) hst hstep hposted
    ((hcut.impEnded c).trans hlate) hfirst s.nextTick
  generalize State.overrunTold _ c.val = v at htells hover
  refine ⟨v, htells, exec_slipCutoff_only hdue (fun d hd => (hothers d hd).1) hover fun d => ?_⟩
  have hsends := v.slipRequest_sends c s.nextTick (b2n (s.ctx c).retryWant + 2)
  have hnoted := v.slipNoted_frame c s.nextTick (b2n (s.ctx c).retryWant + 2)
  calc (v.slipRequest c s.nextTick (b2n (s.ctx c).retryWant + 2)).ctxState d
      = (v.slipNoted c s.nextTick (b2n (s.ctx c).retryWant + 2)).ctxState d :=
        hsends.fget_high (p := F.CTX_STAT_STATE d) (Nat.le_add_right 28 3) (Nat.le_add_right 0x1000 (64 * d))
    _ = v.ctxState d := by rw [hnoted]; rfl
    _ = s.ctxState d := htells.fget_ne (p := F.CTX_STAT_STATE d) (by dsimp only [R.CTX_STAT, R.TCK_OVR_CNT]; omega)

/-! ### The statement -/

/-- Settles O32: a ramp group's cores start one by one, and what starts one leaves the others; the end of an impression on one
core and the cutoff are the rules above. That the masters gather the requests, and that a primary sends its own to the standby
(entry 56), and the DATA of event 0x0402 (entry 31) are the model's choices. -/
theorem impressionsStartAndEnd : Obligations.ImpressionsStartAndEnd := by
  unfold Obligations.ImpressionsStartAndEnd
  refine ⟨fun c k s f hst hran htime hf hstreams hended hidle => ?ramp,
    fun g s c h hocc hlive hstep hopen hdone hh hne hother => ?ended,
    fun c s hdue hothers hst hstep hposted hlate hfirst hroom => ?cutoff⟩
  case ramp =>
    obtain ⟨u, hexec, hramp, hstarted⟩ := exec_rampStart_starts hst hran htime hf hstreams hended hidle
    refine ⟨u, hexec, fun g hg hk => ?_, fun g hg r hk hstop hrest hr => (hstarted g hg hk hstop).2 hrest r hr,
      hramp.others, by rw [hramp.frame], by rw [hramp.frame]⟩
    by_cases hstop : (s.core g).stopped = true
    · exact (hstarted g hg hk hstop).1
    · exact hramp.stopped g (Bool.eq_false_iff.mpr hstop)
  case ended =>
    exact ⟨_, exec_impressionEnd_marks hocc hlive hstep hopen hdone hh hne hother, by rw [s.core_modCore_same],
      .modCore s g _⟩
  case cutoff =>
    intro n g flags
    obtain ⟨v, htells, hexec⟩ := exec_slipCutoff_overruns hdue hothers hst hstep hposted hlate hfirst hroom
    have hrole : v.tckRole = s.tckRole := htells.fget_ne (by decide)
    have hgroup : v.fget (F.CTX_CFG_TICK_GROUP c) = g :=
      htells.fget_ne (by dsimp only [R.CTX_CFG, R.TCK_OVR_CNT]; omega)
    have hmasters : v.masters = s.masters := by
      rw [State.masters, State.masters, hrole, htells.fget_ne (by decide), htells.fget_ne (by decide)]
      rfl
    have htck : v.tck = { s.tck with cut := n } := by rw [htells.frame]; rfl
    have hnoted := v.slipNoted_frame c n flags
    have hsends := v.slipRequest_sends c n flags
    refine ⟨_, hexec, ?_, ?_, ?_, ?_, ?_, ?_, fun h => ?_, fun h => ?_, fun f h hf => ?_⟩
    · rw [State.ctx_of_ctxs (hsends.ctxs.trans (by rw [hnoted]))]
      exact htells.marked
    · rw [hsends.tck, State.slipNoted_cut, htck]
    · rw [Bumped, hsends.fget_high (by decide) (by decide), hnoted]
      exact (State.fget_of_regs htells.regs _).trans (State.fget_fadd_self _ _ (by decide))
    · obtain ⟨e, he, hsays⟩ := htells.event
      refine ⟨e, hsends.evq.subset ?_, hsays⟩
      rw [hnoted]
      exact he
    · rw [hsends.mem, hnoted, htells.frame]
      rfl
    · rw [hsends.cores, hnoted, htells.frame]
      rfl
    · rw [hsends.tck, v.slipNoted_alone c n flags (hrole.trans h), hgroup, htck]
    · rw [hsends.tck, v.slipNoted_gather c n flags (by rw [hrole]; exact h), hgroup]
      exact TickUnit.gathered_gather_congr (by rw [htck]) ..
    · have hfabric : SameFabric s (v.slipNoted c n flags) := by
        rw [hnoted]
        obtain ⟨hlinks, hroutes, hout, hregs⟩ := htells.sameFabric
        exact ⟨hlinks, hroutes, hout, hregs⟩
      rw [v.slipRequest_eq, if_neg (by rw [hrole]; exact h), hmasters, hf, hgroup, List.foldl_cons, List.foldl_nil]
      exact hfabric.sendControl_out (by decide) ..

end Sys2Proof.Machine
end

section
/-!
PROOFS. The cells of the tick unit (R187, R188, R190, R191, R257), and the statement TickCellsDiscipline.
-/

namespace Sys2Proof.Machine

/-- The number of bytes `l` is below 256 to their count. -/
theorem leNat_lt (l : List Byte) : leNat l < 256 ^ l.length := by
  induction l with
  | nil => exact Nat.one_pos
  | cons b r ih =>
    have hb : b.toNat < 256 := b.isLt
    rw [leNat, List.length_cons, Nat.pow_succ]
    omega

theorem leAt_lt (l : List Byte) (off n : Nat) : leAt l off n < 256 ^ n := by
  simpa only [leAt, slice_length] using leNat_lt (slice l off n)

/-! ### A master's cells (R187) -/

/-- R187: where one follower is known, and the groups fit one cell, one cell is sent. -/
theorem State.tickCells_one {s : State} {f t n : Nat} (hone : s.tck.followers = [(f, t)]) (hrecent : s.tick ≤ t + 64)
    {gs : List Nat} (hgs : ((s.tck.gather.filter fun x => x.1 == n).map (·.2.1)).dedup = gs) (hfit : gs.length ≤ 112) :
    s.tickCells n = s.sendControl tyTick 7 f (s.tickPayload n gs false) := by
  have hparts : (if gs.isEmpty then [[]] else chunks 112 ((gs.length + 111) / 112) gs) = [gs] := by
    cases gs with
    | nil => rfl
    | cons g r =>
      have hcount : ((g :: r).length + 111) / 112 = 1 := by rw [List.length_cons] at hfit ⊢; omega
      rw [hcount, chunks, chunks, List.take_of_length_le hfit]
      rfl
  unfold State.tickCells
  dsimp only
  rw [hgs, hparts]
  simp [hone, hrecent]

theorem exec_tickCellSend_sends {s : State} {f t : Nat} (hdue : s.closeDue = true) (hone : s.tck.followers = [(f, t)])
    (hrecent : s.tick ≤ t + 64) {gs : List Nat}
    (hgs : ((s.tck.gather.filter fun x => x.1 == s.nextTick).map (·.2.1)).dedup = gs) (hfit : gs.length ≤ 112) :
    exec .tickCellSend s = .next ((s.sendControl tyTick 7 f (s.tickPayload s.nextTick gs false)).modTck
      fun t => { t with closed := s.nextTick }) := by
  rw [← State.tickCells_one hone hrecent hgs hfit]
  exact congrArg Host.Outcome.next (if_pos hdue)

/-! ### The path's measurement (R188, R257) -/

/-- R257: a stamp lies within the microsecond of the clock. -/
theorem State.stampNs_bounds (s : State) : s.nowNs ≤ s.stampNs.2 ∧ s.stampNs.2 < s.nowNs + 1000 := by
  constructor
  · exact Nat.le_add_right _ _
  · exact Nat.add_lt_add_left (Nat.mod_lt _ (by decide)) _

theorem State.stampNs_fst (s : State) : s.stampNs.1 = { s with free := s.free + 1 } := rfl

/-- The follower's measurement of its path begins. -/
def State.measures (s : State) : State :=
  s.modTck fun t => { t with delayAt := some s.timeUs, delayPorts := s.masters.map fun f => s.portFor f 7 }

theorem exec_delayMeasurement_first {s : State} {f : Nat} (hon : s.tckState ≠ tckOff) (hfollows : s.follows = true)
    (hnone : s.tck.delayAt = none) (hone : s.masters = [f]) :
    exec .delayMeasurement s
      = .next (s.measures.stampNs.1.sendControl tyDelayReq 7 f (leBytes 8 s.measures.stampNs.2)) := by
  have hzip : ∃ x, ([f].zip [s.portFor f 7]).zip (s.tck.delayPorts ++ List.replicate 2 none) = [((f, s.portFor f 7), x)] := by
    cases s.tck.delayPorts with
    | nil => exact ⟨_, rfl⟩
    | cons x r => exact ⟨x, rfl⟩
  obtain ⟨x, hzip⟩ := hzip
  change execDelayMeasurement s = _
  simp only [execDelayMeasurement, State.measures, hone, hnone, List.map_cons, List.map_nil, hzip, Bool.true_or,
    List.filter_cons, if_true, List.filter_nil]
  rw [if_pos ⟨hon, hfollows, by simp⟩]
  rfl

/-! ### The discipline of the time base (R190) -/

/-- The unit as a whole list from the primary leaves it while it acquires: its tick, the next tick's target and the period. -/
def State.acquired (s : State) (n : Nat) (est : Int) (period cut off good : Nat) : State :=
  ((({ (s.modTck fun t => { t with lastAt := s.timeUs }).rset R.TCK_OFFSET off with tick := (n + 2 ^ 48 - 1) % 2 ^ 48 }).modTck
    fun t => { t with nextNs := est.toNat, good := good }).fset F.TCK_PERIOD_PERIOD_US period).fset F.TCK_PERIOD_SLIP_CUT cut

theorem State.discipline_acquiring {s : State} (hst : s.tckState = tckAcquiring) (hsrc : s.fget F.TCK_STAT_SRC = 0) (n : Nat)
    (est : Int) (period cut : Nat) : ∃ off good, s.discipline 0 n est period cut
      = if 8 ≤ good then (s.acquired n est period cut off good).setTck tckLocked else s.acquired n est period cut off good := by
  unfold State.discipline
  extract_lets st heard back switched s1 s2 off first measured good aimed disciplined
  have hback : ¬ back = true := by simp [back, st, hst, tckAcquiring, tckHoldover, tckLost]
  have hheard : s2 = heard := (if_neg hback).trans (if_neg hback)
  have hsrc' : ¬ 0 ≠ s2.fget F.TCK_STAT_SRC := by
    rw [hheard]
    exact fun h => h hsrc.symm
  have hst' : measured.tckState = tckAcquiring := by
    refine (State.fget_rset_reg s2 (by decide) _).trans ?_
    rw [hheard]
    exact hst
  have hdone : disciplined = s.acquired n est period cut (wrap 32 off) good := by
    simp only [disciplined, aimed, measured, hheard]
    rfl
  rw [if_neg hsrc', if_pos hst', hdone]
  exact ⟨wrap 32 off, good, rfl⟩

/-- R190: what a whole list from the primary leaves of an acquiring unit. -/
structure Disciplined (s u : State) (n : Nat) (est : Int) (period cut : Nat) : Prop where
  frame : u = { s with tick := (n + 2 ^ 48 - 1) % 2 ^ 48, tck := u.tck, regs := u.regs }
  lastAt : u.tck.lastAt = s.timeUs
  nextNs : u.tck.nextNs = est.toNat
  period : u.periodUs = period % 2 ^ 14
  cut : u.cutUs = cut % 2 ^ 8

theorem State.acquired_disciplined (s : State) (n : Nat) (est : Int) (period cut off good : Nat) :
    Disciplined s (s.acquired n est period cut off good) n est period cut where
  frame := rfl
  lastAt := rfl
  nextNs := rfl
  period := by
    rw [State.periodUs, State.acquired, State.fget_fset_apart _ cut (by decide), State.fget_fset_cut _ _ (by decide)]
  cut := by rw [State.cutUs, State.acquired, State.fget_fset_cut _ _ (by decide)]

theorem Disciplined.setTck {s u : State} {n : Nat} {est : Int} {period cut : Nat} (h : Disciplined s u n est period cut)
    (v : Nat) : Disciplined s (u.setTck v) n est period cut := by
  obtain ⟨hframe, hlast, hnext, hperiod, hcut⟩ := h
  refine ⟨?_, hlast, hnext, (u.fget_fset_of_apart (by decide) v).trans hperiod, (u.fget_fset_of_apart (by decide) v).trans hcut⟩
  rw [hframe]
  rfl

theorem State.discipline_disciplines {s : State} (hst : s.tckState = tckAcquiring) (hsrc : s.fget F.TCK_STAT_SRC = 0)
    (n : Nat) (est : Int) (period cut : Nat) : Disciplined s (s.discipline 0 n est period cut) n est period cut := by
  obtain ⟨off, good, heq⟩ := s.discipline_acquiring hst hsrc n est period cut
  have hacq := s.acquired_disciplined n est period cut off good
  rw [heq]
  split
  · exact hacq.setTck _
  · exact hacq

/-- R190: a tick cell of the primary that is a whole list disciplines the unit. -/
theorem State.tickCell_disciplines {s : State} {src : Nat} {pl : List Byte} (hst : s.tckState = tckAcquiring)
    (hfollows : s.follows = true) (hsrc : src = s.fget F.TCK_PRI_FAB_FAB) (hlists : s.tck.lists = [])
    (hflags : leAt pl 6 1 = 0) (p at_ : Nat) : ∃ l, s.tickCell p src pl at_ =
      (s.modTck fun t => { t with lists := l }).discipline 0 (leAt pl 0 6)
        ((at_ : Int) + 500 * leAt pl 18 1 - s.tck.delays.get 0 p) (leAt pl 16 2) (leAt pl 18 1) := by
  have hon : ¬ (s.tckState = tckOff ∨ s.follows = false) := by simp [hst, hfollows, tckAcquiring, tckOff]
  unfold State.tickCell
  simp only [if_pos hsrc, if_neg hon, hlists, hflags, List.find?_nil]
  exact ⟨_, rfl⟩

/-! ### The measurement's answer and slip requests (R191, R257) -/

/-- R257: a master's answer to DELAY_REQ. -/
theorem State.delayReq_answers {s : State} (hon : s.tckState ≠ tckOff)
    (hrole : s.tckRole = rolePrimary ∨ s.tckRole = roleStandby) (src : Nat) (pl : List Byte) (at_ : Nat) :
    let t := s.modTck fun t => { t with followers := t.followers.filter (fun f => f.1 != src) ++ [(src, s.tick)] }
    s.delayReq src pl at_ = t.stampNs.1.sendControl tyDelayResp 7 src
      (slice pl 0 8 ++ leBytes 8 at_ ++ leBytes 8 (Nat.max at_ t.stampNs.2)) :=
  if_pos ⟨hon, hrole⟩

theorem TickUnit.gathered_asks (t : TickUnit) (n g flags : Nat) :
    ∃ fl, (n, g, fl) ∈ (t.gathered n g flags).gather ∧ fl ||| flags = fl := by
  unfold TickUnit.gathered
  split
  next hany =>
    obtain ⟨x, hx, hof⟩ := List.any_eq_true.mp hany
    obtain ⟨hn, hg⟩ : x.1 = n ∧ x.2.1 = g := by simpa using hof
    exact ⟨x.2.2 ||| flags, List.mem_map.mpr ⟨x, hx, if_pos ⟨hn, hg⟩⟩, by rw [Nat.or_assoc, Nat.or_self]⟩
  next => exact ⟨flags, List.mem_append_right _ (List.mem_singleton_self _), Nat.or_self _⟩

/-! ### The statement -/

theorem State.pop_sameCompute (s : State) (p : Nat) : SameCompute s (s.pop p) := ⟨rfl, rfl, rfl, rfl⟩

/-- R190: a tick cell of the primary reaches an acquiring follower. -/
theorem exec_tickCell_disciplines {s : State} {p : PortId} {c : Cell} {raw : List Byte} (hpass : ControlPasses s raw)
    (hfront : s.front p tyTick = some (c, raw)) (hst : s.tckState = tckAcquiring) (hfollows : s.follows = true)
    (hsrc : s.fget F.TCK_STAT_SRC = 0) (hpri : c.src = s.fget F.TCK_PRI_FAB_FAB) (hlists : s.tck.lists = [])
    (hflags : leAt c.payload 6 1 = 0) (at_ : Nat) : ∃ l u, exec (.tickCell p at_) s = .next u
      ∧ Disciplined ((s.pop p).modTck fun t => { t with lists := l }) u (leAt c.payload 0 6)
        ((at_ : Int) + 500 * leAt c.payload 18 1 - s.tck.delays.get 0 p) (leAt c.payload 16 2) (leAt c.payload 18 1) := by
  obtain ⟨l, hl⟩ := State.tickCell_disciplines (s := s.pop p) hst hfollows hpri hlists hflags p at_
  refine ⟨l, _, congrArg Host.Outcome.next (State.control_of_passes hfront hpass _), ?_⟩
  rw [hl]
  exact State.discipline_disciplines (s := (s.pop p).modTck fun t => { t with lists := l }) hst hsrc ..

/-- R257: DELAY_REQ reaches a master. -/
theorem exec_delayReq_answers {s : State} {p : PortId} {c : Cell} {raw : List Byte} (hpass : ControlPasses s raw)
    (hfront : s.front p tyDelayReq = some (c, raw)) (hon : s.tckState ≠ tckOff)
    (hrole : s.tckRole = rolePrimary ∨ s.tckRole = roleStandby) (at_ : Nat) :
    ∃ u, exec (.delayReq p at_) s = .next u ∧ (c.src, s.tick) ∈ u.tck.followers ∧ SameCompute s u
      ∧ ∃ n, s.nowNs ≤ n ∧ n < s.nowNs + 1000 ∧ u.out = ((s.pop p).sendControl tyDelayResp 7 c.src
          (slice c.payload 0 8 ++ leBytes 8 at_ ++ leBytes 8 (Nat.max at_ n))).out := by
  have hans := State.delayReq_answers (s := s.pop p) hon hrole c.src c.payload at_
  refine ⟨_, congrArg Host.Outcome.next (State.control_of_passes hfront hpass _), ?_⟩
  dsimp only at hans ⊢
  rw [hans]
  generalize hv : (s.pop p).modTck _ = v
  have hmem : (c.src, s.tick) ∈ v.tck.followers := by
    rw [← hv]
    exact List.mem_append_right _ (List.mem_singleton_self _)
  have hcompute : SameCompute s v := by
    rw [← hv]
    exact (s.pop_sameCompute p).modTck _
  have hfabric : SameFabric (s.pop p) v.stampNs.1 := by
    rw [← hv]
    exact ⟨rfl, rfl, rfl, fun _ _ => rfl⟩
  have hnow : v.nowNs = s.nowNs := by rw [← hv]; rfl
  have hsends := OnlySends.sendControl v.stampNs.1 tyDelayResp 7 c.src
    (slice c.payload 0 8 ++ leBytes 8 at_ ++ leBytes 8 (Nat.max at_ v.stampNs.2))
  have hbounds := v.stampNs_bounds
  rw [hnow] at hbounds
  refine ⟨?_, (hcompute.trans ⟨rfl, rfl, rfl, rfl⟩).trans hsends.sameCompute, v.stampNs.2, hbounds.1, hbounds.2,
    hfabric.sendControl_out (by decide) ..⟩
  rw [hsends.tck]
  exact hmem

/-- R257: DELAY_RESP reaches a follower. -/
theorem exec_delayResp_notes {s : State} {p : PortId} {c : Cell} {raw : List Byte} (hpass : ControlPasses s raw)
    (hfront : s.front p tyDelayResp = some (c, raw)) (hon : s.tckState ≠ tckOff) (hfollows : s.follows = true) (at_ : Nat)
    {d : Int} (hd : (((at_ : Int) - leAt c.payload 0 8) - ((leAt c.payload 16 8 : Int) - leAt c.payload 8 8)) / 2
      + sext 16 (s.fget (F.TCK_ASYM_ASYM_NS p)) = d) :
    ∃ u, exec (.delayResp p at_) s = .next u ∧ u.tck.delays.get 0 p = d ∧ SameCompute s u
      ∧ (500 * (s.cutUs : Int) - 500 < d → u.fget F.TCK_STAT_PATH_LONG = 1) := by
  have heff : (s.pop p).delayResp p c.payload at_ =
      if 500 * (s.cutUs : Int) - 500 < d then
        ((((s.pop p).modTck fun t => { t with delays := t.delays.set p d }).fset F.TCK_STAT_PATH_LONG 1).raise 0x0409 none p [])
      else (s.pop p).modTck fun t => { t with delays := t.delays.set p d } := by
    rw [← hd]
    exact if_pos ⟨hon, hfollows⟩
  refine ⟨_, congrArg Host.Outcome.next (State.control_of_passes hfront hpass _), ?_⟩
  rw [heff]
  have hcompute := (s.pop_sameCompute p).modTck fun t => { t with delays := t.delays.set p d }
  split
  · refine ⟨?_, (hcompute.fset _ _).raise .., fun _ => ?_⟩
    · rw [(OnlySends.raise ..).tck]
      exact Tbl.get_set_same ..
    · rw [State.fget_raise _ (by decide) (by decide), State.fget_fset_self _ (by decide) (by decide)]
  next hshort => exact ⟨Tbl.get_set_same .., hcompute, fun h => absurd h hshort⟩

/-- R191, R199: SLIP_REQ reaches a master. -/
theorem exec_slipReq_delivers {s : State} {p : PortId} {c : Cell} {raw : List Byte} (hpass : ControlPasses s raw)
    (hfront : s.front p tySlipReq = some (c, raw)) (hon : s.tckState ≠ tckOff)
    (hrole : s.tckRole = rolePrimary ∨ s.tckRole = roleStandby) : exec (.slipReq p) s = .next
      (if leAt c.payload 0 6 ≤ s.tick ∨ leAt c.payload 0 6 = s.tck.closed then (s.pop p).fadd F.TCK_OVR_CNT_LATE 1
      else (s.pop p).modTck fun t => t.gathered (leAt c.payload 0 6) (leAt c.payload 6 2) (bits (leAt c.payload 8 1) 1 0)) := by
  have hgo : ¬ ((s.pop p).tckState = tckOff ∨ ((s.pop p).tckRole ≠ rolePrimary ∧ (s.pop p).tckRole ≠ roleStandby)) := by
    rintro (h | ⟨h, h'⟩)
    · exact hon h
    · exact hrole.elim h h'
  refine congrArg Host.Outcome.next ((State.control_of_passes hfront hpass _).trans ?_)
  exact if_neg hgo

/-- Settles O34: each clause is a rule above, a cell's after it has passed R250. The estimate of the offset and the delay's
rounding (entry 57), and the free nanoseconds of the stamps T1 and T3 (entry 97), are the model's choices. -/
theorem tickCellsDiscipline : Obligations.TickCellsDiscipline := by
  unfold Obligations.TickCellsDiscipline
  intro s
  refine ⟨fun f t hdue hone hrecent => ?list, fun f hon hfollows hnone hone => ?measure,
    fun p at_ c raw hpass => ⟨fun hfront hst hfollows hsrc hpri hlists hflags => ?tick,
      fun hfront hon hrole => exec_delayReq_answers hpass hfront hon hrole at_,
      fun hfront hon hfollows => exec_delayResp_notes hpass hfront hon hfollows at_ rfl,
      fun hfront hon hrole => ⟨fun hopen hnew => ?joins, fun hlate => ?late⟩⟩⟩
  case list =>
    intro gs hfit
    refine ⟨_, exec_tickCellSend_sends hdue hone hrecent rfl hfit, rfl, rfl, ?_⟩
    exact (OnlySends.sendControl s ..).sameCompute.modTck _
  case measure =>
    have hsends := OnlySends.sendControl s.measures.stampNs.1 tyDelayReq 7 f (leBytes 8 s.measures.stampNs.2)
    have hfabric : SameFabric s s.measures.stampNs.1 := ⟨rfl, rfl, rfl, fun _ _ => rfl⟩
    have hcompute : SameCompute s s.measures.stampNs.1 := ⟨rfl, rfl, rfl, rfl⟩
    have hbounds := s.measures.stampNs_bounds
    refine ⟨_, exec_delayMeasurement_first hon hfollows hnone hone, ?_, ?_, hcompute.trans hsends.sameCompute,
      s.measures.stampNs.2, hbounds.1, hbounds.2, hfabric.sendControl_out (by decide) ..⟩
    · rw [hsends.tck]
      rfl
    · rw [hsends.tck, State.stampNs_fst, State.measures, hone]
      rfl
  case tick =>
    obtain ⟨l, u, hexec, hframe, hlast, hnext, hperiod, hcut⟩ :=
      exec_tickCell_disciplines hpass hfront hst hfollows hsrc hpri hlists hflags at_
    refine ⟨u, hexec, by rw [hframe], hnext, hperiod, ?_, hlast, ?_, ?_⟩
    · exact hcut.trans (Nat.mod_eq_of_lt (leAt_lt c.payload 18 1))
    · rw [hframe]
      exact s.pop_rxq p
    · rw [hframe]
      exact ⟨rfl, rfl, rfl, rfl⟩
  case joins =>
    have hgo : ¬ (leAt c.payload 0 6 ≤ s.tick ∨ leAt c.payload 0 6 = s.tck.closed) := not_or.mpr ⟨Nat.not_le.mpr hopen, hnew⟩
    have hexec := exec_slipReq_delivers hpass hfront hon hrole
    rw [if_neg hgo] at hexec
    exact ⟨_, hexec, (s.pop_sameCompute p).modTck _, rfl, TickUnit.gathered_asks ..⟩
  case late =>
    have hexec := exec_slipReq_delivers hpass hfront hon hrole
    rw [if_pos hlate] at hexec
    exact ⟨_, hexec, rfl, ⟨rfl, rfl, rfl, rfl⟩, (s.pop p).fget_fadd_self 1 (by decide)⟩

end Sys2Proof.Machine
end

section
/-!
PROOFS. The proof pass (R178, R179, R209): what a completion and an installation leave as they were, and the statement
ProofPassInstallsOrRefuses.
-/

namespace Sys2Proof.Machine

/-! ### What a completion leaves as it was -/

/-- A completion keeps what of its context depends neither on the rings nor on the backlog. -/
theorem State.complete_ctx_view {α : Type} {view : Ctx → α} (hrings : ∀ x l, view { x with rings := l } = view x)
    (hlog : ∀ x l, view { x with backlog := l } = view x) (hfull : ∀ x, view { x with backlogFull := true } = view x)
    (s : State) (c r status detail value : Nat) : view ((s.complete c r status detail value).ctx c) = view (s.ctx c) := by
  have hnote : ∀ t : State, view ((t.noteBacklog c).ctx c) = view (t.ctx c) := fun t => by
    unfold State.noteBacklog
    split
    · rw [State.ctx_of_ctxs (State.raise_ctxs ..), State.ctx_modCtx_same, hfull]
    · rfl
  cases h : (s.ring c r).cur with
  | none => rw [State.complete_none _ _ _ h]
  | some k =>
    rw [State.complete_some _ _ _ h, State.pushRec, hnote, State.ctx_modCtx_same, hlog, State.modRing, State.ctx_modCtx_same,
      hrings, State.ctx_of_ctxs (s.uncounted_ctxs _)]

theorem State.evq_prefix_complete (s : State) (c r status detail value : Nat) :
    s.evq <+: (s.complete c r status detail value).evq := by
  have hnote : ∀ t : State, t.evq <+: (t.noteBacklog c).evq := fun t => by
    unfold State.noteBacklog
    split
    · exact (t.modCtx c fun x => { x with backlogFull := true }).evq_prefix_raise ..
    · exact List.prefix_rfl
  have huncounted : ∀ st, (s.uncounted st).evq = s.evq := fun st => by rw [s.uncounted_frame]
  cases h : (s.ring c r).cur with
  | none => rw [State.complete_none _ _ _ h]
  | some k =>
    rw [State.complete_some _ _ _ h, ← huncounted k.stage, State.pushRec]
    refine List.IsPrefix.trans ?_ (hnote _)
    exact List.prefix_rfl

theorem State.complete_ctxState (s : State) (c r status detail value : Nat) (d : Nat) :
    (s.complete c r status detail value).ctxState d = s.ctxState d :=
  s.complete_fget c r status detail value (ctxStat_apart d (by decide)) (ctxStat_apart d (by decide))
    (ctxStat_apart d (by decide))

/-! ### What follows an installation (R149, R193, R309) -/

/-- Nothing differs but the ways' owners, the dies, the contexts and the event queue with what records it; of context `c`, its
state, forme, image, rings and backlog are as they were. -/
structure KeepsForme (c : CtxId) (t u : State) : Prop where
  frame : u = { t with regs := u.regs, dies := u.dies, ctxs := u.ctxs, evq := u.evq, evSeq := u.evSeq, evLog := u.evLog }
  state : u.ctxState c = t.ctxState c
  forme : (u.ctx c).forme = (t.ctx c).forme
  loading : (u.ctx c).loading = (t.ctx c).loading
  rings : (u.ctx c).rings = (t.ctx c).rings
  backlog : (u.ctx c).backlog = (t.ctx c).backlog

section
variable {c : CtxId}

theorem KeepsForme.refl (t : State) : KeepsForme c t t := ⟨rfl, rfl, rfl, rfl, rfl, rfl⟩

theorem KeepsForme.trans {t u v : State} (h : KeepsForme c t u) (h' : KeepsForme c u v) : KeepsForme c t v where
  frame := h'.frame.trans (by rw [h.frame])
  state := h'.state.trans h.state
  forme := h'.forme.trans h.forme
  loading := h'.loading.trans h.loading
  rings := h'.rings.trans h.rings
  backlog := h'.backlog.trans h.backlog

/-- R149: a way changes its owner, and its lines leave it. -/
theorem KeepsForme.lockWay (t : State) (d w v : Nat) (f : Die → Die) :
    KeepsForme c t ((t.fset (F.DC_WAYLOCK_WAY_OWNER d (w / 8) (w % 8)) v).modDie d f) := by
  refine ⟨rfl, ?_, rfl, rfl, rfl, rfl⟩
  exact t.fget_fset_reg (f := F.DC_WAYLOCK_WAY_OWNER d (w / 8) (w % 8)) (p := F.CTX_STAT_STATE c)
    (by dsimp only [R.CTX_STAT, R.DC_WAYLOCK, dieBase]; omega) v

theorem KeepsForme.unlockWays (t : State) (d : Nat) : KeepsForme c t (t.unlockWays d) := by
  refine foldl_rel .refl .trans (fun u e _ => foldl_rel .refl .trans (fun v w _ => ?_) u) t
  dsimp only
  split
  · exact .lockWay v ..
  · exact .refl v

theorem KeepsForme.lockForme (t : State) (d : Nat) (f : Forme) : KeepsForme c t (t.lockForme d f) :=
  foldl_rel .refl .trans (fun u _ _ => foldl_rel .refl .trans (fun v _ _ => .lockWay v ..) u) t

theorem KeepsForme.raise (t : State) (code : Nat) (x : Option Nat) (unit : Nat) (data : List Nat) :
    KeepsForme c t (t.raise code x unit data) := by
  have hctx : (t.raise code x unit data).ctx c = t.ctx c := State.ctx_of_ctxs (t.raise_ctxs ..) c
  refine ⟨?_, t.fget_raise (ctxStat_apart c (by decide)) (ctxStat_apart c (by decide)) .., ?_, ?_, ?_, ?_⟩
  · unfold State.raise
    split
    · rfl
    · rfl
  · rw [hctx]
  · rw [hctx]
  · rw [hctx]
  · rw [hctx]

/-- An update of the context that keeps its forme, image, rings and backlog. -/
theorem KeepsForme.modCtx (t : State) {f : Ctx → Ctx} (hforme : ∀ x, (f x).forme = x.forme)
    (hloading : ∀ x, (f x).loading = x.loading) (hrings : ∀ x, (f x).rings = x.rings) (hlog : ∀ x, (f x).backlog = x.backlog) :
    KeepsForme c t (t.modCtx c f) := by
  refine ⟨rfl, rfl, ?_, ?_, ?_, ?_⟩
  · rw [State.ctx_modCtx_same, hforme]
  · rw [State.ctx_modCtx_same, hloading]
  · rw [State.ctx_modCtx_same, hrings]
  · rw [State.ctx_modCtx_same, hlog]

end

/-! ### The installation (R179) -/

/-- The proven forme in its slot, its image in the forme area. -/
def State.formeSet (s : State) (c : Nat) (f : Forme) (img : List Byte) : State :=
  (s.memWrite f.area.base img none).1.modCtx c fun x => { x with forme := some f, unfit := false, migIn := false }

/-- R179, R309: the ways and the implicit imposition of an admitted context follow its forme. -/
theorem State.installForme_admitted {s : State} {c : CtxId} (hst : s.ctxState c ≠ ctxFree ∧ s.ctxState c ≠ ctxLoaded)
    (f : Forme) (img : List Byte) : KeepsForme c (s.formeSet c f img) (s.installForme c f img) := by
  have hadm : (s.ctxState c != ctxFree && s.ctxState c != ctxLoaded) = true := by simp [hst]
  have hlocked := (KeepsForme.unlockWays (c := c) (s.formeSet c f img) c).trans (.lockForme _ c f)
  unfold State.installForme
  extract_lets admitted s1 s2 s3
  rw [if_pos hadm]
  split
  next i hi =>
    split
    · exact hlocked.trans (.modCtx _ (fun _ => by rfl) (fun _ => by rfl) (fun _ => by rfl) fun _ => by rfl)
    · exact hlocked
  · exact hlocked

/-- R179: a forme that is not admitted is LOADED. -/
theorem State.installForme_loads {s : State} {c : Nat} (hst : s.ctxState c = ctxFree ∨ s.ctxState c = ctxLoaded) (f : Forme)
    (img : List Byte) : s.installForme c f img = if (s.formeSet c f img).ctxState c = ctxFree then
      (s.formeSet c f img).setCtxState c ctxLoaded else s.formeSet c f img := by
  have hadm : ¬ (s.ctxState c != ctxFree && s.ctxState c != ctxLoaded) = true := by
    rcases hst with h | h <;> simp [h]
  exact if_neg hadm

theorem State.ctx_setCtxState (s : State) (d v c : Nat) : (s.setCtxState d v).ctx c = s.ctx c := rfl

theorem State.formeSet_eq {s : State} (hclean : s.clean) (c : Nat) (f : Forme) (img : List Byte) :
    ∃ d, s.formeSet c f img = { s with mem := memPutList s.mem f.area.base img, dies := d }.modCtx c
      fun x => { x with forme := some f, unfit := false, migIn := false } := by
  obtain ⟨m, d, hwrite⟩ := State.memWrite_clean_frame hclean f.area.base img none
  have hmem := (State.memWrite_clean hclean.1 hclean.2 f.area.base img none).2
  rw [hwrite] at hmem
  obtain rfl : m = memPutList s.mem f.area.base img := hmem
  exact ⟨d, by rw [State.formeSet, hwrite]⟩

/-- The forme `f` of image `img` is context `c`'s. -/
structure Installed (c : CtxId) (f : Forme) (img : List Byte) (s u : State) : Prop where
  frame : u = { s with mem := u.mem, regs := u.regs, dies := u.dies, ctxs := u.ctxs, evq := u.evq, evSeq := u.evSeq,
                       evLog := u.evLog }
  mem : u.mem = memPutList s.mem f.area.base img
  state : u.ctxState c = if s.ctxState c = ctxFree then ctxLoaded else s.ctxState c
  forme : (u.ctx c).forme = some f
  loading : (u.ctx c).loading = (s.ctx c).loading
  rings : (u.ctx c).rings = (s.ctx c).rings
  backlog : (u.ctx c).backlog = (s.ctx c).backlog

section
variable {c : CtxId} {f : Forme} {img : List Byte} {s : State}

theorem Installed.keeps {t u : State} (h : Installed c f img s t) (h' : KeepsForme c t u) : Installed c f img s u where
  frame := by
    have hmem : u.mem = t.mem := by rw [h'.frame]
    exact h'.frame.trans (by rw [hmem, h.frame])
  mem := .trans (by rw [h'.frame]) h.mem
  state := h'.state.trans h.state
  forme := h'.forme.trans h.forme
  loading := h'.loading.trans h.loading
  rings := h'.rings.trans h.rings
  backlog := h'.backlog.trans h.backlog

theorem Installed.stored {u : State} (h : Installed c f img s u) (hmem : s.memOk) : Stored s u f.area.base img := by
  refine ⟨?_, fun b hb => ?_⟩
  · rw [State.bytes, h.mem]
    exact bytes_memPutList hmem ..
  · rw [State.byte, h.mem, memGet_memPutList img hmem, if_neg (by omega)]
    rfl

theorem State.formeSet_installed (hclean : s.clean) (hst : s.ctxState c ≠ ctxFree) :
    Installed c f img s (s.formeSet c f img) := by
  obtain ⟨d, heq⟩ := State.formeSet_eq hclean c f img
  rw [heq]
  refine ⟨rfl, rfl, (if_neg hst).symm, ?_, ?_, ?_, ?_⟩
  · rw [State.ctx_modCtx_same]
  · rw [State.ctx_modCtx_same]; rfl
  · rw [State.ctx_modCtx_same]; rfl
  · rw [State.ctx_modCtx_same]; rfl

theorem State.formeSet_loaded (hclean : s.clean) (hst : s.ctxState c = ctxFree) :
    Installed c f img s ((s.formeSet c f img).setCtxState c ctxLoaded) := by
  obtain ⟨d, heq⟩ := State.formeSet_eq hclean c f img
  rw [heq]
  refine ⟨rfl, rfl, ?_, ?_, ?_, ?_, ?_⟩
  · rw [if_pos hst]
    exact State.fget_fset_self _ (by decide) (by decide)
  · rw [State.ctx_setCtxState, State.ctx_modCtx_same]
  · rw [State.ctx_setCtxState, State.ctx_modCtx_same]; rfl
  · rw [State.ctx_setCtxState, State.ctx_modCtx_same]; rfl
  · rw [State.ctx_setCtxState, State.ctx_modCtx_same]; rfl

theorem State.formeSet_ctxState (hclean : s.clean) : (s.formeSet c f img).ctxState c = s.ctxState c := by
  obtain ⟨d, heq⟩ := State.formeSet_eq hclean c f img
  rw [heq]
  rfl

/-- R179: what an installation does. -/
theorem State.installForme_installed (hclean : s.clean) (f : Forme) (img : List Byte) :
    Installed c f img s (s.installForme c f img) := by
  by_cases hfree : s.ctxState c = ctxFree
  · rw [State.installForme_loads (.inl hfree), if_pos ((State.formeSet_ctxState hclean).trans hfree)]
    exact State.formeSet_loaded hclean hfree
  · by_cases hload : s.ctxState c = ctxLoaded
    · rw [State.installForme_loads (.inr hload), if_neg (by rwa [State.formeSet_ctxState hclean])]
      exact State.formeSet_installed hclean hfree
    · exact (State.formeSet_installed hclean hfree).keeps (State.installForme_admitted ⟨hfree, hload⟩ f img)

end

/-! ### The proof pass (R178) -/

/-- The context's image leaves its slot. -/
def State.loadingTaken (s : State) (c : Nat) : State := s.modCtx c fun x => { x with loading := none }

theorem State.ctx_loadingTaken (s : State) (c : Nat) : (s.loadingTaken c).ctx c = { s.ctx c with loading := none } :=
  s.ctx_modCtx_same ..

/-- R193: a forme that an announced change does not suit is told of it. -/
def State.tellUnfit (s : State) (c : Nat) (f : Forme) : State :=
  match s.tck.change with
  | some (_, p, cut) =>
    if f.fits p cut then s else (s.modCtx c fun x => { x with unfit := true }).raise 0x040A (some c) 0 []
  | none => s

theorem KeepsForme.tellUnfit {c : CtxId} (t : State) (f : Forme) : KeepsForme c t (t.tellUnfit c f) := by
  unfold State.tellUnfit
  split
  · split
    · exact .refl t
    · exact (KeepsForme.modCtx t (fun _ => by rfl) (fun _ => by rfl) (fun _ => by rfl) fun _ => by rfl).trans (.raise ..)
  · exact .refl t

section
variable {c : CtxId} {s : State} {l : Loading} (hload : (s.ctx c).loading = some l) (hwhole : l.complete = true)
  (hfirst : ∀ d : CtxId, ∀ m, (s.ctx d).loading = some m → l.seq ≤ m.seq)
include hload hwhole hfirst

theorem exec_proofPass_first : exec (.proofPass c) s = .next
    (match (s.proofPass c l.image).2 with
    | some f => (((s.loadingTaken c).installForme c f l.image).tellUnfit c f).complete
        c l.ring stOk 0 0
    | none => ((s.loadingTaken c).raise 0x0401 (some c) 0 [(s.proofPass c l.image).1]).complete
        c l.ring stRefused (s.proofPass c l.image).1 0) := by
  refine congrArg Host.Outcome.next ?_
  unfold State.proofPassRow
  rw [hload]
  refine if_neg ?_
  rintro (h | h)
  · exact absurd (hwhole.symm.trans h) nofun
  · obtain ⟨d, hd, hbefore⟩ := List.any_eq_true.mp h
    split at hbefore
    next m hm => exact absurd (of_decide_eq_true hbefore) (Nat.not_lt.mpr (hfirst ⟨d, List.mem_range.mp hd⟩ m hm))
    next => exact Bool.false_ne_true hbefore

end

/-! ### The statement -/

theorem Completes.of_before {s t u : State} {c r : Nat} {k : Cmd} {status detail value : Nat}
    (hlog : (t.ctx c).backlog = (s.ctx c).backlog) (htick : t.tick = s.tick) (h : Completes t u c r k status detail value) :
    Completes s u c r k status detail value := by
  rwa [Completes, hlog, htick] at h

/-- What a proof pass and the completion that follows it leave of context `c`. -/
theorem KeepsForme.complete {c : CtxId} {s t : State} {r : Nat} {k : Cmd} (hk : (s.ring c r).cur = some k)
    (hrings : (t.ctx c).rings = (s.ctx c).rings) (hlog : (t.ctx c).backlog = (s.ctx c).backlog) (htick : t.tick = s.tick)
    (status detail value : Nat) : let u := t.complete c r status detail value
    (u.ctx c).forme = (t.ctx c).forme ∧ u.ctxState c = t.ctxState c ∧ (u.ctx c).loading = (t.ctx c).loading
      ∧ Completes s u c r k status detail value := by
  have hcur : (t.ring c r).cur = some k := by rw [State.ring, hrings]; exact hk
  exact ⟨t.complete_ctx_view (view := Ctx.forme) (fun _ _ => rfl) (fun _ _ => rfl) (fun _ => rfl) ..,
    t.complete_ctxState .., t.complete_ctx_view (view := Ctx.loading) (fun _ _ => rfl) (fun _ _ => rfl) (fun _ => rfl) ..,
    (State.complete_completes _ _ _ hcur).of_before hlog htick⟩

/-- Settles O28: an installation keeps the context's rings and backlog, so its command completes after it; a refusal raises its
event and completes the command, and changes nothing else of the context. That DATA of event 0x0401 is the code is the model's
choice (entry 31). -/
theorem proofPassInstallsOrRefuses : Obligations.ProofPassInstallsOrRefuses := by
  unfold Obligations.ProofPassInstallsOrRefuses
  intro c s l k hload hwhole hfirst hk hstage hroom
  have hexec := exec_proofPass_first hload hwhole hfirst
  have htaken := s.ctx_loadingTaken c
  refine ⟨fun f hproof hclean hmem => ?installs, fun code hproof => ?refuses⟩
  case installs =>
    have hinst := (State.installForme_installed (s := s.loadingTaken c) (c := c) hclean f l.image).keeps (.tellUnfit _ f)
    rw [hproof] at hexec
    dsimp only at hexec
    generalize ((s.loadingTaken c).installForme c f l.image).tellUnfit c f = w at hexec hinst
    obtain ⟨hforme, hstate, hloading, hcompletes⟩ := KeepsForme.complete hk (hinst.rings.trans (by rw [htaken]))
      (hinst.backlog.trans (by rw [htaken])) (by rw [hinst.frame]; rfl) stOk 0 0
    have hframe := w.complete_frame c l.ring stOk 0 0
    have hstored := hinst.stored hmem
    refine ⟨_, hexec, hforme.trans hinst.forme, hstate.trans hinst.state, hloading.trans ?_, hcompletes, ?_, ?_⟩
    · rw [hinst.loading, htaken]
    · rw [Stored, State.bytes_of_mem hframe.mem]
      exact ⟨hstored.1, fun b hb => (congrArg (memGet · b) hframe.mem).trans (hstored.2 b hb)⟩
    · rw [hframe.cores, hinst.frame]
      rfl
  case refuses =>
    have hroom1 : (s.loadingTaken c).eventRoom 1 := Nat.le_of_succ_le hroom
    have hkeeps := KeepsForme.raise (c := c) (s.loadingTaken c) 0x0401 (some c.val) 0 [code]
    have hraises := raises_raise hroom1 0x0401 (some c.val) 0 [code]
    rw [hproof] at hexec
    dsimp only at hexec
    generalize (s.loadingTaken c).raise 0x0401 (some c.val) 0 [code] = w at hexec hkeeps hraises
    obtain ⟨hforme, hstate, hloading, hcompletes⟩ := KeepsForme.complete hk (hkeeps.rings.trans (by rw [htaken]))
      (hkeeps.backlog.trans (by rw [htaken])) (by rw [hkeeps.frame]; rfl) stRefused code 0
    have hframe := w.complete_frame c l.ring stRefused code 0
    refine ⟨_, hexec, hforme.trans (hkeeps.forme.trans (by rw [htaken])), hstate.trans hkeeps.state, hloading.trans ?_,
      hcompletes, ?_, ?_, ?_⟩
    · rw [hkeeps.loading, htaken]
    · have hsays : (0x0401, some c.val, 0, [code]) ∈ w.evq.map Event.says := by
        rw [hraises]
        exact List.mem_append_right _ (List.mem_singleton_self _)
      obtain ⟨e, he, hsays⟩ := List.mem_map.mp hsays
      exact ⟨e, (w.evq_prefix_complete ..).subset he, hsays⟩
    · rw [hframe.mem, hkeeps.frame]
      rfl
    · rw [hframe.cores, hkeeps.frame]
      rfl

end Sys2Proof.Machine
end

section
/-!
PROOFS. The decision of a reset (R361, R365, R371): what its contexts' faults and stops, and the cells and ports of a warm
reset, leave as they were.
-/

namespace Sys2Proof.Machine

/-- The management fields below 0x1000 that a decision may change. -/
def decisionFields : List Fld :=
  [F.MGT_PLANE_STAT_EVQ_OVF, F.MGT_EVQ_DROP_DROP_COUNT, F.MGT_PLANE_STAT_HELD_CMDS, F.MGT_CAP_SUM_ACTIVE_PORTS]

/-- What a reset's decision leaves as it was: nothing differs but registers, contexts, cores, events, requests, links and what
is sent; the management registers keep all fields but those of dropped events, held commands and active ports; and a context
that is MIGRATING was so before, its collective state as it was. -/
structure DecisionKeeps (s u : State) : Prop where
  frame : u = { s with regs := u.regs, ctxs := u.ctxs, cores := u.cores, evq := u.evq, evSeq := u.evSeq, evLog := u.evLog,
                       xfers := u.xfers, links := u.links, out := u.out }
  evq : s.evq <+: u.evq
  fget : ∀ p : Fld, p.off < 0x1000 → (∀ f ∈ decisionFields, p.Apart f) → u.fget p = s.fget p
  migrating : ∀ d : CtxId, u.ctxState d = ctxMigrating → s.ctxState d = ctxMigrating ∧ u.coll d = s.coll d

namespace DecisionKeeps

theorem refl (s : State) : DecisionKeeps s s := ⟨rfl, List.prefix_rfl, fun _ _ _ => rfl, fun _ h => ⟨h, rfl⟩⟩

theorem trans {s t u : State} (h : DecisionKeeps s t) (h' : DecisionKeeps t u) : DecisionKeeps s u where
  frame := h'.frame.trans (by rw [h.frame])
  evq := h.evq.trans h'.evq
  fget p hp hf := (h'.fget p hp hf).trans (h.fget p hp hf)
  migrating d hd := by
    obtain ⟨ht, hcoll⟩ := h'.migrating d hd
    obtain ⟨hs, hcoll'⟩ := h.migrating d ht
    exact ⟨hs, hcoll.trans hcoll'⟩

theorem noneResumes {s u : State} (h : DecisionKeeps s u) (hs : s.noneResumes) : u.noneResumes := fun d hd t ht => by
  obtain ⟨hmig, hcoll⟩ := h.migrating d hd
  exact hs d hmig t (hcoll ▸ ht)

section
variable (s : State)

/-- A field of a register above the management's that holds no context's state. -/
theorem fset {f : Fld} (hoff : 0x1000 ≤ f.off) (hstat : ∀ d : CtxId, R.CTX_STAT d ≠ f.off) (v : Nat) :
    DecisionKeeps s (s.fset f v) where
  frame := rfl
  evq := List.prefix_rfl
  fget _ hp _ := s.fget_fset_reg (fun e => absurd (e ▸ hoff) (Nat.not_le.mpr hp)) v
  migrating d hd := ⟨(s.fget_fset_reg (p := F.CTX_STAT_STATE d) (hstat d) v).symm.trans hd, rfl⟩

theorem raise (code : Nat) (x : Option Nat) (unit : Nat) (data : List Nat) : DecisionKeeps s (s.raise code x unit data) where
  frame := by unfold State.raise; split <;> rfl
  evq := s.evq_prefix_raise ..
  fget p _ hf := s.fget_raise (hf _ (by simp [decisionFields])) (hf _ (by simp [decisionFields])) ..
  migrating d hd := ⟨(s.fget_raise (ctxStat_apart d (by decide)) (ctxStat_apart d (by decide)) ..).symm.trans hd,
    congrArg Ctx.coll (State.ctx_of_ctxs (s.raise_ctxs ..) d)⟩

/-- An update of a context that keeps its collective state. -/
theorem modCtx (c : Nat) {f : Ctx → Ctx} (hf : ∀ x, (f x).coll = x.coll) : DecisionKeeps s (s.modCtx c f) where
  frame := rfl
  evq := List.prefix_rfl
  fget _ _ _ := rfl
  migrating d hd := by
    refine ⟨hd, ?_⟩
    by_cases hc : d.val = c
    · rw [State.coll, State.coll, hc, State.ctx_modCtx_same, hf]
    · rw [State.coll, State.coll, State.ctx_modCtx_ne _ hc]

theorem modCore (g : Nat) (f : Core → Core) : DecisionKeeps s (s.modCore g f) :=
  ⟨rfl, List.prefix_rfl, fun _ _ _ => rfl, fun _ h => ⟨h, rfl⟩⟩

theorem modLink (p : Nat) (f : Link → Link) : DecisionKeeps s (s.modLink p f) :=
  ⟨rfl, List.prefix_rfl, fun _ _ _ => rfl, fun _ h => ⟨h, rfl⟩⟩

theorem linkSend (p tc : Nat) (l : List Byte) : DecisionKeeps s (s.linkSend p tc l) := by
  unfold State.linkSend
  split
  · exact ⟨rfl, List.prefix_rfl, fun _ _ _ => rfl, fun _ h => ⟨h, rfl⟩⟩
  · exact ⟨rfl, List.prefix_rfl, fun _ _ _ => rfl, fun _ h => ⟨h, rfl⟩⟩

theorem complete (c r status detail value : Nat) : DecisionKeeps s (s.complete c r status detail value) where
  frame := by
    rw [s.complete_frame c r status detail value]
  evq := s.evq_prefix_complete ..
  fget p _ hf := s.complete_fget c r status detail value (hf _ (by simp [decisionFields])) (hf _ (by simp [decisionFields]))
    (hf _ (by simp [decisionFields]))
  migrating d hd := by
    refine ⟨(s.complete_ctxState ..).symm.trans hd, ?_⟩
    by_cases hc : d.val = c
    · rw [State.coll, State.coll, hc]
      exact s.complete_ctx_view (view := Ctx.coll) (fun _ _ => rfl) (fun _ _ => rfl) (fun _ => rfl) ..
    · rw [State.coll, State.coll, State.complete_ctx_ne _ hc]

/-- R217: a context's fault. -/
theorem ctxFault (c code g : Nat) : DecisionKeeps s (s.ctxFault c code g) := by
  have hfault : ∀ (t : State) (hi lo v : Nat), DecisionKeeps t (t.fset ⟨R.CTX_FAULT c, hi, lo⟩ v) := fun t hi lo v =>
    .fset t (f := ⟨R.CTX_FAULT c, hi, lo⟩) (by dsimp only [R.CTX_FAULT]; omega)
      (fun d => by dsimp only [R.CTX_FAULT, R.CTX_STAT]; omega) v
  unfold State.ctxFault
  dsimp only
  split
  · exact .refl s
  · exact ((((hfault s ..).trans (hfault _ ..)).trans (hfault _ ..)).trans (.raise ..)).trans (.modCtx _ c fun _ => by rfl)

/-- One of the management fields that a decision may change. -/
theorem fsetListed {f : Fld} (hf : f ∈ decisionFields) (hlow : f.off < 0x1000 ∧ f.lo ≤ f.hi ∧ f.hi < 32) (v : Nat) :
    DecisionKeeps s (s.fset f v) where
  frame := rfl
  evq := List.prefix_rfl
  fget _ _ hapart := s.fget_fset_of_apart (hapart f hf) v
  migrating d hd := ⟨(s.fget_fset_of_apart (ctxStat_apart d hlow) v).symm.trans hd, rfl⟩

/-- A port's state, and the count of active ports with it. -/
theorem setPort (p v : Nat) : DecisionKeeps s (s.setPort p v) := by
  unfold State.setPort
  exact (DecisionKeeps.fset s (by dsimp only [R.FAB_PORT_STAT, edgeBase]; omega)
    (fun d => by dsimp only [R.FAB_PORT_STAT, R.CTX_STAT, edgeBase]; omega) v).trans
    (.fsetListed _ (by simp [decisionFields]) (by decide) _)

/-- R239: the ports enter HOLD. -/
theorem holdPorts : DecisionKeeps s s.holdPorts := by
  refine foldl_rel .refl .trans (fun t p _ => ?_) s
  dsimp only
  split
  · exact (DecisionKeeps.modLink t p _).trans (.setPort ..)
  · exact .refl t

theorem sendLeaving (reason : Nat) : DecisionKeeps s (s.sendLeaving reason) := by
  refine foldl_rel .refl .trans (fun t x _ => ?_) s
  split
  · exact .refl t
  · exact .linkSend t ..

end

end DecisionKeeps

/-! ### A migration that a decision ends (R230) -/

/-- The source of a migration, its copy ended and no other task kept, SAVED again. -/
def State.copyEnded (s : State) (c : Nat) : State :=
  (({ s with xfers := s.xfers.filter fun x => match x.owner with | .task d _ => d != c | _ => true }.modColl c fun k =>
    { k with tasks := [] }).setCtxState c ctxSaved)

theorem State.stopTasks_copy {s : State} {c : Nat} (h : ∀ t ∈ (s.coll c).tasks, t.kind = .migrate) :
    (s.stopTasks c).setCtxState c ctxSaved = s.copyEnded c := by
  have hnone : (s.coll c).tasks.filter (fun t => t.kind != TaskKind.migrate) = [] :=
    List.filter_eq_nil_iff.mpr fun t ht => by simp [h t ht]
  have hcoll : ∀ l, State.coll { s with xfers := l } c = s.coll c := fun _ => rfl
  unfold State.stopTasks
  dsimp only
  rw [hcoll, hnone]
  rfl

theorem State.resumeTasks_none {s : State} {c : Nat} (h : (s.coll c).tasks = []) : s.resumeTasks c = s := by
  rw [State.resumeTasks, h]
  rfl

theorem State.copyEnded_tasks (s : State) (c : Nat) : ((s.copyEnded c).coll c).tasks = [] := by
  rw [State.coll, State.copyEnded, State.ctx_setCtxState, State.modColl, State.ctx_modCtx_same]

theorem DecisionKeeps.copyEnded (s : State) (c : CtxId) : DecisionKeeps s (s.copyEnded c) where
  frame := rfl
  evq := List.prefix_rfl
  fget _ hp _ := State.fget_fset_reg _ (f := F.CTX_STAT_STATE c) (by dsimp only [R.CTX_STAT]; omega) _
  migrating d hd := by
    by_cases hc : d = c
    · have hsaved : (s.copyEnded c).ctxState c = ctxSaved := State.fget_fset_self _ (by decide) (by decide)
      rw [hc, hsaved] at hd
      exact absurd hd (by decide)
    · have hne : d.val ≠ c.val := fun e => hc (Fin.ext e)
      refine ⟨Eq.trans ?_ hd, ?_⟩
      · exact (State.fget_fset_reg _ (f := F.CTX_STAT_STATE c) (p := F.CTX_STAT_STATE d)
          (fun e => hne (ctxStat_injective e)) _).symm
      · rw [State.coll, State.copyEnded, State.ctx_setCtxState, State.modColl, State.ctx_modCtx_ne _ hne]
        rfl

/-- R230: where the copy was the only task, none resumes. -/
theorem DecisionKeeps.migrateFailed {s : State} {c : CtxId} (h : ∀ t ∈ (s.coll c).tasks, t.kind = .migrate) (cause : Nat) :
    DecisionKeeps s (s.migrateFailed c cause) := by
  have hresume : ((s.copyEnded c).raise 0x0428 (some c.val) 0 [cause]).resumeTasks c
      = (s.copyEnded c).raise 0x0428 (some c.val) 0 [cause] := State.resumeTasks_none (by
    rw [State.coll, State.ctx_of_ctxs (State.raise_ctxs ..)]
    exact s.copyEnded_tasks c)
  unfold State.migrateFailed
  dsimp only
  rw [State.stopTasks_copy h, hresume]
  refine ((DecisionKeeps.copyEnded s c).trans (.raise ..)).trans (foldl_rel .refl .trans (fun t r _ => ?_) _)
  split
  · split
    · exact .complete t ..
    · exact .refl t
  · exact .refl t

/-! ### The decision -/

theorem State.occupant_lt {s : State} {g c : Nat} (h : s.occupant g = some c) : c < 8 := by
  unfold State.occupant at h
  split at h
  · obtain rfl : s.fget (F.CORE_RES_CTX g) = c := by simpa using h
    exact bits_lt _ _ _
  · exact absurd h nofun

theorem State.hitBy_lt {s : State} {act : ResetAct} (hact : ∀ c, act = .ctxDown c → c < 8) {c : Nat} (hc : c ∈ s.hitBy act) :
    c < 8 := by
  cases act with
  | ctxDown d => exact List.mem_singleton.mp hc ▸ hact d rfl
  | core g => exact State.occupant_lt (Option.mem_toList.mp hc)
  | die d =>
    obtain ⟨p, hp, rfl⟩ := List.mem_map.mp hc
    exact State.lt_of_mem_formes (List.mem_of_mem_filter hp)
  | warm | oos | cold =>
    have hlive : c ∈ (List.range 8).filter fun c => s.ctxState c != ctxFree := hc
    exact List.mem_range.mp (List.mem_of_mem_filter hlive)

/-- R371: the decision of a reset. -/
theorem DecisionKeeps.atDecision {s : State} (hnone : s.noneResumes) {act : ResetAct} (hact : ∀ c, act = .ctxDown c → c < 8)
    (code : Nat) : DecisionKeeps s (s.atDecision act code) := by
  unfold State.atDecision
  extract_lets s1 s2
  have hfaults : DecisionKeeps s s1 := by
    refine List.foldlRecOn (motive := DecisionKeeps s) _ _ (.refl s) fun t ht c hc => ht.trans ?_
    dsimp only
    split
    next hmig =>
      have hlt := State.hitBy_lt hact hc
      exact (DecisionKeeps.migrateFailed (c := ⟨c, hlt⟩) (ht.noneResumes hnone ⟨c, hlt⟩ hmig) 1).trans (.ctxFault ..)
    next => exact .ctxFault t ..
  have hstops : DecisionKeeps s s2 := hfaults.trans (foldl_rel .refl .trans (fun t g _ => .modCore t g _) s1)
  split
  · exact (hstops.trans (.sendLeaving s2 1)).trans (.holdPorts _)
  · exact (hstops.trans (.sendLeaving s2 5)).trans (.holdPorts _)
  · exact hstops

end Sys2Proof.Machine
end

section
/-!
PROOFS. The detectors (Table 12-2, R202, R361, R371), and the statement DetectorsBeginCaptures.
-/

namespace Sys2Proof.Machine

/-! ### A detector fires -/

/-- The management fields that a detector and its decision's count change, and those of a dropped event. -/
def firingFields : List Fld :=
  [F.MGT_HANG_STAT_DET, F.MGT_PLANE_STAT_EVQ_OVF, F.MGT_EVQ_DROP_DROP_COUNT, F.MGT_RST_STAT_WARM_IN_WINDOW,
    F.MGT_RST_STAT_RESTARTS]

/-- Detector `det` has fired on `unit`, and what its capture will need is as it was. -/
structure Fired (s v : State) (det unit : Nat) : Prop where
  frame : v = { s with regs := v.regs, evq := v.evq, evSeq := v.evSeq, evLog := v.evLog, rst := v.rst }
  ram : v.rst.ram = s.rst.ram
  running : v.rst.running = s.rst.running
  waiting : v.rst.waiting = s.rst.waiting
  evq : s.evq <+: v.evq
  fget : ∀ p : Fld, (∀ f ∈ firingFields, p.Apart f) → v.fget p = s.fget p
  bit : bit (v.fget F.MGT_HANG_STAT_DET) (det - 1) = true
  event : ∃ e ∈ v.evq, e.says = (0x0901, none, unit, [det])

/-- The detector's bit and its event. -/
def State.told (s : State) (det unit : Nat) : State :=
  (s.fset F.MGT_HANG_STAT_DET (s.fget F.MGT_HANG_STAT_DET ||| 2 ^ (det - 1))).raise 0x0901 none unit [det]

theorem State.told_frame (s : State) (det unit : Nat) : s.told det unit = { s with
    regs := (s.told det unit).regs, evq := (s.told det unit).evq, evSeq := (s.told det unit).evSeq,
    evLog := (s.told det unit).evLog } := by
  unfold State.told State.raise
  split
  · rfl
  · rfl

theorem State.told_fget (s : State) (det unit : Nat) {p : Fld} (hp : ∀ f ∈ firingFields, p.Apart f) :
    (s.told det unit).fget p = s.fget p := by
  rw [State.told, State.fget_raise _ (hp _ (by simp [firingFields])) (hp _ (by simp [firingFields])),
    State.fget_fset_of_apart _ (hp _ (by simp [firingFields]))]

/-- The bit of a detector from 1 to 11. -/
theorem State.told_bit (s : State) {det : Nat} (hdet : det - 1 < 11) (unit : Nat) :
    bit ((s.told det unit).fget F.MGT_HANG_STAT_DET) (det - 1) = true := by
  rw [State.told, State.fget_raise _ (by decide) (by decide), State.fget_fset_cut _ _ (by decide), bit_eq_testBit,
    Nat.testBit_mod_two_pow, ← bit_eq_testBit, bit_or_two_pow, Bool.and_true]
  exact decide_eq_true hdet

theorem State.evq_prefix_told (s : State) (det unit : Nat) : s.evq <+: (s.told det unit).evq :=
  (s.fset F.MGT_HANG_STAT_DET (s.fget F.MGT_HANG_STAT_DET ||| 2 ^ (det - 1))).evq_prefix_raise ..

theorem State.told_event {s : State} (hroom : s.eventRoom 1) (det unit : Nat) :
    ∃ e ∈ (s.told det unit).evq, e.says = (0x0901, none, unit, [det]) := by
  have hraises := raises_raise (s := s.fset F.MGT_HANG_STAT_DET (s.fget F.MGT_HANG_STAT_DET ||| 2 ^ (det - 1))) hroom
    0x0901 none unit [det]
  have hsays : (0x0901, none, unit, [det]) ∈ (s.told det unit).evq.map Event.says := by
    rw [State.told, hraises]
    exact List.mem_append_right _ (List.mem_singleton_self _)
  exact List.mem_map.mp hsays

/-- R361, R367: the state at the decision of a detector's reset. -/
def State.counted (s : State) (det : Nat) (act : ResetAct) : State :=
  let v := { s with rst := { s.rst with lastDet := det } }
  if act = .warm then v.countWarm.1.fset F.MGT_RST_STAT_RESTARTS 0 else v

section
variable (s : State) (det : Nat) (act : ResetAct)

theorem State.counted_frame :
    s.counted det act = { s with regs := (s.counted det act).regs, rst := (s.counted det act).rst } := by
  unfold State.counted
  dsimp only
  split
  · rfl
  · rfl

theorem State.counted_evq : (s.counted det act).evq = s.evq := by rw [State.counted_frame]

/-- The decision's count leaves the records of captures, and what runs and waits. -/
theorem State.counted_rst : (s.counted det act).rst.ram = s.rst.ram ∧ (s.counted det act).rst.running = s.rst.running
    ∧ (s.counted det act).rst.waiting = s.rst.waiting := by
  unfold State.counted
  dsimp only
  split
  · exact ⟨rfl, rfl, rfl⟩
  · exact ⟨rfl, rfl, rfl⟩

theorem State.counted_fget {p : Fld} (h : p.Apart F.MGT_RST_STAT_WARM_IN_WINDOW) (h' : p.Apart F.MGT_RST_STAT_RESTARTS) :
    (s.counted det act).fget p = s.fget p := by
  unfold State.counted
  dsimp only
  split
  · exact (State.fget_fset_of_apart _ h' _).trans (State.fget_fset_of_apart _ h _)
  · rfl

end

theorem State.told_rst (s : State) (det unit : Nat) : (s.told det unit).rst = s.rst := by rw [State.told_frame]

theorem Fired.counted {s : State} (hroom : s.eventRoom 1) {det : Nat} (hdet : det - 1 < 11) (unit : Nat) (act : ResetAct) :
    Fired s ((s.told det unit).counted det act) det unit := by
  obtain ⟨hram, hrunning, hwaiting⟩ := (s.told det unit).counted_rst det act
  rw [State.told_rst] at hram hrunning hwaiting
  refine ⟨?_, hram, hrunning, hwaiting, ?_, fun p hp => ?_, ?_, ?_⟩
  · rw [State.counted_frame, State.told_frame]
  · rw [State.counted_evq]
    exact s.evq_prefix_told det unit
  · rw [State.counted_fget _ _ _ (hp _ (by simp [firingFields])) (hp _ (by simp [firingFields])), s.told_fget det unit hp]
  · rw [State.counted_fget _ _ _ (by decide) (by decide), s.told_bit hdet]
  · rw [State.counted_evq]
    exact State.told_event hroom det unit

theorem State.warmDecision_of_ne (s : State) {act : ResetAct} (h : act ≠ .warm) : s.warmDecision act = (s, act) := if_neg h

/-- R365: a warm decision stays one while the count is below LIMIT. -/
theorem State.warmDecision_counted (s : State) (det : Nat) {act : ResetAct} (hwarm : act = .warm → s.countWarm.2 = .warm) :
    State.warmDecision { s with rst := { s.rst with lastDet := det } } act = (s.counted det act, act) := by
  unfold State.warmDecision State.counted
  dsimp only
  split
  next hact =>
    have hcount : (State.countWarm { s with rst := { s.rst with lastDet := det } }).2 = .warm := hwarm hact
    rw [hcount, hact]
    rfl
  next => rfl

/-- R365: a decision is a warm one while the warm decisions of the window, with it, are fewer than LIMIT. -/
theorem State.countWarm_act (s : State) : s.countWarm.2 = if s.fget F.MGT_RST_ESC_LIMIT ≤ ((s.rst.warmAt.filter fun t =>
    decide (s.timeUs ≤ t + 1000000 * s.fget F.MGT_RST_ESC_WINDOW_S)) ++ [s.timeUs]).length then .oos else .warm := by
  have hlimit : s.countWarm.1.fget F.MGT_RST_ESC_LIMIT = s.fget F.MGT_RST_ESC_LIMIT :=
    State.fget_fset_of_apart _ (by decide) _
  rw [← hlimit]
  rfl

/-- What is told of a detector does not change the decision. -/
theorem State.told_countWarm_act (s : State) (det unit : Nat) : (s.told det unit).countWarm.2 = s.countWarm.2 := by
  have htime : (s.told det unit).timeUs = s.timeUs := by rw [State.told_frame]
  rw [State.countWarm_act, State.countWarm_act, State.told_rst, htime, State.told_fget _ _ _ (by decide),
    State.told_fget _ _ _ (by decide)]

/-! ### Its capture begins (R371, R373) -/

theorem State.captureSlot_congr {s t : State} (hram : t.rst.ram = s.rst.ram)
    (hdone : t.fget F.COL_STAT_FULL_DONE = s.fget F.COL_STAT_FULL_DONE) : t.captureSlot = s.captureSlot := by
  unfold State.captureSlot
  rw [hram, hdone]

/-- R361, R371: the detector's event and bit, its decision and its capture. -/
theorem State.detect_eq {s : State} (hup : s.running = true) (hidle : s.rst.running = []) (hnone : s.rst.capture = none)
    {det : Nat} {act : ResetAct} (unit code : Nat) (hwarm : act = .warm → s.countWarm.2 = .warm) : s.detect det unit code act
      = (((s.told det unit).counted det act).atDecision act code).startCapture act det := by
  have hgo : ¬ (s.running = false ∨ (s.rst.running.any fun p => p.1.covers act) = true ∨ s.captureHolds det act = true) := by
    rw [State.captureHolds, hnone, hup, hidle]
    simp
  have hkept : act = .warm → (s.told det unit).countWarm.2 = .warm := fun h => (s.told_countWarm_act det unit).trans (hwarm h)
  have hcapture : (s.told det unit).rst.capture = none := by rw [State.told_rst, hnone]
  unfold State.detect
  rw [if_neg hgo]
  change (s.told det unit).orderReset act det code true = _
  unfold State.orderReset
  rw [hcapture]
  dsimp only
  rw [State.warmDecision_counted _ det hkept]
  exact if_pos (.inl rfl)

/-- The capture of a full or a summary record for `act`, in slot `i`. -/
def State.captureFor (s : State) (act : ResetAct) (det i : Nat) : Capture Event Snap :=
  ⟨act, s.newRecord act.domain act.target det (det != 10), some i, s.timeUs⟩

theorem State.startCapture_begins {s : State} {i : Nat} (hslot : s.captureSlot = some i) (act : ResetAct) (det : Nat) :
    s.startCapture act det
      = State.setRstate { s.bumpSeq with rst := { s.bumpSeq.rst with capture := some (s.captureFor act det i) } } 1 := by
  unfold State.startCapture
  rw [hslot]
  rfl

/-- What the beginning of a capture leaves as it was. -/
structure CaptureStarts (s t : State) (k : Capture Event Snap) : Prop where
  frame : t = { s with regs := t.regs, sec := t.sec, free := t.free, rst := { s.rst with capture := some k } }
  rstate : t.fget F.MGT_RST_STAT_RSTATE = 1
  fget : ∀ p : Fld, p.Apart F.MGT_RST_STAT_RSTATE → p.off ≠ R.COL_SEQ → t.fget p = s.fget p

theorem State.startCapture_starts {s : State} {i : Nat} (hslot : s.captureSlot = some i) (act : ResetAct) (det : Nat) :
    CaptureStarts s (s.startCapture act det) (s.captureFor act det i) := by
  rw [State.startCapture_begins hslot]
  refine ⟨rfl, State.fget_fset_self _ (by decide) (by decide), fun p hp hseq => ?_⟩
  exact (State.fget_fset_of_apart _ hp _).trans (s.fget_rset_reg hseq _)

/-- A detector has fired, and nothing differs that another detector would ask of the state. -/
structure Begins (s t : State) (det unit : Nat) (act : ResetAct) : Prop where
  fires : Fires t det unit act
  mem : t.mem = s.mem
  ended : t.ended = []
  phase : t.phase = s.phase
  evq : s.evq <+: t.evq
  running : t.rst.running = []
  waiting : t.rst.waiting = s.rst.waiting
  planeDown : t.fget F.MGT_PLANE_STAT_CTRL_DOWN = s.fget F.MGT_PLANE_STAT_CTRL_DOWN

theorem Fired.noneResumes {s v : State} {det unit : Nat} (h : Fired s v det unit) (hnone : s.noneResumes) : v.noneResumes := by
  intro d hd x hx
  have hstate : v.ctxState d = s.ctxState d := h.fget _ fun f hf =>
    Fld.apart_of_low (Nat.le_add_right 28 3) (Nat.le_add_right 0x1000 (64 * d.val))
      ((by decide : ∀ f ∈ firingFields, f.off < 0x1000 ∧ f.lo ≤ f.hi ∧ f.hi < 32) f hf)
  have hcoll : v.coll d = s.coll d := by rw [h.frame]; rfl
  exact hnone d (hstate ▸ hd) x (hcoll ▸ hx)

/-- R361, R371: where a detector may begin a capture, it does. -/
theorem MayDetect.begins {s : State} (h : MayDetect s) {det : Nat} (hdet : 1 ≤ det ∧ det ≤ 11) (unit code : Nat)
    {act : ResetAct} (hact : ∀ c, act = .ctxDown c → c < 8) (hwarm : act = .warm → s.countWarm.2 = .warm) :
    Begins s (s.detect det unit code act) det unit act := by
  obtain ⟨hup, hidle, hnone, hslot, hended, hroom, htasks⟩ := h
  rw [State.detect_eq hup hidle hnone unit code hwarm]
  have hfired := Fired.counted hroom (det := det) (by omega) unit act
  generalize (s.told det unit).counted det act = v at hfired
  have hkeeps := DecisionKeeps.atDecision (hfired.noneResumes htasks) hact code
  generalize v.atDecision act code = u at hkeeps
  have hrst : u.rst = v.rst := by rw [hkeeps.frame]
  obtain ⟨i, hi⟩ : ∃ i, u.captureSlot = some i := by
    have hslots : u.captureSlot = s.captureSlot := State.captureSlot_congr (by rw [hrst, hfired.ram])
      ((hkeeps.fget _ (by decide) (by decide)).trans (hfired.fget _ (by decide)))
    rw [hslots]
    exact Option.isSome_iff_exists.mp hslot
  have hstarts := State.startCapture_starts hi act det
  generalize u.startCapture act det = t at hstarts
  have hevq : t.evq = u.evq := by rw [hstarts.frame]
  have hmask : detMask det = 2 ^ det := if_neg (by rw [noDet]; omega)
  refine ⟨⟨?_, ?_, hstarts.rstate, u.captureFor act det i, ?_, rfl, hmask, ?_⟩, ?_, ?_, ?_, ?_, ?_, ?_, ?_⟩
  · rw [hstarts.fget _ (by decide) (by decide), hkeeps.fget _ (by decide) (by decide), hfired.bit]
  · obtain ⟨e, he, hsays⟩ := hfired.event
    exact ⟨e, hevq ▸ hkeeps.evq.subset he, hsays⟩
  · rw [hstarts.frame]
  · rw [hstarts.frame]
    rfl
  · rw [hstarts.frame, hkeeps.frame, hfired.frame]
  · rw [hstarts.frame, hkeeps.frame, hfired.frame]
    exact hended
  · rw [hstarts.frame, hkeeps.frame, hfired.frame]
  · rw [hevq]
    exact hfired.evq.trans hkeeps.evq
  · rw [hstarts.frame]
    exact (congrArg _ hrst).trans (hfired.running.trans hidle)
  · rw [hstarts.frame]
    exact (congrArg _ hrst).trans hfired.waiting
  · rw [hstarts.fget _ (by decide) (by decide), hkeeps.fget _ (by decide) (by decide), hfired.fget _ (by decide)]

/-! ### What precedes a detection (R27, R202) -/

theorem State.noneResumes_congr {s t : State} (hstate : ∀ d : CtxId, t.ctxState d = s.ctxState d) (hctxs : t.ctxs = s.ctxs)
    (h : s.noneResumes) : t.noneResumes := fun d hd x hx => by
  have hcoll : t.coll d = s.coll d := congrArg Ctx.coll (State.ctx_of_ctxs hctxs d)
  exact h d (hstate d ▸ hd) x (hcoll ▸ hx)

/-- R27: the control plane is declared down. -/
theorem MayDetect.planeDown {s : State} (h : MayDetect s) : MayDetect (s.fset F.MGT_PLANE_STAT_CTRL_DOWN 1) := by
  obtain ⟨hup, hidle, hnone, hslot, hended, hroom, htasks⟩ := h
  refine ⟨hup, hidle, hnone, ?_, hended, hroom, ?_⟩
  · rwa [State.captureSlot_congr (s := s) (by rfl) (s.fget_fset_of_apart (by decide) 1)]
  · exact State.noneResumes_congr (s := s) (fun d => s.fget_fset_of_apart (ctxStat_apart d (by decide)) 1) rfl htasks

/-- R202: an event precedes the detection. -/
theorem MayDetect.raise {s : State} (h : MayDetect s) (hroom : s.eventRoom 2) (code : Nat) (x : Option Nat) (unit : Nat)
    (data : List Nat) : MayDetect (s.raise code x unit data) := by
  obtain ⟨hup, hidle, hnone, hslot, hended, -, htasks⟩ := h
  have hkeeps := DecisionKeeps.raise s code x unit data
  have hframe := hkeeps.frame
  refine ⟨?_, ?_, ?_, ?_, ?_, State.eventRoom_raise hroom .., hkeeps.noneResumes htasks⟩
  · rw [hframe]; exact hup
  · rw [hframe]; exact hidle
  · rw [hframe]; exact hnone
  · rwa [State.captureSlot_congr (s := s) (by rw [hframe]) (hkeeps.fget _ (by decide) (by decide))]
  · rw [hframe]; exact hended

/-! ### A second die of a copy (R361, R367) -/

/-- R367: a detector's reset that the capture under way does not cover waits for its end. -/
theorem Begins.waits {s t : State} {unit d e : Nat} (hup : s.running = true) (h : Begins s t 3 unit (.die d)) (hne : d ≠ e) :
    let u := t.detect 3 unit 0x0901 (.die e)
    Fires u 3 unit (.die d) ∧ u.rst.waiting = s.rst.waiting ++ [(.die e, 3)] ∧ u.mem = s.mem ∧ u.ended = [] := by
  obtain ⟨⟨hbit, ⟨x, hx, hsays⟩, hrstate, k, hk, hact, hdet, hsince⟩, hmem, hended, hphase, hevq, hrunning, hwaiting, -⟩ := h
  have hne' : ¬ (ResetAct.die d).covers (.die e) = true := by simpa [ResetAct.covers] using hne
  have hne'' : ¬ (ResetAct.die e).covers (.die d) = true := by simpa [ResetAct.covers] using fun h : e = d => hne h.symm
  have hup' : t.running = true := by rw [State.running, hphase]; exact hup
  have hholds : t.captureHolds 3 (.die e) = false := by
    rw [State.captureHolds, hk]
    simp [hact, hne]
  have hgo : ¬ (t.running = false ∨ (t.rst.running.any fun p => p.1.covers (.die e)) = true
      ∨ t.captureHolds 3 (.die e) = true) := by simp [hup', hrunning, hholds]
  have hcapture : (t.told 3 unit).rst.capture = some k := by rw [State.told_rst, hk]
  have heq : t.detect 3 unit 0x0901 (.die e) = { t.told 3 unit with rst := { (t.told 3 unit).rst with
      capture := some { k with record := { k.record with detectors := k.record.detectors ||| detMask 3 } }
      waiting := (t.told 3 unit).rst.waiting ++ [(.die e, 3)] } } := by
    unfold State.detect
    rw [if_neg hgo]
    change (t.told 3 unit).orderReset (.die e) 3 0x0901 true = _
    unfold State.orderReset
    rw [hcapture]
    dsimp only
    rw [State.warmDecision_of_ne _ (act := .die e) nofun, hact]
    exact (if_neg hne').trans (if_neg hne'')
  intro u
  have hu : u = _ := heq
  clear_value u
  subst hu
  have hframe := t.told_frame 3 unit
  refine ⟨⟨t.told_bit (by decide) unit, ⟨x, (t.evq_prefix_told 3 unit).subset hx, hsays⟩, ?_, _, rfl, hact, ?_, ?_⟩, ?_, ?_, ?_⟩
  · exact (t.told_fget 3 unit (by decide)).trans hrstate
  · exact (congrArg (· ||| detMask 3) hdet).trans (by decide)
  · rw [hframe]
    exact hsince
  · rw [State.told_rst, hwaiting]
  · rw [hframe]
    exact hmem
  · rw [hframe]
    exact hended

/-! ### The resets of detector 3 -/

/-- A request over an LPDDR5X bank has a warm reset ordered. -/
theorem Req.overdue_warm {r : Req} (h : ∃ b ∈ [r.bank, r.bank2], 0x10000 ≤ b ∧ b < 0x20000) : r.overdue = [.warm] := by
  obtain ⟨b, hb, hlo, hhi⟩ := h
  refine if_pos (List.any_eq_true.mpr ⟨b, List.mem_filter.mpr ⟨hb, decide_eq_true hhi⟩, decide_eq_true hlo⟩)

theorem Req.overdue_hbm {r : Req} (h : ∀ b ∈ [r.bank, r.bank2], b < 0x20000 → b < 0x10000) : r.overdue =
    (([r.bank, r.bank2].filter fun b => decide (b < 0x20000)).map fun b => ResetAct.die (b / 512 / 3)).dedup := by
  refine if_neg fun hany => ?_
  obtain ⟨b, hb, hlo⟩ := List.any_eq_true.mp hany
  obtain ⟨hmem, hhi⟩ := List.mem_filter.mp hb
  exact absurd (h b hmem (of_decide_eq_true hhi)) (Nat.not_lt.mpr (of_decide_eq_true hlo))

/-- A request over HBM banks of one die has that die's reset ordered. -/
theorem Req.overdue_die {r : Req} {d : Nat} (hsome : ∃ b ∈ [r.bank, r.bank2], b < 0x20000)
    (h : ∀ b ∈ [r.bank, r.bank2], b < 0x20000 → b < 0x10000 ∧ b / 512 / 3 = d) : r.overdue = [.die d] := by
  rw [Req.overdue_hbm fun b hb hlt => (h b hb hlt).1]
  generalize hl : [r.bank, r.bank2].filter (fun b => decide (b < 0x20000)) = l
  have hall : l.map (fun b => ResetAct.die (b / 512 / 3)) = List.replicate l.length (.die d) := by
    refine List.eq_replicate_iff.mpr ⟨List.length_map .., fun x hx => ?_⟩
    obtain ⟨b, hb, rfl⟩ := List.mem_map.mp hx
    obtain ⟨hmem, hlt⟩ := List.mem_filter.mp (hl ▸ hb)
    rw [(h b hmem (of_decide_eq_true hlt)).2]
  have hlen : l.length ≠ 0 := by
    obtain ⟨b, hb, hlt⟩ := hsome
    exact Nat.ne_of_gt (List.length_pos_of_mem (hl ▸ List.mem_filter.mpr ⟨hb, decide_eq_true hlt⟩))
  rw [hall, List.replicate_dedup hlen]

/-- A copy between HBM banks of two dies has both dies' resets ordered. -/
theorem Req.overdue_dies {r : Req} (hb : r.bank < 0x10000) (hb2 : r.bank2 < 0x10000)
    (hne : r.bank / 512 / 3 ≠ r.bank2 / 512 / 3) : r.overdue = [.die (r.bank / 512 / 3), .die (r.bank2 / 512 / 3)] := by
  have hfilter : [r.bank, r.bank2].filter (fun b => decide (b < 0x20000)) = [r.bank, r.bank2] :=
    List.filter_eq_self.mpr (by simp; omega)
  rw [Req.overdue_hbm (by simp; omega), hfilter]
  exact List.Nodup.dedup (by simpa using hne)

theorem exec_transferTimeout_overdue {s : State} {g : CoreId} {i : Fin 4096} {x : Slot}
    (hx : ((s.core g).slots ++ (s.core g).waits)[i.val]? = some x)
    (hdue : x.issued + 1000 * s.fget F.MGT_HANG_CTRL_XFER_TO_MS ≤ s.timeUs) (hlive : s.live g = true)
    (hkind : x.req.kind = .copy ∨ x.req.kind = .zero) : exec (.transferTimeout g i) s
      = .next (x.req.overdue.foldl (fun s a => s.detect 3 g 0x0901 a) s).flush := by
  have hlocal : x.req.kind.isLocal = true := by rcases hkind with h | h <;> rw [h] <;> rfl
  have hgo : ¬ (s.timeUs < x.issued + 1000 * s.fget F.MGT_HANG_CTRL_XFER_TO_MS ∨ s.live g = false
      ∨ x.req.kind.isLocal = false) := by
    rw [hlive, hlocal]
    simpa using hdue
  refine congrArg Host.Outcome.next ?_
  rw [hx]
  exact if_neg hgo

theorem exec_generationWait_waited {s : State} {g : CoreId} {c : Nat} {r : Refetch} (hocc : s.occupant g = some c)
    (hlive : s.live g = true) (hr : r ∈ (s.core g).refetch) (hopen : r.done = false) (hodd : s.quoin g r.fill.gq % 2 = 1)
    (hdue : r.since + 1000 * s.fget F.MGT_HANG_CTRL_XFER_TO_MS ≤ s.timeUs) :
    exec (.generationWait g) s = .next (s.detect 4 g 0x0901 (.ctxDown c)).flush := by
  have hany : ((s.core g).refetch.any fun r => !r.done && s.quoin g r.fill.gq % 2 == 1
      && decide (r.since + 1000 * s.fget F.MGT_HANG_CTRL_XFER_TO_MS ≤ s.timeUs)) = true :=
    List.any_eq_true.mpr ⟨r, hr, by simp [hopen, hodd, hdue]⟩
  refine congrArg Host.Outcome.next ?_
  rw [hocc]
  exact if_pos ⟨hlive, hany⟩

theorem exec_teardownTimeout_late {s : State} {c : CtxId} {g n : Nat} (hst : s.ctxState c = ctxTearing)
    (htear : (s.ctx c).tearing = some n) (hone : s.occupied c = [g]) (hdue : n + 300 ≤ s.timeUs)
    (hnone : s.rst.capture = none) : exec (.teardownTimeout c) s = .next (s.detect 6 g 0x0901 (.core g)).flush := by
  have hfree : s.captureOn c = false := by rw [State.captureOn, hnone]
  have hgo : ¬ (s.ctxState c ≠ ctxTearing ∨ s.captureOn c = true ∨ s.timeUs < n + 300) := by simp [hst, hfree, hdue]
  refine congrArg Host.Outcome.next ?_
  rw [htear, hone]
  exact if_neg hgo

/-! ### The statement -/

theorem Begins.of_flushed {s t : State} {det unit : Nat} {act : ResetAct} (h : Begins s t det unit act) :
    Fires t.flush det unit act ∧ t.flush.mem = s.mem := by
  rw [State.flush_of_ended_nil h.ended]
  exact ⟨h.fires, h.mem⟩

/-- Settles O41: a detector that may fire sets its bit and its event, decides its reset and begins its capture; the decision
touches neither memory nor what the capture needs, and no request ends in it. What counts as a hung engine, a hung edge engine
and a stalled bridge (entries 21, 68), the numbers of bridges and engines (entry 71), the watchdog's 990 ms (entry 69), a
bridge's traffic and the banks of a copy (entry 103), and the UNIT and DATA of events 0x0901 and 0x0403 (entry 31) are the
model's choices. -/
theorem detectorsBeginCaptures : Obligations.DetectorsBeginCaptures := by
  unfold Obligations.DetectorsBeginCaptures
  intro s hmay
  have hfires : ∀ {det : Nat}, 1 ≤ det ∧ det ≤ 11 → ∀ (unit : Nat) (act : ResetAct), (∀ c, act = .ctxDown c → c < 8) →
      (act = .warm → s.countWarm.2 = .warm) → Begins s (s.detect det unit 0x0901 act) det unit act :=
    fun hdet unit _ hact hwarm => hmay.begins hdet unit 0x0901 hact hwarm
  have hcore : ∀ {det : Nat}, 1 ≤ det ∧ det ≤ 11 → ∀ g : Nat, Begins s (s.detect det g 0x0901 (.core g)) det g (.core g) :=
    fun hdet g => hfires hdet g (.core g) nofun nofun
  have hdie : ∀ g d : Nat, Begins s (s.detect 3 g 0x0901 (.die d)) 3 g (.die d) :=
    fun g d => hfires (by decide) g (.die d) nofun nofun
  refine ⟨fun g u hhung => ?engine, fun g k hlive hrun hdue => ?thread,
    fun g i x hx hdue hlive hkind => ⟨fun d hsome hd => ?die, fun d e hb hd hb2 he hne => ?dies⟩,
    fun g c r hocc hlive hr hopen hodd hdue => ?generation, fun c hst hstop hroom hlimit => ?overrun,
    fun c g n hst htear hone hdue => ?teardown, fun hcount => ?warm⟩
  case engine => exact ⟨_, congrArg Host.Outcome.next (if_pos hhung), (hcore (by decide) g).of_flushed⟩
  case thread => exact ⟨_, congrArg Host.Outcome.next (if_pos ⟨hlive, hrun, hdue⟩), (hcore (by decide) g).of_flushed⟩
  case die =>
    refine ⟨_, exec_transferTimeout_overdue hx hdue hlive hkind, ?_⟩
    rw [Req.overdue_die hsome hd]
    exact (hdie g d).of_flushed
  case dies =>
    obtain ⟨hfirst, hwaits, hmem, hended⟩ := (hdie g d).waits hmay.up hne
    refine ⟨_, exec_transferTimeout_overdue hx hdue hlive hkind, ?_⟩
    rw [Req.overdue_dies hb hb2 (by rwa [hd, he]), hd, he, List.foldl_cons, List.foldl_cons, List.foldl_nil,
      State.flush_of_ended_nil hended]
    exact ⟨hfirst, hwaits, hmem⟩
  case generation =>
    refine ⟨_, exec_generationWait_waited hocc hlive hr hopen hodd hdue, ?_⟩
    exact (hfires (by decide) g (.ctxDown c) (fun d h => by cases h; exact State.occupant_lt hocc) nofun).of_flushed
  case overrun =>
    have hbegins := (hmay.raise hroom 0x0403 (some c.val) 0 [(s.ctx c).pos.imp]).begins (det := 5) (by decide) c 0x0403
      (act := .ctxDown c) (fun d h => by cases h; exact c.isLt) nofun
    have hraises := raises_raise (Nat.le_of_succ_le hroom) 0x0403 (some c.val) 0 [(s.ctx c).pos.imp]
    have hsays : (0x0403, some c.val, 0, [(s.ctx c).pos.imp])
        ∈ (s.raise 0x0403 (some c.val) 0 [(s.ctx c).pos.imp]).evq.map Event.says := by
      rw [hraises]
      exact List.mem_append_right _ (List.mem_singleton_self _)
    obtain ⟨e, he, hsays⟩ := List.mem_map.mp hsays
    refine ⟨_, congrArg Host.Outcome.next (if_pos ⟨hst, hstop, hlimit⟩), hbegins.of_flushed.1, ⟨e, ?_, hsays⟩, ?_⟩
    · rw [State.flush_of_ended_nil hbegins.ended]
      exact hbegins.evq.subset he
    · rw [hbegins.of_flushed.2, State.raise_mem]
  case teardown => exact ⟨_, exec_teardownTimeout_late hst htear hone hdue hmay.capture, (hcore (by decide) g).of_flushed⟩
  case warm =>
    have hwarm : ∀ {det : Nat}, 1 ≤ det ∧ det ≤ 11 → ∀ unit : Nat, Begins s (s.detect det unit 0x0901 .warm) det unit .warm :=
      fun hdet unit => hfires hdet unit .warm nofun fun _ => hcount
    refine ⟨fun g i x hx hdue hlive hkind hlpx => ?lpx,
      fun u hhung => ⟨_, congrArg Host.Outcome.next (if_pos hhung), (hwarm (by decide) u).of_flushed⟩,
      fun b hstall => ⟨_, congrArg Host.Outcome.next (if_pos hstall), (hwarm (by decide) b).of_flushed⟩,
      fun hphase hlow hhigh hmgmt hctrl => ?plane,
      fun hsilent hdue => ⟨_, congrArg Host.Outcome.next (if_pos ⟨hsilent, hdue⟩), (hwarm (by decide) 0).of_flushed⟩⟩
    case lpx =>
      refine ⟨_, exec_transferTimeout_overdue hx hdue hlive hkind, ?_⟩
      rw [Req.overdue_warm hlpx]
      exact (hwarm (by decide) g).of_flushed
    case plane =>
      have hcount' : (s.fset F.MGT_PLANE_STAT_CTRL_DOWN 1).countWarm.2 = .warm := by
        rw [← hcount, State.countWarm_act, State.countWarm_act, State.fget_fset_of_apart _ (by decide),
          State.fget_fset_of_apart _ (by decide)]
        rfl
      have hbegins := hmay.planeDown.begins (det := 9) (by decide) 0 0x0901 (act := .warm) nofun fun _ => hcount'
      refine ⟨_, congrArg Host.Outcome.next (if_pos ⟨hmay.up, hphase, hlow, hhigh, hmgmt, hctrl⟩), hbegins.of_flushed.1, ?_,
        hbegins.of_flushed.2⟩
      rw [State.flush_of_ended_nil hbegins.ended, hbegins.planeDown, State.fget_fset_self _ (by decide) (by decide)]

end Sys2Proof.Machine
end

section
/-!
PROOFS. Commands of a context in hand (R209, R210): which of them act, are held or are refused, what the change of a command's
stage leaves of its context, and the statement CommandsRefusedAndHeld.
-/

namespace Sys2Proof.Machine

/-! ### Commands that act, are held or are refused (R26, R209, R210) -/

section
variable {s : State} {c r opc : Nat} {k : Cmd}

/-- R209: a command that may act has its effect. -/
theorem CommandActs.cmdRow (h : CommandActs s c r opc k) (eff : State → Cmd → State) : s.cmdRow c r opc eff = eff s k := by
  have hlive : ¬ (transientState (s.ctxState c) = true ∧ opc ≠ 8 ∧ opc ≠ 10) := by
    rintro ⟨htrans, h8, h10⟩
    exact absurd (htrans.symm.trans ((h.state.resolve_left h8).resolve_left h10)) (by decide)
  simp [State.cmdRow, h.cur, h.op, h.stage, h.up, h.accepted, hlive]

variable (hk : (s.ring c r).cur = some k) (hop : k.opc = opc) (hstage : k.stage = .taken)
  (hup : s.fget F.MGT_PLANE_STAT_MGMT_DOWN = 0) (hopc : opc ≠ 8 ∧ opc ≠ 10)
include hk hop hstage hup

include hopc in
/-- R210: a transient state holds a command. -/
theorem State.cmdRow_transient (htrans : transientState (s.ctxState c) = true) (eff : State → Cmd → State) :
    s.cmdRow c r opc eff = s.modRing c r fun g => { g with cur := some { k with stage := .heldTransient } } := by
  simp [State.cmdRow, hk, hop, hstage, hup, htrans, hopc]

/-- R209: a command in a state that does not accept it completes with BAD_STATE. -/
theorem State.cmdRow_bad_state (htrans : transientState (s.ctxState c) = false)
    (hbad : acceptedIn opc (s.ctxState c) (s.fget (F.CTX_STAT_IMAGE c) == 1) = false) (eff : State → Cmd → State) :
    s.cmdRow c r opc eff = s.complete c r stBadState 0 0 := by
  simp [State.cmdRow, hk, hop, hstage, hup, htrans, hbad]

end

/-- The commands of Table 7-2 but TEARDOWN and QUERY, with their OPCs. -/
def contextCommands (c : CtxId) (r : RingId) : List (Nat × Instr) :=
  [(1, .loadForme c r), (2, .admitForme c r), (3, .runSteps c r), (4, .preempt c r), (5, .saveCmd c r), (6, .restore c r),
    (7, .migrate c r), (9, .setImposition c r)]

theorem contextCommands_opc {c : CtxId} {r : RingId} {p : Nat × Instr} (hp : p ∈ contextCommands c r) :
    p.1 ≠ 8 ∧ p.1 ≠ 10 :=
  have hopc : ∀ n ∈ [(1 : Nat), 2, 3, 4, 5, 6, 7, 9], n ≠ 8 ∧ n ≠ 10 := by decide
  hopc p.1 (List.mem_map_of_mem (f := Prod.fst) hp)

/-- Each of these commands acts, is held or is refused by `State.cmdRow`, and settles the requests it has ended. -/
theorem exec_contextCommand {c : CtxId} {r : RingId} {p : Nat × Instr} (hp : p ∈ contextCommands c r) (s : State) :
    ∃ eff, exec p.2 s = .next (s.cmdRow c r p.1 eff) ∨ exec p.2 s = .next (s.cmdRow c r p.1 eff).flush := by
  simp only [contextCommands, List.mem_cons, List.not_mem_nil, or_false] at hp
  rcases hp with rfl | rfl | rfl | rfl | rfl | rfl | rfl | rfl
  · exact ⟨_, .inl rfl⟩
  · exact ⟨_, .inl rfl⟩
  · exact ⟨_, .inl rfl⟩
  · exact ⟨_, .inl rfl⟩
  · exact ⟨_, .inl rfl⟩
  · exact ⟨_, .inl rfl⟩
  · exact ⟨_, .inr rfl⟩
  · exact ⟨_, .inr rfl⟩

/-- A command that ends no request needs no settling. -/
theorem exec_contextCommand_quiet {c : CtxId} {r : RingId} {p : Nat × Instr} (hp : p ∈ contextCommands c r) {s u : State}
    (hu : ∀ eff, s.cmdRow c r p.1 eff = u) (hended : u.ended = []) : exec p.2 s = .next u := by
  obtain ⟨eff, h | h⟩ := exec_contextCommand hp s
  · rw [h, hu]
  · rw [h, hu, State.flush_of_ended_nil hended]

/-! ### The stage of a command in hand -/

section
variable {s t u : State} {c r : Nat} {k : Cmd}

theorem State.ring_of_rings (h : (u.ctx c).rings = (s.ctx c).rings) (r : Nat) : u.ring c r = s.ring c r := by
  rw [State.ring, State.ring, h]

/-- What becomes of ring `r` as its command enters another stage. -/
def State.ringAt (s : State) (c r : Nat) (st : CmdStage) : Ring :=
  { s.ring c r with cur := (s.ring c r).cur.map fun k => { k with stage := st, since := s.timeUs } }

/-- A change of stage changes of its context the rings alone. -/
@[simp] theorem State.ctx_setStage (s : State) (c r : Nat) (st : CmdStage) :
    (s.setStage c r st).ctx c = { s.ctx c with rings := listSet (s.ctx c).rings r (s.ringAt c r st) } :=
  s.ctx_modCtx_same c _

theorem State.setStage_cur (hk : (s.ring c r).cur = some k) (st : CmdStage) :
    ((s.setStage c r st).ring c r).cur = some { k with stage := st, since := s.timeUs } := by
  rw [State.setStage, State.ring_modRing_same _ (s.ring_lt_of_cur hk), hk, Option.map_some]

/-- A command begun after updates that leave its ring and the clock is under way. -/
theorem State.begun_underWay (hk : (s.ring c r).cur = some k) (hrings : (t.ctx c).rings = (s.ctx c).rings)
    (htime : t.timeUs = s.timeUs) : UnderWay s (t.begun c r) c r k := by
  have ht : (t.ring c r).cur = some k := by rw [State.ring_of_rings hrings, hk]
  rw [UnderWay, State.begun, State.setStage_cur ht, htime]

theorem UnderWay.of_rings (h : UnderWay s t c r k) (hrings : (u.ctx c).rings = (t.ctx c).rings) : UnderWay s u c r k := by
  rw [UnderWay, State.ring_of_rings hrings]
  exact h

end

/-! ### The statement -/

/-- Settles O25: the row of every command holds it in a transient state, and completes it with BAD_STATE in a state that does
not accept it. -/
theorem commandsRefusedAndHeld : Obligations.CommandsRefusedAndHeld := by
  unfold Obligations.CommandsRefusedAndHeld
  intro c r s k p hp hk hop hstage hup hended
  have hopc := contextCommands_opc hp
  refine ⟨fun htrans => ?held, fun htrans hbad => ?refused⟩
  case held =>
    refine ⟨_, exec_contextCommand_quiet hp (State.cmdRow_transient hk hop hstage hup hopc htrans) hended, ?_, rfl, rfl, rfl⟩
    rw [State.ring_modRing_same _ (s.ring_lt_of_cur hk)]
  case refused =>
    have hframe := s.complete_frame c r stBadState 0 0
    refine ⟨_, exec_contextCommand_quiet hp (State.cmdRow_bad_state hk hop hstage hup htrans hbad) ?_,
      State.complete_completes _ _ _ hk, s.complete_ctxState .., hframe.mem, hframe.cores⟩
    rw [hframe]
    exact hended

end Sys2Proof.Machine
end

section
/-!
PROOFS. Operations of the context commands: registers of the dies, the cores that a context takes (R213), and the completions
and abandonments of other rings' commands (R209, R210).
-/

namespace Sys2Proof.Machine

/-! ### Registers of the dies -/

/-- Nothing differs but the cores, the dies and the registers from the dies' on (Table 16-4). -/
structure OnlyDies (s u : State) : Prop where
  frame : u = { s with regs := u.regs, cores := u.cores, dies := u.dies }
  fget : ∀ p : Fld, p.off < 0x01000000 → u.fget p = s.fget p

theorem OnlyDies.refl (s : State) : OnlyDies s s := ⟨rfl, fun _ _ => rfl⟩

theorem OnlyDies.trans {s t u : State} (h : OnlyDies s t) (h' : OnlyDies t u) : OnlyDies s u where
  frame := h'.frame.trans (by rw [h.frame])
  fget p hp := (h'.fget p hp).trans (h.fget p hp)

section
variable (s : State)

theorem OnlyDies.fset {f : Fld} (h : 0x01000000 ≤ f.off) (v : Nat) : OnlyDies s (s.fset f v) :=
  ⟨rfl, fun _ hp => s.fget_fset_reg (Nat.ne_of_lt (Nat.lt_of_lt_of_le hp h)) v⟩

theorem OnlyDies.modDie (d : Nat) (f : Die → Die) : OnlyDies s (s.modDie d f) := ⟨rfl, fun _ _ => rfl⟩

/-- R149: the ways that a forme locks. -/
theorem OnlyDies.lockForme (c : Nat) (f : Forme) : OnlyDies s (s.lockForme c f) :=
  foldl_rel .refl .trans (fun t d _ => foldl_rel .refl .trans (fun u w _ =>
    (OnlyDies.fset u (f := F.DC_WAYLOCK_WAY_OWNER d (w / 8) (w % 8)) (by dsimp only [R.DC_WAYLOCK, dieBase]; omega) c).trans
      (.modDie _ d _)) t) s

theorem OnlyDies.quoinSet (g q v : Nat) : OnlyDies s (s.quoinSet g q v) := by
  obtain ⟨k, d, h⟩ := s.quoinSet_frame g q v
  rw [h]
  exact ⟨rfl, fun _ _ => rfl⟩

end

/-! ### Cores taken (R213) -/

section
variable (s : State) (c g : Nat)

theorem State.thawCore_frame : s.thawCore g = { s with regs := (s.thawCore g).regs } := by
  unfold State.thawCore State.fsetIf
  split <;> split <;> rfl

theorem State.thawCore_fget {p : Fld} (hv : p.off ≠ R.VXE_STAT g) (hx : p.off ≠ R.XFE_STAT g) :
    (s.thawCore g).fget p = s.fget p := by
  have hif : ∀ (t : State) (b : Bool) (f : Fld), p.off ≠ f.off → (t.fsetIf b f 0).fget p = t.fget p := fun t b f hf => by
    unfold State.fsetIf
    split
    · exact t.fget_fset_reg hf 0
    · rfl
  exact (hif _ _ _ hx).trans (hif _ _ _ hv)

theorem State.occupy_frame : s.occupy c g = { s with regs := (s.occupy c g).regs } := by
  unfold State.occupy
  rw [s.thawCore_frame g]
  rfl

theorem State.occupy_fget {p : Fld} (h : p.off ≠ R.VXE_STAT g ∧ p.off ≠ R.XFE_STAT g ∧ p.off ≠ R.CORE_RES g ∧ p.off ≠ R.MXE_CHK_STAT g) :
    (s.occupy c g).fget p = s.fget p := by
  obtain ⟨hv, hx, hres, hchk⟩ := h
  unfold State.occupy
  rw [State.fget_fset_reg _ hchk, State.fget_fset_reg _ hres, State.fget_fset_reg _ hres, s.thawCore_fget g hv hx]

theorem OnlyDies.occupy : OnlyDies s (s.occupy c g) where
  frame := by rw [s.occupy_frame]
  fget p hp := s.occupy_fget c g (by dsimp only [R.VXE_STAT, R.XFE_STAT, R.CORE_RES, R.MXE_CHK_STAT, coreBase]; omega)

theorem State.occupy_occupant_same (hc : c < 8) : (s.occupy c g).occupant g = some c := by
  have hchk : R.CORE_RES g ≠ R.MXE_CHK_STAT g := by dsimp only [R.CORE_RES, R.MXE_CHK_STAT]; omega
  unfold State.occupy
  rw [State.occupant, State.fget_fset_reg _ (p := F.CORE_RES_OCCUPIED g) hchk, State.fget_fset_reg _ (p := F.CORE_RES_CTX g) hchk,
    State.fget_fset_apart _ _ (by decide), State.fget_fset_self _ (by decide) (by decide),
    State.fget_fset_self _ (by decide) hc, if_pos rfl]

theorem State.occupy_occupant_ne {h : Nat} (hne : h ≠ g) : (s.occupy c g).occupant h = s.occupant h := by
  have hreg : R.CORE_RES h ≠ R.VXE_STAT g ∧ R.CORE_RES h ≠ R.XFE_STAT g ∧ R.CORE_RES h ≠ R.CORE_RES g
      ∧ R.CORE_RES h ≠ R.MXE_CHK_STAT g := by
    refine ⟨?_, ?_, fun e => hne (coreRes_injective e), ?_⟩
    · dsimp only [R.CORE_RES, R.VXE_STAT, coreBase]; omega
    · dsimp only [R.CORE_RES, R.XFE_STAT, coreBase]; omega
    · dsimp only [R.CORE_RES, R.MXE_CHK_STAT, coreBase]; omega
  rw [State.occupant, State.occupant, s.occupy_fget c g (p := F.CORE_RES_OCCUPIED h) hreg,
    s.occupy_fget c g (p := F.CORE_RES_CTX h) hreg]

/-- R213: the cores `l` taken by context `c`. -/
def State.occupyAll (l : List Nat) : State := l.foldl (fun s g => s.occupy c g) s

theorem State.occupyAll_frame (l : List Nat) : s.occupyAll c l = { s with regs := (s.occupyAll c l).regs } :=
  foldl_rel (rel := fun s u : State => u = { s with regs := u.regs }) (fun _ => rfl) (fun h h' => h'.trans (by rw [h]))
    (fun t g _ => t.occupy_frame c g) s

theorem OnlyDies.occupyAll (l : List Nat) : OnlyDies s (s.occupyAll c l) :=
  foldl_rel .refl .trans (fun t g _ => .occupy t c g) s

/-- A core of the list, or one that was the context's before, is the context's. -/
theorem State.occupyAll_occupant (hc : c < 8) {l : List Nat} {g : Nat} (h : g ∈ l ∨ s.occupant g = some c) :
    (s.occupyAll c l).occupant g = some c := by
  induction l generalizing s with
  | nil => exact h.resolve_left List.not_mem_nil
  | cons a r ih =>
    refine ih _ ?_
    by_cases ha : g = a
    · subst ha
      exact .inr (s.occupy_occupant_same c g hc)
    · rw [s.occupy_occupant_ne c a ha]
      exact h.imp_left fun hin => (List.mem_cons.mp hin).resolve_left ha

end

/-! ### Commands of other rings (R209, R210) -/

/-- A completion changes no field of a register at 0x1000 or above. -/
theorem State.complete_fget_high (s : State) (c r status detail value : Nat) {p : Fld} (hp : p.lo ≤ p.hi) (ho : 0x1000 ≤ p.off) :
    (s.complete c r status detail value).fget p = s.fget p :=
  s.complete_fget c r status detail value (p.apart_of_low hp ho (by decide)) (p.apart_of_low hp ho (by decide))
    (p.apart_of_low hp ho (by decide))

/-- Commands have completed, and neither ring `r` of context `c` nor the context's image on its way in nor its recovery order
is another. -/
structure LeavesRing (c r : Nat) (s u : State) : Prop where
  frame : OnlyRegsCtxsEvents s u
  ring : u.ring c r = s.ring c r
  loading : (u.ctx c).loading = (s.ctx c).loading
  order : (u.ctx c).coll.order = (s.ctx c).coll.order

section
variable {c r : Nat} {s t u : State}

theorem LeavesRing.refl (c r : Nat) (s : State) : LeavesRing c r s s := ⟨.refl s, rfl, rfl, rfl⟩

theorem LeavesRing.trans (h : LeavesRing c r s t) (h' : LeavesRing c r t u) : LeavesRing c r s u where
  frame := h.frame.trans h'.frame
  ring := h'.ring.trans h.ring
  loading := h'.loading.trans h.loading
  order := h'.order.trans h.order

theorem LeavesRing.complete {q : Nat} (hq : q ≠ r) (s : State) (status detail value : Nat) :
    LeavesRing c r s (s.complete c q status detail value) where
  frame := s.complete_frame ..
  ring := State.complete_ring_ne _ _ _ _ _ _ fun h => hq h.2
  loading := s.complete_ctx_view (view := Ctx.loading) (fun _ _ => rfl) (fun _ _ => rfl) (fun _ => rfl) ..
  order := s.complete_ctx_view (view := fun x => x.coll.order) (fun _ _ => rfl) (fun _ _ => rfl) (fun _ => rfl) ..

/-- A visit to every ring that completes the commands in hand of which `p` holds. -/
def State.completeWhere (s : State) (c status : Nat) (p : Cmd → Prop) [DecidablePred p] : State :=
  (List.range 4).foldl (fun s q => match (s.ring c q).cur with
    | some k => if p k then s.complete c q status 0 0 else s
    | none => s) s

/-- Where `p` does not hold of the command of ring `r`, the ring is left. -/
theorem LeavesRing.completeWhere {k : Cmd} (hk : (s.ring c r).cur = some k) {p : Cmd → Prop} [DecidablePred p] (hp : ¬ p k)
    (status : Nat) : LeavesRing c r s (s.completeWhere c status p) := by
  refine List.foldlRecOn (motive := LeavesRing c r s) _ _ (.refl c r s) fun t ht q _ => ?_
  split
  · next k' hk' =>
    split
    · next htaken =>
      refine ht.trans (.complete (fun hq => ?_) t ..)
      rw [hq, ht.ring, hk, Option.some.injEq] at hk'
      exact hp (hk' ▸ htaken)
    · exact ht
  · exact ht

theorem State.completeAll_eq (s : State) (c opc status : Nat) :
    s.completeAll c opc status = s.completeWhere c status fun k => k.opc = opc ∧ k.stage = .active := rfl

/-- The commands that a teardown ends (R210, R313). -/
def State.tornCommands (s : State) (c : Nat) : State :=
  ([4, 5, 6, 7, 9].foldl (fun s o => s.completeAll c o stTornDown) s).completeWhere c stTornDown fun k =>
    (k.opc = 9 ∧ k.stage ≠ .heldMgmt) ∨ k.stage = .waitCores

theorem State.abandonCommands_eq (s : State) (c : Nat) : s.abandonCommands c = ((s.tornCommands c).modCtx c fun x =>
    { x with launch := none, stop := none, coll := { x.coll with pend := none, tasks := [] } }).fset (F.TRN_IMP_STAT_PENDING c) 0 :=
  rfl

/-- R210: a command under way that is none of those a teardown ends stays in its ring. -/
theorem LeavesRing.tornCommands {k : Cmd} (hk : (s.ring c r).cur = some k) (hopc : k.opc = 8) (hstage : k.stage = .active) :
    LeavesRing c r s (s.tornCommands c) := by
  have hall : LeavesRing c r s ([4, 5, 6, 7, 9].foldl (fun s o => s.completeAll c o stTornDown) s) := by
    refine List.foldlRecOn (motive := LeavesRing c r s) _ _ (.refl c r s) fun t ht o ho => ht.trans ?_
    rw [t.completeAll_eq]
    refine .completeWhere (k := k) (by rw [ht.ring, hk]) (fun h => ?_) _
    rw [← h.1, hopc] at ho
    exact absurd ho (by decide)
  exact hall.trans (.completeWhere (k := k) (by rw [hall.ring, hk]) (by simp [hopc, hstage]) stTornDown)

theorem LeavesRing.abandonCommands {k : Cmd} (hk : (s.ring c r).cur = some k) (hopc : k.opc = 8) (hstage : k.stage = .active) :
    LeavesRing c r s (s.abandonCommands c) := by
  have htorn := LeavesRing.tornCommands hk hopc hstage
  rw [State.abandonCommands_eq]
  generalize s.tornCommands c = t at htorn
  refine htorn.trans ⟨rfl, ?_, ?_, ?_⟩
  · exact State.ring_of_rings (by rw [State.fset_ctx', State.ctx_modCtx_same]) r
  · rw [State.fset_ctx', State.ctx_modCtx_same]
  · rw [State.fset_ctx', State.ctx_modCtx_same]

end

theorem State.abandonCommands_stops (s : State) (c : Nat) :
    ((s.abandonCommands c).ctx c).launch = none ∧ ((s.abandonCommands c).ctx c).stop = none := by
  rw [State.abandonCommands_eq, State.fset_ctx', State.ctx_modCtx_same]
  exact ⟨rfl, rfl⟩

/-- R209: a LOAD_FORME given up on another ring than `r`. -/
structure GivesUpLoad (c r : Nat) (s u : State) : Prop where
  mem : u.mem = s.mem
  cores : u.cores = s.cores
  ring : u.ring c r = s.ring c r
  gone : (u.ctx c).loading = none
  launch : (u.ctx c).launch = (s.ctx c).launch
  stop : (u.ctx c).stop = (s.ctx c).stop
  order : (u.ctx c).coll.order = (s.ctx c).coll.order

theorem State.abandonLoad_some {s : State} {c : Nat} {l : Loading} (h : (s.ctx c).loading = some l) :
    ∃ x, s.abandonLoad c = ((State.modCtx { s with hpt := x } c fun y => { y with loading := none }).raise 0x0401 (some c) 0
      [0x50]).complete c l.ring stRefused 0x50 0 := ⟨_, by simp only [State.abandonLoad, h]; rfl⟩

theorem State.abandonLoad_givesUp {s : State} {c r : Nat} (h : ∀ l, (s.ctx c).loading = some l → l.ring ≠ r) :
    GivesUpLoad c r s (s.abandonLoad c) := by
  cases hl : (s.ctx c).loading with
  | none =>
    have hsame : s.abandonLoad c = s := by simp only [State.abandonLoad, hl]
    rw [hsame]
    exact ⟨rfl, rfl, rfl, hl, rfl, rfl, rfl⟩
  | some l =>
    obtain ⟨x, hx⟩ := State.abandonLoad_some hl
    have hmem := State.raise_mem (State.modCtx { s with hpt := x } c fun y => { y with loading := none }) 0x0401 (some c) 0 [0x50]
    have hcores := State.raise_cores (State.modCtx { s with hpt := x } c fun y => { y with loading := none }) 0x0401 (some c) 0
      [0x50]
    have hctx : ((State.modCtx { s with hpt := x } c fun y => { y with loading := none }).raise 0x0401 (some c) 0 [0x50]).ctx c
        = { s.ctx c with loading := none } := by
      rw [State.ctx_of_ctxs (State.raise_ctxs ..), State.ctx_modCtx_same]
      rfl
    rw [hx]
    generalize (State.modCtx { s with hpt := x } c fun y => { y with loading := none }).raise 0x0401 (some c) 0 [0x50] = t
      at hmem hcores hctx
    have hleft := LeavesRing.complete (c := c) (h l hl) t stRefused 0x50 0
    exact {
      mem := hleft.frame.mem.trans hmem
      cores := hleft.frame.cores.trans hcores
      ring := hleft.ring.trans (State.ring_of_rings (by rw [hctx]) r)
      gone := hleft.loading.trans (by rw [hctx])
      launch := (t.complete_ctx_view (view := Ctx.launch) (fun _ _ => rfl) (fun _ _ => rfl) (fun _ => rfl) ..).trans (by rw [hctx])
      stop := (t.complete_ctx_view (view := Ctx.stop) (fun _ _ => rfl) (fun _ _ => rfl) (fun _ => rfl) ..).trans (by rw [hctx])
      order := hleft.order.trans (by rw [hctx]) }

end Sys2Proof.Machine
end

section
/-!
PROOFS. The commands that act at once (R209 to R211, R213, R219, R393) and the statement ContextCommandsAct.
-/

namespace Sys2Proof.Machine

/-! ### LOAD_FORME (R209, R393) -/

/-- A packet sent or held back changes what waits for a pause and what is sent. -/
theorem State.sendHost_frame (s : State) (p : Nat) (l : List Out) :
    ∃ h o, s.sendHost p l = { s with hpt := { s.hpt with held := h }, out := o } := by
  unfold State.sendHost
  split
  · exact ⟨_, _, rfl⟩
  · exact ⟨_, _, rfl⟩

theorem State.qp_modQp {s : State} {n : Nat} {q : HostQp} {f : HostQp → HostQp} (hf : ∀ q, (f q).num = q.num)
    (h : s.qp? n = some q) : (s.modQp n f).qp? n = some (f q) := by
  have hnum : q.num = n := by simpa using List.find?_some h
  have hkey : ((fun q : HostQp => q.num == n) ∘ fun q => if q.num = n then f q else q) = fun q => q.num == n := by
    funext x
    by_cases hx : x.num = n
    · simp [hx, hf]
    · simp [hx]
  rw [State.qp?] at h
  rw [State.qp?, State.modQp, List.find?_map, hkey, h, Option.map_some, if_pos hnum]

/-- A request of `len` bytes at `vaddr` stands at the end of what queue pair `q` has sent, and nothing but the host port and
what is sent differs. -/
structure Posts (s u : State) (q : HostQp) (read : Bool) (vaddr rkey len : Nat) : Prop where
  frame : u = { s with hpt := u.hpt, out := u.out }
  sends : ∃ p x, u.qp? q.num = some p ∧ p.sent = q.sent ++ [x] ∧ x.read = read ∧ x.vaddr = vaddr ∧ x.rkey = rkey ∧ x.len = len

/-- R388: a new request over a queue pair. -/
theorem State.postReq_posts {s : State} {n : Nat} {q : HostQp} (hq : s.qp? n = some q) (read : Bool) (vaddr rkey len : Nat)
    (data : List Byte) (own : QOwn Rec Event) : Posts s (s.postReq q read vaddr rkey len data own) q read vaddr rkey len := by
  have hnum : q.num = n := by simpa using List.find?_some hq
  subst hnum
  unfold State.postReq State.sendReq State.sendPkt
  dsimp only
  obtain ⟨h, o, hsend⟩ := State.sendHost_frame (s.modQp q.num _) _ _
  rw [hsend]
  exact ⟨rfl, _, _, State.qp_modQp (fun _ => by rfl) hq, rfl, rfl, rfl, rfl, rfl⟩

section
variable {s : State} {c : CtxId} {r : RingId} {k : Cmd}

theorem State.loadForme_acts {q : HostQp} (h : CommandActs s c r 1 k) (hnone : (s.ctx c).loading = none)
    (hq : (s.ctx c).crQp.bind s.qp? = some q) (hlive : q.err = false) (hlen : k.arg 20 8 ≠ 0) :
    s.loadForme c r = ((s.begun c r).modCtx c fun x => { x with loading := some ⟨r, [], k.arg 20 8, false, s.nextLoadSeq⟩ }).postReq
      q true (k.arg 8 8) (k.arg 16 4) (k.arg 20 8) [] (.image c r) := by
  have hwant : (k.arg 20 8 == 0) = false := beq_false_of_ne hlen
  rw [State.loadForme, h.cmdRow]
  simp [hnone, hq, hlive, hlen, hwant]

/-- R209, R393: LOAD_FORME asks the host for its image. -/
theorem exec_loadForme_asks {q : HostQp} (h : CommandActs s c r 1 k) (hnone : (s.ctx c).loading = none)
    (hq : (s.ctx c).crQp.bind s.qp? = some q) (hlive : q.err = false) (hlen : k.arg 20 8 ≠ 0) :
    ∃ u p x, exec (.loadForme c r) s = .next u ∧ UnderWay s u c r k
      ∧ (u.ctx c).loading = some ⟨r, [], k.arg 20 8, false, s.nextLoadSeq⟩
      ∧ u.qp? q.num = some p ∧ p.sent = q.sent ++ [x] ∧ x.read = true ∧ x.vaddr = k.arg 8 8 ∧ x.rkey = k.arg 16 4
      ∧ x.len = k.arg 20 8 ∧ u.mem = s.mem ∧ u.cores = s.cores ∧ u.regs = s.regs := by
  obtain ⟨n, -, hn⟩ := Option.bind_eq_some_iff.mp hq
  have hexec : exec (.loadForme c r) s = .next (s.loadForme c r) := rfl
  rw [State.loadForme_acts h hnone hq hlive hlen] at hexec
  generalize ht : ((s.begun c r).modCtx c fun x => { x with loading := some ⟨r, [], k.arg 20 8, false, s.nextLoadSeq⟩ }) = t
    at hexec
  have htqp : t.qp? n = some q := by rw [← ht]; exact hn
  have htctx : t.ctx c = { (s.begun c r).ctx c with loading := some ⟨r, [], k.arg 20 8, false, s.nextLoadSeq⟩ } := by
    rw [← ht, State.ctx_modCtx_same]
  have hposts := State.postReq_posts htqp true (k.arg 8 8) (k.arg 16 4) (k.arg 20 8) [] (.image c r)
  generalize t.postReq q true (k.arg 8 8) (k.arg 16 4) (k.arg 20 8) [] (.image c r) = u at hexec hposts
  obtain ⟨p, x, hpair, hsent, hread, haddr, hkey, hwant⟩ := hposts.sends
  have hctx : u.ctx c = t.ctx c := State.ctx_of_ctxs (by rw [hposts.frame]) c
  refine ⟨u, p, x, hexec, ?_, ?_, hpair, hsent, hread, haddr, hkey, hwant, ?_, ?_, ?_⟩
  · exact (State.begun_underWay h.cur rfl rfl).of_rings (by rw [hctx, htctx])
  · rw [hctx, htctx]
  · rw [hposts.frame, ← ht]; rfl
  · rw [hposts.frame, ← ht]; rfl
  · rw [hposts.frame, ← ht]; rfl

/-! ### ADMIT (R211) -/

/-- The context of an admitted slot at its first step. -/
def Ctx.admitted (x : Ctx) (seed : Nat) : Ctx :=
  { x with srSeed := seed, step := 0, pos := ⟨false, 0, false⟩, counts := [], ran := false }

/-- CTX_CFG and CTX_IMP as ADMIT sets them (Table 13-6). -/
def State.admitRegs (s : State) (c : Nat) (k : Cmd) : State :=
  ((((((s.fset (F.CTX_CFG_TICK_GROUP c) (k.arg 16 2)).fset (F.CTX_CFG_RANGE_KEEP c) (k.arg 18 1)).fset
    (F.CTX_CFG_HOLD_ON_FAULT c) (k.arg 18 1 / 2)).fset (F.CTX_CFG_PEER_TO_MS c)
      (if k.arg 20 4 = 0 then 100 else k.arg 20 4)).fset (F.CTX_IMP_IMP_COUNT c) 0).fset (F.CTX_IMP_IMP_POS c) 0)

theorem State.admitRegs_frame (s : State) (c : Nat) (k : Cmd) : s.admitRegs c k = { s with regs := (s.admitRegs c k).regs } := rfl

theorem State.admitRegs_tickGroup (s : State) (c : Nat) (k : Cmd) :
    (s.admitRegs c k).fget (F.CTX_CFG_TICK_GROUP c) = k.arg 16 2 := by
  unfold State.admitRegs
  have himp : R.CTX_CFG c ≠ R.CTX_IMP c := by dsimp only [R.CTX_CFG, R.CTX_IMP]; omega
  rw [State.fget_fset_reg _ (f := F.CTX_IMP_IMP_POS c) himp, State.fget_fset_reg _ (f := F.CTX_IMP_IMP_COUNT c) himp,
    State.fget_fset_apart _ _ (by decide), State.fget_fset_apart _ _ (by decide), State.fget_fset_apart _ _ (by decide),
    State.fget_fset_self _ (by decide) (leAt_lt _ _ _)]

theorem State.admitRegs_peerTimeout (s : State) (c : Nat) (k : Cmd) : (s.admitRegs c k).fget (F.CTX_CFG_PEER_TO_MS c) =
    if k.arg 20 4 = 0 then 100 else k.arg 20 4 % 2 ^ 14 := by
  unfold State.admitRegs
  have himp : R.CTX_CFG c ≠ R.CTX_IMP c := by dsimp only [R.CTX_CFG, R.CTX_IMP]; omega
  rw [State.fget_fset_reg _ (f := F.CTX_IMP_IMP_POS c) himp, State.fget_fset_reg _ (f := F.CTX_IMP_IMP_COUNT c) himp,
    State.fget_fset_same _ (F.CTX_CFG_PEER_TO_MS c) _ (show 16 ≤ 29 by decide) (show 29 < 32 by decide)]
  split <;> rfl

/-- The forme's ways locked and its die quoins at 0, where the context's registers have been set (R149, R211). -/
def State.provisioned (s : State) (c : Nat) (f : Forme) (k : Cmd) : State :=
  f.quoins.foldl (fun s q => s.quoinSet (32 * q.die) q.num 0)
    (((s.modCtx c fun x => x.admitted (k.arg 8 8)).admitRegs c k).lockForme c f)

/-- The collective state of an admitted slot: the implicit imposition in force (R309). -/
def State.admitted (s : State) (c : Nat) (f : Forme) : State :=
  (((s.modColl c fun _ => { Coll.zero with imp := some (s.implicit f), segs := f.slots.segs }).fset (F.RDX_EPOCH_CUR_EPOCH c)
    0).setCtxState c ctxIdle).latch c

theorem State.provisioned_dies (s : State) (c : Nat) (f : Forme) (k : Cmd) :
    OnlyDies ((s.modCtx c fun x => x.admitted (k.arg 8 8)).admitRegs c k) (s.provisioned c f k) :=
  (OnlyDies.lockForme _ c f).trans (foldl_rel .refl .trans (fun t q _ => .quoinSet t _ q.num 0) _)

section
variable (s : State) (c : CtxId) (f : Forme)

theorem State.ctx_admitted : ∃ l, (s.admitted c f).ctx c = { s.ctx c with coll := l } := by
  unfold State.admitted
  rw [State.latch, State.modColl, State.ctx_modCtx_same, State.ctx_setCtxState, State.fset_ctx', State.modColl,
    State.ctx_modCtx_same]
  exact ⟨_, rfl⟩

theorem State.admitted_frame : s.admitted c f = { s with regs := (s.admitted c f).regs, ctxs := (s.admitted c f).ctxs } := rfl

theorem State.admitted_fget_cfg (hi lo : Nat) : (s.admitted c f).fget ⟨R.CTX_CFG c, hi, lo⟩ = s.fget ⟨R.CTX_CFG c, hi, lo⟩ := by
  have hstat : R.CTX_CFG c ≠ R.CTX_STAT c := by dsimp only [R.CTX_CFG, R.CTX_STAT]; omega
  have hepoch : R.CTX_CFG c ≠ R.RDX_EPOCH c := by dsimp only [R.CTX_CFG, R.RDX_EPOCH]; omega
  rw [State.admitted, State.latch, State.modColl, State.modCtx_fget', State.setCtxState,
    State.fget_fset_reg _ (f := F.CTX_STAT_STATE c) (p := ⟨R.CTX_CFG c, hi, lo⟩) hstat,
    State.fget_fset_reg _ (f := F.RDX_EPOCH_CUR_EPOCH c) (p := ⟨R.CTX_CFG c, hi, lo⟩) hepoch, State.modColl, State.modCtx_fget']

theorem State.admitted_idle : (s.admitted c f).ctxState c = ctxIdle := by
  rw [State.admitted, State.latch, State.modColl, State.modCtx_ctxState']
  exact State.fget_fset_self _ (by decide) (by decide)

end

theorem State.admitForme_acts {f : Forme} (h : CommandActs s c r 2 k) (hf : (s.ctx c).forme = some f) :
    s.admitForme c r = ((s.provisioned c f k).admitted c f).complete c r stOk 0 0 := by
  rw [State.admitForme, h.cmdRow]
  simp only [hf]
  rfl

/-- R211: ADMIT makes a context IDLE with its operands, and completes. -/
theorem exec_admitForme_admits {f : Forme} (h : CommandActs s c r 2 k) (hf : (s.ctx c).forme = some f) :
    ∃ u, exec (.admitForme c r) s = .next u ∧ Completes s u c r k stOk 0 0 ∧ u.ctxState c = ctxIdle
      ∧ (u.ctx c).srSeed = k.arg 8 8 ∧ (u.ctx c).step = 0 ∧ u.fget (F.CTX_CFG_TICK_GROUP c) = k.arg 16 2
      ∧ u.fget (F.CTX_CFG_PEER_TO_MS c) = (if k.arg 20 4 = 0 then 100 else k.arg 20 4 % 2 ^ 14) ∧ u.mem = s.mem := by
  have hexec : exec (.admitForme c r) s = .next (s.admitForme c r) := rfl
  rw [State.admitForme_acts h hf] at hexec
  have hprov := State.provisioned_dies s c f k
  have hgroup := State.admitRegs_tickGroup (s.modCtx c fun x => x.admitted (k.arg 8 8)) c k
  have hto := State.admitRegs_peerTimeout (s.modCtx c fun x => x.admitted (k.arg 8 8)) c k
  have hstart : ((s.modCtx c fun x => x.admitted (k.arg 8 8)).admitRegs c k).ctx c = (s.ctx c).admitted (k.arg 8 8) := by
    rw [State.ctx_of_ctxs (s := s.modCtx c _) (by rw [State.admitRegs_frame]), State.ctx_modCtx_same]
  generalize hv : s.provisioned c f k = v at hexec hprov
  have hvctx : v.ctx c = (s.ctx c).admitted (k.arg 8 8) := (State.ctx_of_ctxs (by rw [hprov.frame]) c).trans hstart
  obtain ⟨l, hw⟩ := v.ctx_admitted c f
  have hwctx : (v.admitted c f).ctx c = { (s.ctx c).admitted (k.arg 8 8) with coll := l } := by rw [hw, hvctx]
  have hframe := (v.admitted c f).complete_frame c r stOk 0 0
  have hcfg : ∀ hi lo, lo ≤ hi → ((v.admitted c f).complete c r stOk 0 0).fget ⟨R.CTX_CFG c, hi, lo⟩ =
      ((s.modCtx c fun x => x.admitted (k.arg 8 8)).admitRegs c k).fget ⟨R.CTX_CFG c, hi, lo⟩ := fun hi lo h => by
    rw [State.complete_fget_high _ _ _ _ _ _ h (by dsimp only [R.CTX_CFG]; omega), State.admitted_fget_cfg]
    exact hprov.fget _ (by dsimp only [R.CTX_CFG]; omega)
  have hcur : ((v.admitted c f).ring c r).cur = some k := by
    rw [State.ring_of_rings (s := s) (by rw [hwctx]; rfl), h.cur]
  refine ⟨_, hexec, (State.complete_completes _ _ _ hcur).of_before (by rw [hwctx]; rfl) ?_, ?_, ?_, ?_, ?_, ?_, ?_⟩
  · rw [State.admitted_frame, hprov.frame]; rfl
  · rw [State.complete_ctxState, State.admitted_idle]
  · rw [State.complete_ctx_view (view := Ctx.srSeed) (fun _ _ => rfl) (fun _ _ => rfl) (fun _ => rfl), hwctx]; rfl
  · rw [State.complete_ctx_view (view := Ctx.step) (fun _ _ => rfl) (fun _ _ => rfl) (fun _ => rfl), hwctx]; rfl
  · exact (hcfg 15 0 (by decide)).trans hgroup
  · exact (hcfg 29 16 (by decide)).trans hto
  · rw [hframe.mem, State.admitted_frame, hprov.frame]; rfl

/-! ### RUN_STEPS (R209, R213) -/

/-- The steps of a RUN_STEPS added to its context's, and its completion. -/
def State.addSteps (s : State) (c r : Nat) (k : Cmd) : State :=
  let t := (s.modCtx c fun x => { x with counts := x.counts ++ [⟨r, k.tag, k.arg 8 4⟩] }).showSteps c
  t.complete c r stOk 0 (t.stepsLeft c)

/-- What RUN_STEPS adds to a context that runs. -/
structure AddsSteps (c r : Nat) (k : Cmd) (s u : State) : Prop extends KeepsMemory c s u where
  cores : u.cores = s.cores
  completes : Completes s u c r k stOk 0 (s.stepsLeft c + k.arg 8 4)
  counts : (u.ctx c).counts = (s.ctx c).counts ++ [⟨r, k.tag, k.arg 8 4⟩]
  launch : (u.ctx c).launch = (s.ctx c).launch

theorem State.addSteps_adds {s : State} {c r : Nat} {k : Cmd} (hc : c < 8) (hk : (s.ring c r).cur = some k) :
    AddsSteps c r k s (s.addSteps c r k) := by
  unfold State.addSteps
  have hctx : ((s.modCtx c fun x => { x with counts := x.counts ++ [⟨r, k.tag, k.arg 8 4⟩] }).showSteps c).ctx c
      = { s.ctx c with counts := (s.ctx c).counts ++ [⟨r, k.tag, k.arg 8 4⟩] } := by
    rw [State.showSteps, State.fset_ctx', State.ctx_modCtx_same]
  have hkeeps : KeepsMemory c s ((s.modCtx c fun x => { x with counts := x.counts ++ [⟨r, k.tag, k.arg 8 4⟩] }).showSteps c) :=
    (KeepsMemory.modCtx c s _).trans (.showSteps _ hc)
  have hcores : ((s.modCtx c fun x => { x with counts := x.counts ++ [⟨r, k.tag, k.arg 8 4⟩] }).showSteps c).cores = s.cores := rfl
  generalize (s.modCtx c fun x => { x with counts := x.counts ++ [⟨r, k.tag, k.arg 8 4⟩] }).showSteps c = t at hctx hkeeps hcores
  have hleft : t.stepsLeft c = s.stepsLeft c + k.arg 8 4 := by
    rw [State.stepsLeft, State.stepsLeft, hctx]
    simp only [List.map_append, List.sum_append, List.map_cons, List.map_nil, List.sum_cons, List.sum_nil]
    omega
  have hcur : (t.ring c r).cur = some k := by rw [State.ring_of_rings (s := s) (by rw [hctx]), hk]
  dsimp only
  rw [hleft]
  exact {
    toKeepsMemory := hkeeps.trans (.complete t ..)
    cores := (t.complete_frame ..).cores.trans hcores
    completes := (State.complete_completes _ _ _ hcur).of_before (by rw [hctx]) hkeeps.tick
    counts := (t.complete_ctx_view (view := Ctx.counts) (fun _ _ => rfl) (fun _ _ => rfl) (fun _ => rfl) ..).trans (by rw [hctx])
    launch := (t.complete_ctx_view (view := Ctx.launch) (fun _ _ => rfl) (fun _ _ => rfl) (fun _ => rfl) ..).trans (by rw [hctx]) }

/-- R209: a RUNNING context takes the steps. -/
theorem exec_runSteps_running (h : CommandActs s c r 3 k) (hrun : s.ctxState c = ctxRunning) : ∃ u, exec (.runSteps c r) s = .next u
    ∧ Completes s u c r k stOk 0 (s.stepsLeft c + k.arg 8 4) ∧ (u.ctx c).counts = (s.ctx c).counts ++ [⟨r, k.tag, k.arg 8 4⟩]
    ∧ u.ctxState c = ctxRunning ∧ u.mem = s.mem ∧ u.cores = s.cores := by
  have hacts : s.runSteps c r = s.addSteps c r k := by
    rw [State.runSteps, h.cmdRow]
    exact if_pos hrun
  have hadds := State.addSteps_adds c.isLt h.cur
  rw [← hacts] at hadds
  exact ⟨_, rfl, hadds.completes, hadds.counts, (hadds.state c).trans hrun, hadds.mem, hadds.cores⟩

/-- An IDLE context that takes its cores and awaits the launch tick. -/
def State.launched (s : State) (c r : Nat) : State :=
  ((s.occupyAll c (s.chaseCoresOf c)).modCtx c fun x => { x with launch := some ⟨false, r, none, s.timeUs⟩ }).setCtxState c ctxRunning

/-- R213: an IDLE context whose cores are free takes them, and the steps. -/
theorem exec_runSteps_launches (h : CommandActs s c r 3 k) (hidle : s.ctxState c = ctxIdle) (hfits : s.impositionFits c = true)
    (hfree : s.coresFree c = true) : ∃ u, exec (.runSteps c r) s = .next u
    ∧ Completes s u c r k stOk 0 (s.stepsLeft c + k.arg 8 4) ∧ u.ctxState c = ctxRunning
    ∧ (u.ctx c).launch = some ⟨false, r, none, s.timeUs⟩ ∧ (∀ g ∈ s.chaseCoresOf c, u.occupant g = some c.val)
    ∧ u.mem = s.mem ∧ u.cores = s.cores := by
  have hframe := s.occupyAll_frame c (s.chaseCoresOf c)
  have htime : (s.occupyAll c (s.chaseCoresOf c)).timeUs = s.timeUs := by rw [hframe]
  have hacts : s.runSteps c r = (s.launched c r).addSteps c r k := by
    have hnot : s.ctxState c ≠ ctxRunning := by rw [hidle]; decide
    rw [State.runSteps, h.cmdRow, State.launched, ← htime]
    simp only [hnot, hfits, hfree, if_true, if_false, Bool.true_eq_false]
    rfl
  have hctx : (s.launched c r).ctx c = { s.ctx c with launch := some ⟨false, r, none, s.timeUs⟩ } := by
    rw [State.launched, State.ctx_setCtxState, State.ctx_modCtx_same, State.ctx_of_ctxs (s := s) (by rw [hframe])]
  have hrest : (s.launched c r).mem = s.mem ∧ (s.launched c r).cores = s.cores ∧ (s.launched c r).tick = s.tick := by
    unfold State.launched
    rw [hframe]
    exact ⟨rfl, rfl, rfl⟩
  have hrun : (s.launched c r).ctxState c = ctxRunning := State.fget_fset_self _ (by decide) (by decide)
  have hocc : ∀ g ∈ s.chaseCoresOf c, (s.launched c r).occupant g = some c.val := fun g hg => by
    refine Eq.trans ?_ (s.occupyAll_occupant c c.isLt (.inl hg))
    exact State.occupant_of_fget (fun g => State.fget_fset_reg _ (coreRes_ne_ctxStat c.isLt g) _)
      (fun g => State.fget_fset_reg _ (coreRes_ne_ctxStat c.isLt g) _) g
  have hleft : (s.launched c r).stepsLeft c = s.stepsLeft c := by rw [State.stepsLeft, State.stepsLeft, hctx]
  obtain ⟨hmem, hcores, htick⟩ := hrest
  have hadds := State.addSteps_adds (s := s.launched c r) (r := r) c.isLt (k := k)
    (by rw [State.ring_of_rings (s := s) (by rw [hctx]), h.cur])
  rw [← hacts] at hadds
  refine ⟨_, rfl, ?_, (hadds.state c).trans hrun, hadds.launch.trans (by rw [hctx]), fun g hg => (hadds.occupant g).trans (hocc g hg),
    hadds.mem.trans hmem, hadds.cores.trans hcores⟩
  exact (hleft ▸ hadds.completes).of_before (by rw [hctx]) htick

/-! ### PREEMPT and SAVE (R209, R219) -/

/-- R219: a first stop is pending. -/
theorem State.addStop_pends (hk : (s.ring c r).cur = some k) (hnone : (s.ctx c).stop = none) (at_ : Option (Option Nat))
    (save : Bool) : let u := s.addStop c r at_ save
    UnderWay s u c r k ∧ (u.ctx c).stop = some ⟨at_, save⟩ ∧ u.fget (F.CTX_STAT_STOP_PENDING c) = 1
      ∧ u.ctxState c = s.ctxState c ∧ u.mem = s.mem ∧ u.cores = s.cores := by
  have hacts : s.addStop c r at_ save =
      ((s.modCtx c fun x => { x with stop := some ⟨at_, save⟩ }).begun c r).fset (F.CTX_STAT_STOP_PENDING c) 1 := by
    simp only [State.addStop, hnone]
  have hctx := s.ctx_modCtx_same c fun x => { x with stop := some ⟨at_, save⟩ }
  have hrings : ((s.modCtx c fun x => { x with stop := some ⟨at_, save⟩ }).ctx c).rings = (s.ctx c).rings := by rw [hctx]
  have hbegun := State.begun_underWay hk hrings rfl
  dsimp only
  rw [hacts]
  refine ⟨hbegun, ?_, State.fget_fset_self _ (by decide) (by decide), State.fget_fset_apart _ _ (by decide), rfl, rfl⟩
  rw [State.fset_ctx', State.begun, State.ctx_setStage, hctx]

/-! ### TEARDOWN (R210, R231) -/

theorem State.startTeardown_eq {s : State} {c : Nat} (h : (((s.abandonCommands c).abandonLoad c).ctx c).coll.order = none) :
    ∃ t, s.startTeardown c = ((((s.abandonCommands c).abandonLoad c).modCtx c fun x =>
      { x with tearing := t, faultStop := false }).fset (F.CTX_STAT_STOP_PENDING c) 0).setCtxState c ctxTearing := by
  refine ⟨if s.ctxState c = ctxFaulted then some ((s.abandonCommands c).abandonLoad c).timeUs else none, ?_⟩
  unfold State.startTeardown
  dsimp only
  generalize (s.abandonCommands c).abandonLoad c = t at h
  rw [State.abandonOrder, State.ctx_modCtx_same]
  simp only [h]

/-- R210: a teardown begins in any state but FREE and TEARING. -/
theorem exec_teardownCmd_begins (h : CommandActs s c r 8 k) (hstate : s.ctxState c ≠ ctxTearing)
    (horder : (s.ctx c).coll.order = none) (hload : ∀ l, (s.ctx c).loading = some l → l.ring ≠ r) : ∃ u,
    exec (.teardownCmd c r) s = .next u ∧ UnderWay s u c r k ∧ u.ctxState c = ctxTearing ∧ (u.ctx c).stop = none
    ∧ (u.ctx c).launch = none ∧ (u.ctx c).loading = none ∧ u.fget (F.CTX_STAT_STOP_PENDING c) = 0 ∧ u.mem = s.mem
    ∧ u.cores = s.cores := by
  have hacts : exec (.teardownCmd c r) s = .next ((s.begun c r).startTeardown c) := by
    have hexec : exec (.teardownCmd c r) s = .next (s.cmdRow c r 8 fun s _ =>
      let s := s.begun c r
      if s.ctxState c = ctxTearing then s else s.startTeardown c) := rfl
    rw [hexec, h.cmdRow]
    exact congrArg _ (if_neg hstate)
  have hbegun := State.begun_underWay h.cur rfl rfl
  have hopc : k.opc = 8 := h.op
  have hleft := LeavesRing.abandonCommands (s := s.begun c r) hbegun hopc rfl
  obtain ⟨hlaunch, hstop⟩ := State.abandonCommands_stops (s.begun c r) c
  have hbctx : (s.begun c r).ctx c = { s.ctx c with rings := listSet (s.ctx c).rings r (s.ringAt c r .active) } :=
    s.ctx_setStage c r .active
  have hgives := State.abandonLoad_givesUp (s := (s.begun c r).abandonCommands c) (r := r)
    (by rw [hleft.loading, hbctx]; exact hload)
  obtain ⟨n, hstart⟩ := State.startTeardown_eq (hgives.order.trans (hleft.order.trans (by rw [hbctx]; exact horder)))
  rw [hstart] at hacts
  generalize ((s.begun c r).abandonCommands c).abandonLoad c = t at hacts hgives
  have hctx := t.ctx_modCtx_same c fun x => { x with tearing := n, faultStop := false }
  generalize hu : ((t.modCtx c fun x => { x with tearing := n, faultStop := false }).fset (F.CTX_STAT_STOP_PENDING c)
    0).setCtxState c ctxTearing = u at hacts
  have huctx : u.ctx c = { t.ctx c with tearing := n, faultStop := false } := by
    rw [← hu, State.ctx_setCtxState, State.fset_ctx', hctx]
  refine ⟨u, hacts, ?_, ?_, ?_, ?_, ?_, ?_, ?_, ?_⟩
  · rw [UnderWay, State.ring_of_rings (s := t) (by rw [huctx]), hgives.ring, hleft.ring]
    exact hbegun
  · rw [← hu]
    exact State.fget_fset_self _ (by decide) (by decide)
  · rw [huctx]
    exact hgives.stop.trans hstop
  · rw [huctx]
    exact hgives.launch.trans hlaunch
  · rw [huctx]
    exact hgives.gone
  · rw [← hu]
    exact (State.fget_fset_apart _ _ (by decide)).trans (State.fget_fset_self _ (by decide) (by decide))
  · rw [← hu]
    exact hgives.mem.trans (hleft.frame.mem.trans rfl)
  · rw [← hu]
    exact hgives.cores.trans (hleft.frame.cores.trans rfl)

end

/-- Settles O24: a load asks the host for its image, an admission sets the context up and completes, steps are counted and a
launch takes its cores, a stop is left pending, and a teardown gives up what it finds. -/
theorem contextCommandsAct : Obligations.ContextCommandsAct := by
  unfold Obligations.ContextCommandsAct
  intro c r s k
  refine ⟨fun q => exec_loadForme_asks, fun f => exec_admitForme_admits, exec_runSteps_running,
    fun h hidle hfits hfree _ => exec_runSteps_launches h hidle hfits hfree, fun h hnone => ?preempt, fun h hnone => ?save,
    exec_teardownCmd_begins⟩
  case preempt =>
    have hexec : exec (.preempt c r) s = .next (s.cmdRow c r 4 fun s k => s.addStop c r (some k.atTick) false) := rfl
    rw [hexec, h.cmdRow]
    exact ⟨_, rfl, State.addStop_pends h.cur hnone _ _⟩
  case save =>
    have hexec : exec (.saveCmd c r) s = .next (s.cmdRow c r 5 fun s _ => s.addStop c r none true) := rfl
    rw [hexec, h.cmdRow]
    exact ⟨_, rfl, State.addStop_pends h.cur hnone _ _⟩

end Sys2Proof.Machine
end

section
/-!
PROOFS. Work on a context that moves none between its states and gives or takes no core, and reads of memory without an upset:
what the ends of saves, restores and migrations are made of (R222, R223, R266).
-/

namespace Sys2Proof.Machine

/-! ### Who holds what -/

/-- Nothing differs but registers, the contexts and the event queue with what records it, and no context's state and no core's
occupant is another. -/
structure KeepsHolders (s u : State) : Prop where
  frame : OnlyRegsCtxsEvents s u
  state : ∀ d, u.ctxState d = s.ctxState d
  occupant : ∀ g, u.occupant g = s.occupant g
  evq : s.evq <+: u.evq

section
variable {s t u : State}

theorem KeepsHolders.refl (s : State) : KeepsHolders s s := ⟨.refl s, fun _ => rfl, fun _ => rfl, List.prefix_rfl⟩

theorem KeepsHolders.trans (h : KeepsHolders s t) (h' : KeepsHolders t u) : KeepsHolders s u where
  frame := h.frame.trans h'.frame
  state d := (h'.state d).trans (h.state d)
  occupant g := (h'.occupant g).trans (h.occupant g)
  evq := h.evq.trans h'.evq

theorem KeepsHolders.mem (h : KeepsHolders s u) : u.mem = s.mem := h.frame.mem

theorem KeepsHolders.cores (h : KeepsHolders s u) : u.cores = s.cores := h.frame.cores

theorem KeepsHolders.ended (h : KeepsHolders s u) : u.ended = s.ended := by rw [h.frame]

theorem KeepsHolders.tick (h : KeepsHolders s u) : u.tick = s.tick := by rw [h.frame]

theorem KeepsHolders.clean (h : KeepsHolders s u) (hs : s.clean) : u.clean := by rw [h.frame]; exact hs

end

section
variable (s : State)

theorem KeepsHolders.fset {f : Fld} (h : Elsewhere f.off) (v : Nat) : KeepsHolders s (s.fset f v) :=
  have hback := Background.fset (c := 0) s h v
  ⟨rfl, hback.state, hback.occupant, List.prefix_rfl⟩

/-- A field of CTX_STAT below STATE. -/
theorem KeepsHolders.fset_ctxStat {c : Nat} (hc : c < 8) {hi lo : Nat} (h : lo ≤ hi ∧ hi < 28) (v : Nat) :
    KeepsHolders s (s.fset ⟨R.CTX_STAT c, hi, lo⟩ v) :=
  have hkeeps := KeepsMemory.fset_ctxStat s hc h v
  ⟨rfl, hkeeps.state, hkeeps.occupant, List.prefix_rfl⟩

theorem KeepsHolders.modCtx (c : Nat) (f : Ctx → Ctx) : KeepsHolders s (s.modCtx c f) :=
  ⟨rfl, fun _ => rfl, fun _ => rfl, List.prefix_rfl⟩

theorem KeepsHolders.setStage (c r : Nat) (st : CmdStage) : KeepsHolders s (s.setStage c r st) := by
  unfold State.setStage State.modRing
  exact .modCtx s c _

theorem KeepsHolders.raise (code : Nat) (ctx : Option Nat) (unit : Nat) (data : List Nat) :
    KeepsHolders s (s.raise code ctx unit data) :=
  have hback := Background.raise (c := 0) s code ctx unit data
  ⟨.raise s .., hback.state, hback.occupant, s.evq_prefix_raise ..⟩

theorem KeepsHolders.complete (c r status detail value : Nat) : KeepsHolders s (s.complete c r status detail value) :=
  have hkeeps := KeepsMemory.complete (c := c) s r status detail value
  ⟨s.complete_frame .., hkeeps.state, hkeeps.occupant, s.evq_prefix_complete ..⟩

theorem KeepsHolders.completeAll (c opc status : Nat) : KeepsHolders s (s.completeAll c opc status) := by
  refine foldl_rel .refl .trans (fun t r _ => ?_) s
  split
  · split
    · exact .complete t ..
    · exact .refl t
  · exact .refl t

/-- A new state of a context takes no core and changes no other context's. -/
theorem State.setCtxState_occupant {c : Nat} (hc : c < 8) (v g : Nat) : (s.setCtxState c v).occupant g = s.occupant g :=
  State.occupant_of_fget (fun g => s.fget_fset_reg (coreRes_ne_ctxStat hc g) _)
    (fun g => s.fget_fset_reg (coreRes_ne_ctxStat hc g) _) g

theorem State.setCtxState_same (c : Nat) {v : Nat} (h : v < 16) : (s.setCtxState c v).ctxState c = v :=
  State.fget_fset_self _ (by decide) h

/-- A completion of all commands of a kind keeps what of its context depends neither on the rings nor on the backlog. -/
theorem State.completeAll_ctx_view {α : Type} {view : Ctx → α} (hrings : ∀ x l, view { x with rings := l } = view x)
    (hlog : ∀ x l, view { x with backlog := l } = view x) (hfull : ∀ x, view { x with backlogFull := true } = view x)
    (c opc status : Nat) : view ((s.completeAll c opc status).ctx c) = view (s.ctx c) := by
  refine foldl_view_same (view := fun u : State => view (u.ctx c)) (fun t r _ => ?_) s
  split
  · split
    · exact t.complete_ctx_view hrings hlog hfull ..
    · rfl
  · rfl

/-- Events as they were before an update that leaves the queue. -/
theorem Raises.of_evq {s t u : State} {l : List (Nat × Option Nat × Nat × List Nat)} (he : t.evq = s.evq) (h : Raises t u l) :
    Raises s u l := by
  rw [Raises, ← he]
  exact h

/-- An event of a queue's beginning is one of the queue's. -/
theorem Raises.exists_says {s t u : State} {x : Nat × Option Nat × Nat × List Nat} (h : Raises s t [x]) (hu : t.evq <+: u.evq) :
    ∃ e ∈ u.evq, e.says = x := by
  have hin : x ∈ t.evq.map Event.says := by
    rw [h]
    exact List.mem_append_right _ (List.mem_singleton_self x)
  obtain ⟨e, he, hsays⟩ := List.mem_map.mp hin
  exact ⟨e, hu.subset he, hsays⟩

end

/-! ### The context header (R266) and the landing buffer (R226) without an upset or an entry -/

section
variable {s : State} {c : Nat}

theorem State.readHeader_clean (h : s.clean) (c : Nat) : s.readHeader c = (s, true) := by
  unfold State.readHeader
  split
  · rfl
  · exact State.checkRead_clean h.1 h.2 ..

/-- With nothing in the landing buffer, the replay of a core shows the empty buffer. -/
structure ReplaysNothing (c : Nat) (s u : State) : Prop extends KeepsHolders s u where
  ctx : u.ctx c = s.ctx c
  evqSame : u.evq = s.evq

theorem ReplaysNothing.trans {t u : State} (h : ReplaysNothing c s t) (h' : ReplaysNothing c t u) : ReplaysNothing c s u :=
  ⟨h.toKeepsHolders.trans h'.toKeepsHolders, h'.ctx.trans h.ctx, h'.evqSame.trans h.evqSame⟩

theorem State.replayCore_nothing (h : (s.ctx c).landing = []) (g : Nat) : ReplaysNothing c s (s.replayCore c g) := by
  have hland : Elsewhere (F.CTX_LAND_FILL c).off := by simp [Elsewhere]
  have hnone : (s.ctx c).landing.filter (fun e => e.core != g) = (s.ctx c).landing := by rw [h]; rfl
  unfold State.replayCore
  rw [h]
  refine ⟨(KeepsHolders.modCtx s c _).trans (.fset _ hland _), ?_, rfl⟩
  rw [State.fset_ctx', List.filter_nil, List.foldl_nil, State.ctx_modCtx_same, hnone]

theorem State.replayCores_nothing (h : (s.ctx c).landing = []) (l : List Nat) :
    ReplaysNothing c s (l.foldl (fun s g => s.replayCore c g) s) :=
  List.foldlRecOn (motive := ReplaysNothing c s) l _ ⟨.refl s, rfl, rfl⟩ fun t ht g _ =>
    ht.trans (State.replayCore_nothing (by rw [ht.ctx, h]) g)

end

end Sys2Proof.Machine
end

section
/-!
PROOFS. RESTORE and SET_IMPOSITION (R213, R223, R311, R312).
-/

namespace Sys2Proof.Machine

theorem State.eventRoom_of {s t : State} {n : Nat} (he : t.evq = s.evq) (hh : t.hpt = s.hpt) (h : s.eventRoom n) :
    t.eventRoom n := by
  rw [State.eventRoom, State.evFlying, he, hh]
  exact h

theorem State.chaseCoresOf_of_forme {s u : State} {c : Nat} (h : (u.ctx c).forme = (s.ctx c).forme) :
    u.chaseCoresOf c = s.chaseCoresOf c := by
  rw [State.chaseCoresOf, State.chaseCoresOf, h]

/-! ### RESTORE (R213, R223, R266) -/

/-- A restore that has taken its cores, its command under way. -/
def State.restoreBegun (s : State) (c r : Nat) : State :=
  ((s.occupyAll c (s.chaseCoresOf c)).begun c r).setCtxState c ctxRestoring

section
variable {s : State} {c : CtxId} {r : Nat} {k : Cmd}

theorem State.restoreBegun_frame (s : State) (c r : Nat) :
    s.restoreBegun c r = { s with regs := (s.restoreBegun c r).regs, ctxs := (s.restoreBegun c r).ctxs } := by
  have hframe := s.occupyAll_frame c (s.chaseCoresOf c)
  unfold State.restoreBegun
  rw [hframe]
  rfl

theorem State.restoreBegun_occupant {g : Nat} (hg : g ∈ s.chaseCoresOf c) : (s.restoreBegun c r).occupant g = some c.val :=
  (State.setCtxState_occupant _ c.isLt _ g).trans (s.occupyAll_occupant c c.isLt (.inl hg))

theorem State.restoreBegun_ctx (s : State) (c : CtxId) (r : Nat) : ∃ l, (s.restoreBegun c r).ctx c = { s.ctx c with rings := l } := by
  have hctxs : (s.occupyAll c (s.chaseCoresOf c)).ctxs = s.ctxs := by rw [s.occupyAll_frame]
  rw [State.restoreBegun, State.ctx_setCtxState, State.begun, State.ctx_setStage, State.ctx_of_ctxs hctxs]
  exact ⟨_, rfl⟩

theorem State.restoreBegun_underWay (hk : (s.ring c r).cur = some k) : UnderWay s (s.restoreBegun c r) c r k := by
  have hframe := s.occupyAll_frame c (s.chaseCoresOf c)
  have hctxs : (s.occupyAll c (s.chaseCoresOf c)).ctxs = s.ctxs := by rw [hframe]
  have hbegun := State.begun_underWay (t := s.occupyAll c (s.chaseCoresOf c)) hk (by rw [State.ctx_of_ctxs hctxs])
    (by rw [hframe])
  exact hbegun.of_rings rfl

/-- R223: what a restore without an image leaves. -/
structure RestoresEmpty (c : CtxId) (r : Nat) (k : Cmd) (s u : State) : Prop where
  underWay : UnderWay s u c r k
  state : u.ctxState c = ctxRestoring
  occupant : ∀ g ∈ s.chaseCoresOf c, u.occupant g = some c.val
  raises : Raises s u [(0x0424, some c.val, 0, [])]
  mem : u.mem = s.mem
  cores : u.cores = s.cores

theorem State.restoreEmpty_eq (h : s.clean) : ∃ n, s.restoreEmpty c r = ((((((s.restoreBegun c r).chaseCoresOf c).foldl (fun s g =>
    s.replayCore c g) (s.restoreBegun c r)).fset (F.CTX_STAT_BP c) 0).fset (F.CTX_TIME_RESTORE_US c) n).raise 0x0424 (some c.val) 0
      []) := by
  unfold State.restoreEmpty
  rw [State.readHeader_clean h]
  exact ⟨_, rfl⟩

theorem State.restoreEmpty_restores (hclean : s.clean) (hland : (s.ctx c).landing = []) (hroom : s.eventRoom 1)
    (hk : (s.ring c r).cur = some k) : RestoresEmpty c r k s (s.restoreEmpty c r) := by
  obtain ⟨n, heq⟩ := State.restoreEmpty_eq (c := c) (r := r) hclean
  obtain ⟨l, hctx⟩ := s.restoreBegun_ctx c r
  have hframe := s.restoreBegun_frame c r
  have hunder := State.restoreBegun_underWay hk
  have hocc := fun g hg => State.restoreBegun_occupant (s := s) (c := c) (r := r) (g := g) hg
  have hstate : (s.restoreBegun c r).ctxState c = ctxRestoring := State.setCtxState_same _ c (by decide)
  rw [heq]
  generalize s.restoreBegun c r = t at hctx hframe hunder hocc hstate
  have hreplay := State.replayCores_nothing (s := t) (c := c) (by rw [hctx]; exact hland) (t.chaseCoresOf c)
  generalize (t.chaseCoresOf c).foldl (fun s g => s.replayCore c g) t = v at hreplay
  have htime : Elsewhere (F.CTX_TIME_RESTORE_US c).off := by simp [Elsewhere]
  have hpre : KeepsHolders t ((v.fset (F.CTX_STAT_BP c) 0).fset (F.CTX_TIME_RESTORE_US c) n) :=
    hreplay.toKeepsHolders.trans ((KeepsHolders.fset_ctxStat v c.isLt (by decide) 0).trans (.fset _ htime n))
  have hevq : ((v.fset (F.CTX_STAT_BP c) 0).fset (F.CTX_TIME_RESTORE_US c) n).evq = s.evq :=
    hreplay.evqSame.trans (by rw [hframe])
  have hpctx : ((v.fset (F.CTX_STAT_BP c) 0).fset (F.CTX_TIME_RESTORE_US c) n).ctx c = t.ctx c := hreplay.ctx
  generalize (v.fset (F.CTX_STAT_BP c) 0).fset (F.CTX_TIME_RESTORE_US c) n = w at hpre hevq hpctx
  have hhpt : w.hpt = s.hpt := by rw [hpre.frame, hframe]
  have hall := hpre.trans (KeepsHolders.raise w 0x0424 (some c.val) 0 [])
  exact {
    underWay := hunder.of_rings (by rw [State.ctx_of_ctxs (State.raise_ctxs ..), hpctx])
    state := (hall.state c).trans hstate
    occupant := fun g hg => (hall.occupant g).trans (hocc g hg)
    raises := (raises_raise (State.eventRoom_of hevq hhpt hroom) ..).of_evq hevq
    mem := hall.mem.trans (by rw [hframe])
    cores := hall.cores.trans (by rw [hframe]) }

end

section
variable {s : State} {c : CtxId} {r : RingId} {k : Cmd}

/-- The launch that a RESTORE asks for. -/
def State.restoreAsked (s : State) (c r : Nat) (k : Cmd) : State :=
  s.modCtx c fun x => { x with launch := some ⟨true, r, k.atTick, s.timeUs⟩, migIn := false }

theorem State.restoreAsked_ctx (s : State) (c r : Nat) (k : Cmd) : (s.restoreAsked c r k).ctx c =
    { s.ctx c with launch := some ⟨true, r, k.atTick, s.timeUs⟩, migIn := false } := s.ctx_modCtx_same c _

variable (h : CommandActs s c r 6 k) (hfits : s.impositionFits c = true) (hnone : (s.ctx c).launch = none)
include h

theorem CommandActs.saved : s.ctxState c = ctxSaved := by
  have haccepted := h.accepted
  simpa [acceptedIn] using haccepted

include hfits hnone

theorem State.restoreCmd_acts : s.restoreCmd c r =
    if s.fget (F.CTX_STAT_IMAGE c) = 0 ∧ (s.restoreAsked c r k).coresFree c = true then (s.restoreAsked c r k).restoreEmpty c r
    else (s.restoreAsked c r k).setStage c r .waitCores := by
  rw [State.restoreCmd, h.cmdRow]
  simp only [hfits, h.stage, hnone, Bool.true_eq_false, if_false, reduceCtorEq, ne_eq, not_true_eq_false]
  rfl

/-- R223: a context with an image waits for its cores. -/
theorem exec_restore_waits (himage : s.fget (F.CTX_STAT_IMAGE c) = 1) : ∃ u, exec (.restore c r) s = .next u
    ∧ (u.ctx c).launch = some ⟨true, r, k.atTick, s.timeUs⟩
    ∧ (u.ring c r).cur = some { k with stage := .waitCores, since := s.timeUs } ∧ u.ctxState c = ctxSaved
    ∧ u.mem = s.mem ∧ u.regs = s.regs ∧ u.cores = s.cores := by
  have hacts : s.restoreCmd c r = (s.restoreAsked c r k).setStage c r .waitCores := by
    rw [State.restoreCmd_acts h hfits hnone, if_neg fun hz => absurd (himage.symm.trans hz.1) (by decide)]
  have hexec : exec (.restore c r) s = .next (s.restoreCmd c r) := rfl
  have hctx := s.restoreAsked_ctx c r k
  have hcur : ((s.restoreAsked c r k).ring c r).cur = some k := by rw [State.ring_of_rings (s := s) (by rw [hctx]), h.cur]
  rw [hacts] at hexec
  refine ⟨_, hexec, ?_, State.setStage_cur hcur .waitCores, h.saved, rfl, rfl, rfl⟩
  rw [State.ctx_setStage, hctx]

/-- R223: a context saved without an image takes its cores. -/
theorem exec_restore_empty (himage : s.fget (F.CTX_STAT_IMAGE c) = 0) (hfree : s.coresFree c = true) (hclean : s.clean)
    (hland : (s.ctx c).landing = []) (hroom : s.eventRoom 1) : ∃ u, exec (.restore c r) s = .next u
    ∧ UnderWay s u c r k ∧ u.ctxState c = ctxRestoring ∧ (∀ g ∈ s.chaseCoresOf c, u.occupant g = some c.val)
    ∧ Raises s u [(0x0424, some c.val, 0, [])] ∧ u.mem = s.mem ∧ u.cores = s.cores := by
  have hctx := s.restoreAsked_ctx c r k
  have hchase : (s.restoreAsked c r k).chaseCoresOf c = s.chaseCoresOf c := State.chaseCoresOf_of_forme (by rw [hctx])
  have hfree' : (s.restoreAsked c r k).coresFree c = true := by
    rw [State.coresFree, hchase]
    exact hfree
  have hacts : s.restoreCmd c r = (s.restoreAsked c r k).restoreEmpty c r := by
    rw [State.restoreCmd_acts h hfits hnone, if_pos ⟨himage, hfree'⟩]
  have hexec : exec (.restore c r) s = .next (s.restoreCmd c r) := rfl
  have hcur : ((s.restoreAsked c r k).ring c r).cur = some k := by rw [State.ring_of_rings (s := s) (by rw [hctx]), h.cur]
  have hrest := State.restoreEmpty_restores (s := s.restoreAsked c r k) (c := c) (r := r) hclean (by rw [hctx]; exact hland) hroom
    hcur
  rw [hacts] at hexec
  exact ⟨_, hexec, hrest.underWay, hrest.state, fun g hg => hrest.occupant g (hchase ▸ hg), hrest.raises, hrest.mem, hrest.cores⟩

end

/-! ### SET_IMPOSITION (R311, R312) -/

theorem fst_ite {α β : Type} {p : Prop} [Decidable p] {x y : α × β} {a : α} (hx : x.1 = a) (hy : y.1 = a) :
    (if p then x else y).1 = a := by
  split
  · exact hx
  · exact hy

/-- R311: the checks of an imposition read memory and, without an upset, change nothing. -/
theorem State.checkImposition_clean {s : State} (h : s.clean) (c : Nat) (f : Forme) (a b e : Nat) :
    (s.checkImposition c f a b e).1 = s := by
  unfold State.checkImposition
  refine fst_ite rfl ?_
  rw [State.checkRead_clean h.1 h.2]
  exact fst_ite rfl rfl

section
variable {s : State} {c : CtxId} {r : RingId} {k : Cmd} {f : Forme}

/-- An imposition that has passed its checks, pending. -/
def State.imposing (s : State) (c r : Nat) (k : Cmd) (i : Imposition) : State :=
  (((s.begun c r).modColl c fun x => { x with pend := some ⟨i, k.arg 24 4, r, false⟩ }).fset (F.TRN_IMP_STAT_PENDING c) 1).fset
    (F.TRN_IMP_STAT_PEND_EPOCH c) i.iepoch

theorem State.imposing_ctx (s : State) (c r : Nat) (k : Cmd) (i : Imposition) : ∃ l, (s.imposing c r k i).ctx c =
    { s.ctx c with rings := l, coll := { s.coll c with pend := some ⟨i, k.arg 24 4, r, false⟩ } } := by
  rw [State.imposing, State.fset_ctx', State.fset_ctx', State.modColl, State.ctx_modCtx_same, State.begun, State.ctx_setStage]
  exact ⟨_, rfl⟩

theorem State.imposing_holders (s : State) (c r : Nat) (k : Cmd) (i : Imposition) : KeepsHolders s (s.imposing c r k i) := by
  have hreg : Elsewhere (R.TRN_IMP_STAT c) := by simp [Elsewhere]
  exact (KeepsHolders.setStage s c r _).trans ((KeepsHolders.modCtx _ c _).trans
    ((KeepsHolders.fset _ hreg 1).trans (.fset _ hreg _)))

/-- R312: whether the context is at a step boundary does not depend on the imposition pending. -/
theorem State.imposing_atBoundary (s : State) (c : CtxId) (r : Nat) (k : Cmd) (i : Imposition) :
    (s.imposing c r k i).atBoundary c = s.atBoundary c := by
  obtain ⟨l, hctx⟩ := s.imposing_ctx c r k i
  have hreg : R.CTX_STAT c ≠ R.TRN_IMP_STAT c := by dsimp only [R.CTX_STAT, R.TRN_IMP_STAT]; omega
  have himage : (s.imposing c r k i).fget (F.CTX_STAT_IMAGE c) = s.fget (F.CTX_STAT_IMAGE c) :=
    (State.fget_fset_reg _ (p := F.CTX_STAT_IMAGE c) (f := F.TRN_IMP_STAT_PEND_EPOCH c) hreg _).trans
      (State.fget_fset_reg _ (p := F.CTX_STAT_IMAGE c) (f := F.TRN_IMP_STAT_PENDING c) hreg 1)
  rw [State.atBoundary, State.atBoundary, hctx, himage, (s.imposing_holders c r k i).state]

variable (h : CommandActs s c r 9 k) (hf : (s.ctx c).forme = some f) (hnone : (s.coll c).pend = none) (hended : s.ended = [])
  (hclean : s.clean)
include h hf hnone hended hclean

/-- R311: an imposition that passes is pending until its step. -/
theorem exec_setImposition_pends {i : Imposition} {v : State}
    (hcheck : s.checkImposition c f (k.arg 8 8) (k.arg 16 8) (k.arg 24 4) = (v, 0, some i))
    (hwait : s.atBoundary c = false ∨ s.ctxState c = ctxRunning) : ∃ u, exec (.setImposition c r) s = .next u
    ∧ UnderWay s u c r k ∧ (u.coll c).pend = some ⟨i, k.arg 24 4, r, false⟩ ∧ u.fget (F.TRN_IMP_STAT_PENDING c) = 1
    ∧ u.fget (F.TRN_IMP_STAT_PEND_EPOCH c) = i.iepoch % 65536 ∧ u.mem = s.mem ∧ u.cores = s.cores := by
  have hv : v = s := by rw [← s.checkImposition_clean hclean c f (k.arg 8 8) (k.arg 16 8) (k.arg 24 4), hcheck]
  subst hv
  have hnow : ¬ ((v.imposing c r k i).atBoundary c = true ∧ (v.imposing c r k i).ctxState c ≠ ctxRunning) := by
    rw [v.imposing_atBoundary, (v.imposing_holders c r k i).state]
    rintro ⟨hat, hrun⟩
    exact hwait.elim (fun hb => absurd (hb.symm.trans hat) (by decide)) hrun
  have hacts : v.setImposition c r = v.imposing c r k i := by
    rw [State.setImposition, h.cmdRow]
    simp only [hf, hnone, hcheck, ne_eq, not_true_eq_false, if_false]
    exact if_neg hnow
  have hholders := v.imposing_holders c r k i
  have hexec : exec (.setImposition c r) v = .next (v.setImposition c r).flush := rfl
  rw [hacts, State.flush_of_ended_nil (hholders.ended.trans hended)] at hexec
  obtain ⟨l, hctx⟩ := v.imposing_ctx c r k i
  have hbegun : UnderWay v (v.begun c r) c r k := State.begun_underWay h.cur rfl rfl
  refine ⟨_, hexec, hbegun.of_rings ?_, ?_, ?_, ?_, hholders.mem, hholders.cores⟩
  · rw [State.imposing, State.fset_ctx', State.fset_ctx', State.modColl, State.ctx_modCtx_same]
  · rw [State.coll, hctx]
  · exact (State.fget_fset_apart _ _ (by decide)).trans (State.fget_fset_self _ (by decide) (by decide))
  · exact State.fget_fset_same _ (F.TRN_IMP_STAT_PEND_EPOCH c) _ (show 0 ≤ 15 by decide) (show 15 < 32 by decide)

/-- R311: an imposition that fails a check is refused with its code. -/
theorem exec_setImposition_refuses {i : Option Imposition} {v : State} {code : Nat}
    (hcheck : s.checkImposition c f (k.arg 8 8) (k.arg 16 8) (k.arg 24 4) = (v, code, i)) (hcode : code ≠ 0) (hroom : v.eventRoom 2) :
    ∃ u, exec (.setImposition c r) s = .next u ∧ Completes s u c r k stRefused code 0 ∧ (u.coll c).pend = none
      ∧ (∃ e ∈ u.evq, e.says = (0x0702, some c.val, 0, [code])) ∧ u.mem = s.mem := by
  have hv : v = s := by rw [← s.checkImposition_clean hclean c f (k.arg 8 8) (k.arg 16 8) (k.arg 24 4), hcheck]
  subst hv
  have hacts : v.setImposition c r = (v.raise 0x0702 (some c.val) 0 [code]).complete c r stRefused code 0 := by
    rw [State.setImposition, h.cmdRow]
    cases i with
    | none => simp only [hf, hnone, hcheck]
    | some i => simp only [hf, hnone, hcheck, ne_eq, hcode, not_false_eq_true, if_true]
  have hctx : (v.raise 0x0702 (some c.val) 0 [code]).ctx c = v.ctx c := State.ctx_of_ctxs (State.raise_ctxs ..) c
  have hraise := KeepsHolders.raise v 0x0702 (some c.val) 0 [code]
  have hraises := raises_raise (Nat.le_of_succ_le hroom) 0x0702 (some c.val) 0 [code]
  have hexec : exec (.setImposition c r) v = .next (v.setImposition c r).flush := rfl
  rw [hacts] at hexec
  generalize v.raise 0x0702 (some c.val) 0 [code] = t at hexec hctx hraise hraises
  have hall := hraise.trans (KeepsHolders.complete t c r stRefused code 0)
  rw [State.flush_of_ended_nil (hall.ended.trans hended)] at hexec
  have hcur : (t.ring c r).cur = some k := by rw [State.ring_of_rings (s := v) (by rw [hctx]), h.cur]
  refine ⟨_, hexec, (State.complete_completes _ _ _ hcur).of_before (by rw [hctx]) hraise.tick, ?_,
    hraises.exists_says (t.evq_prefix_complete ..), hall.mem⟩
  rw [State.coll, t.complete_ctx_view (view := fun x => x.coll) (fun _ _ => rfl) (fun _ _ => rfl) (fun _ => rfl), hctx]
  exact hnone

end

end Sys2Proof.Machine
end

section
/-!
PROOFS. The copy of a migration (R229, R338): what sending it changes, what its header writes, and the statement
RestoreMigrateAndImpose.
-/

namespace Sys2Proof.Machine

/-! ### The copy among the tasks of its context -/

/-- A copy to context `gen` of its target stands among the tasks of `c`, every copy among them with the pieces `ps`. -/
structure HasCopy (c gen : Nat) (ps : List Piece) (s : State) : Prop where
  stands : ∃ t ∈ (s.coll c).tasks, t.kind = .migrate
  same : ∀ t ∈ (s.coll c).tasks, t.kind = .migrate → t.gen = gen ∧ t.pieces = ps

/-- What sending the copy, and learning of its failure, can change: neither memory nor cores nor what modules the peer table
names; requests that end are the copy's and have failed. -/
structure CopyWork (c gen : Nat) (ps : List Piece) (s u : State) : Prop where
  mem : u.mem = s.mem
  cores : u.cores = s.cores
  fabs : u.peers.map Peer.fab = s.peers.map Peer.fab
  copy : HasCopy c gen ps s → HasCopy c gen ps u
  ended : ∀ y ∈ u.ended, y ∈ s.ended ∨ (y.1.owner = .task c (4 + 8 * gen) ∧ y.2 = .failed)

section
variable {c gen : Nat} {ps : List Piece} {s t u : State}

theorem HasCopy.of_ctxs (hx : u.ctxs = s.ctxs) (h : HasCopy c gen ps s) : HasCopy c gen ps u := by
  have hcoll : u.coll c = s.coll c := congrArg Ctx.coll (State.ctx_of_ctxs hx c)
  exact ⟨hcoll ▸ h.stands, hcoll ▸ h.same⟩

theorem HasCopy.copyTask (h : HasCopy c gen ps s) : ∃ t, s.copyTask c = some t ∧ t.gen = gen ∧ t.pieces = ps := by
  obtain ⟨x, hx, hkind⟩ := h.stands
  have hsome : (s.copyTask c).isSome = true := List.find?_isSome.mpr ⟨x, hx, by rw [hkind]; rfl⟩
  obtain ⟨t, ht⟩ := Option.isSome_iff_exists.mp hsome
  have hkind : t.kind = .migrate := by simpa using List.find?_some ht
  exact ⟨t, ht, h.same t (List.mem_of_find?_eq_some ht) hkind⟩

/-- A copy that comes back changed in place stays the copy that it is. -/
theorem HasCopy.putTask {x : Task} (hkind : x.kind = .migrate) (hgen : x.gen = gen) (hps : x.pieces = ps)
    (h : HasCopy c gen ps s) : HasCopy c gen ps (s.putTask c x) := by
  have htasks : ((s.putTask c x).coll c).tasks =
      (s.coll c).tasks.map fun y => if y.kind = x.kind ∧ y.gen = x.gen then x else y := by
    rw [State.coll, State.putTask, State.modColl, State.ctx_modCtx_same]
    rfl
  constructor
  · obtain ⟨y, hy, hymig⟩ := h.stands
    rw [htasks]
    refine ⟨_, List.mem_map_of_mem hy, ?_⟩
    split
    · exact hkind
    · exact hymig
  · rw [htasks]
    simp only [List.forall_mem_map]
    intro y hy
    split
    · exact fun _ => ⟨hgen, hps⟩
    · exact h.same y hy

theorem CopyWork.refl (s : State) : CopyWork c gen ps s s := ⟨rfl, rfl, rfl, id, fun _ => .inl⟩

theorem CopyWork.trans (h : CopyWork c gen ps s t) (h' : CopyWork c gen ps t u) : CopyWork c gen ps s u where
  mem := h'.mem.trans h.mem
  cores := h'.cores.trans h.cores
  fabs := h'.fabs.trans h.fabs
  copy := h'.copy ∘ h.copy
  ended y hy := (h'.ended y hy).elim (h.ended y) .inr

theorem CopyWork.of_fields (hm : u.mem = s.mem) (hk : u.cores = s.cores) (hx : u.ctxs = s.ctxs) (hp : u.peers = s.peers)
    (he : u.ended = s.ended) : CopyWork c gen ps s u :=
  ⟨hm, hk, by rw [hp], .of_ctxs hx, fun y hy => .inl (he ▸ hy)⟩

end

/-! ### Its requests (R246, R251, R252) -/

section
variable {c gen : Nat} {ps : List Piece} (s : State)

theorem CopyWork.raise (code : Nat) (ctx : Option Nat) (unit : Nat) (data : List Nat) :
    CopyWork c gen ps s (s.raise code ctx unit data) := by
  have hframe := OnlyRegsCtxsEvents.raise s code ctx unit data
  exact .of_fields (by rw [hframe]) (by rw [hframe]) (State.raise_ctxs ..) (by rw [hframe]) (by rw [hframe])

theorem CopyWork.linkSend (p tc : Nat) (l : List Byte) : CopyWork c gen ps s (s.linkSend p tc l) := by
  unfold State.linkSend
  split
  · exact .of_fields rfl rfl rfl rfl rfl
  · exact .of_fields rfl rfl rfl rfl rfl

theorem CopyWork.sendCell (x : Cell) : CopyWork c gen ps s (s.sendCell x).1 := by
  unfold State.sendCell
  split
  · exact .refl s
  · split
    · exact .raise s ..
    · exact .linkSend s ..

theorem CopyWork.nextSeq (fab tc : Nat) : CopyWork c gen ps s (s.nextSeq fab tc).1 where
  mem := rfl
  cores := rfl
  fabs := by
    unfold State.nextSeq State.modPeer
    rw [List.map_map]
    refine List.map_congr_left fun p _ => ?_
    dsimp only [Function.comp_apply]
    split
    · rfl
    · rfl
  copy := .of_ctxs rfl
  ended _ := .inl

theorem CopyWork.sendCells (x : Xfer) (first : Bool) (l : List (Nat × Nat × List Byte)) (i : Nat) :
    CopyWork c gen ps s (s.sendCells x first false l i).1 := by
  induction l generalizing s i with
  | nil => exact .refl s
  | cons e r ih =>
    obtain ⟨ty, a, pl⟩ := e
    have hseq := CopyWork.nextSeq (c := c) (gen := gen) (ps := ps) s x.fab x.tc
    simp only [State.sendCells, Bool.false_eq_true, if_false]
    split
    · exact hseq.trans ((CopyWork.sendCell _ _).trans (ih _ _))
    · exact hseq.trans (.sendCell _ _)

theorem CopyWork.endXfer {x : Xfer} (h : x.owner = .task c (4 + 8 * gen)) : CopyWork c gen ps s (s.endXfer x .failed) := by
  refine ⟨rfl, rfl, rfl, .of_ctxs rfl, fun y hy => (List.mem_append.mp hy).imp id fun hlast => ?_⟩
  rw [List.mem_singleton.mp hlast]
  exact ⟨h, rfl⟩

/-- R252: a request of the copy fails. -/
theorem CopyWork.failXfer {x : Xfer} (h : x.owner = .task c (4 + 8 * gen)) : CopyWork c gen ps s (s.failXfer x) :=
  have hcount : CopyWork c gen ps s (s.fadd F.FAB_XFER_FAIL_COUNT 1) := .of_fields rfl rfl rfl rfl rfl
  hcount.trans ((CopyWork.raise _ ..).trans (.endXfer _ h))

theorem CopyWork.withXfers (n : Nat) (l : List Xfer) : CopyWork c gen ps s { s with nextXfer := n, xfers := l } :=
  .of_fields rfl rfl rfl rfl rfl

theorem CopyWork.crossed (x y z : Option Nat) : CopyWork c gen ps s (s.crossed x y z) := .of_fields rfl rfl rfl rfl rfl

theorem CopyWork.emit {x : Xfer} (h : x.owner = .task c (4 + 8 * gen)) (resync : Bool) :
    CopyWork c gen ps s (s.emit x resync) := by
  unfold State.emit
  split
  · dsimp only
    split
    · exact (CopyWork.sendCells s ..).trans (.withXfers ..)
    · exact (CopyWork.sendCells s ..).trans (.failXfer _ h)
  · exact .failXfer s h

theorem CopyWork.request {x : Xfer} (h : x.owner = .task c (4 + 8 * gen)) (resync : Bool) :
    CopyWork c gen ps s (s.request x resync) := by
  unfold State.request
  dsimp only
  refine (CopyWork.crossed s ..).trans ((CopyWork.withXfers ..).trans (CopyWork.emit _ ?_ resync))
  exact h

end

/-! ### The copy as a task (R338, R343) -/

section
variable {c gen : Nat} {ps : List Piece} {s : State} {x : Task}

theorem CopyWork.putTask (s : State) (hkind : x.kind = .migrate) (hgen : x.gen = gen) (hps : x.pieces = ps) :
    CopyWork c gen ps s (s.putTask c x) := ⟨rfl, rfl, rfl, .putTask hkind hgen hps, fun _ => .inl⟩

/-- Without an upset the copy sends its next write, and has sent all where no piece is left. -/
theorem State.pushTask_copy (hclean : s.clean) (hkind : x.kind = .migrate) (hgen : x.gen = gen) (hps : x.pieces = ps) (n : Nat) :
    CopyWork c gen ps s (s.pushTask c x n).1 ∧ (s.pushTask c x n).2 = true := by
  induction n generalizing x with
  | zero => exact ⟨.refl s, rfl⟩
  | succ n ih =>
    unfold State.pushTask
    split
    · rw [if_pos (.inr hkind)]
      exact ⟨.putTask s hkind hgen hps, rfl⟩
    · split
      · exact ih hkind hgen hps
      · dsimp only
        rw [State.readSrc_clean hclean]
        dsimp only
        rw [if_neg fun hlocal => hlocal.2 hkind]
        refine ⟨(CopyWork.crossed s ..).trans ((CopyWork.putTask _ ?_ ?_ ?_).trans (CopyWork.request _ ?_ false)), rfl⟩
        · exact hkind
        · exact hgen
        · exact hps
        · rw [← hgen, hkind]
          rfl

theorem CopyWork.runTask (hclean : s.clean) (hkind : x.kind = .migrate) (hgen : x.gen = gen) (hps : x.pieces = ps) :
    CopyWork c gen ps s (s.runTask c x) := by
  have hpush := State.pushTask_copy (c := c) hclean hkind hgen hps x.fuel
  unfold State.runTask
  split
  · next heq => rw [heq] at hpush; exact hpush.1
  · next heq => rw [heq] at hpush; exact absurd hpush.2 Bool.false_ne_true

/-- A fresh copy among the tasks of context `c`. -/
def State.withCopy (s : State) (c gen : Nat) (ps : List Piece) : State :=
  s.modColl c fun k => { k with
    tasks := k.tasks.filter (fun x => !(x.kind == .migrate && x.gen == gen)) ++ [⟨.migrate, gen, ps, ps, 0, false⟩] }

theorem HasCopy.withCopy (hnone : ∀ y ∈ (s.coll c).tasks, y.kind ≠ .migrate) : HasCopy c gen ps (s.withCopy c gen ps) := by
  have htasks : ((s.withCopy c gen ps).coll c).tasks =
      (s.coll c).tasks.filter (fun x => !(x.kind == .migrate && x.gen == gen)) ++ [⟨.migrate, gen, ps, ps, 0, false⟩] := by
    rw [State.coll, State.withCopy, State.modColl, State.ctx_modCtx_same]
    rfl
  constructor
  · exact ⟨_, htasks ▸ List.mem_append_right _ (List.mem_singleton_self _), rfl⟩
  · intro y hy hkind
    rw [htasks, List.mem_append, List.mem_singleton] at hy
    rcases hy with hold | rfl
    · exact absurd hkind (hnone y (List.mem_of_mem_filter hold))
    · exact ⟨rfl, rfl⟩

/-- R229: the one copy of a context starts. -/
theorem State.startTask_copy (hclean : s.clean) (hnone : ∀ y ∈ (s.coll c).tasks, y.kind ≠ .migrate) :
    CopyWork c gen ps s (s.startTask c .migrate gen ps) ∧ HasCopy c gen ps (s.startTask c .migrate gen ps) := by
  have hcopy := HasCopy.withCopy (gen := gen) (ps := ps) hnone
  have hadd : CopyWork c gen ps s (s.withCopy c gen ps) := ⟨rfl, rfl, rfl, fun _ => hcopy, fun _ => .inl⟩
  have hrun := CopyWork.runTask (c := c) (s := s.withCopy c gen ps) (x := ⟨.migrate, gen, ps, ps, 0, false⟩) hclean rfl rfl rfl
  exact ⟨hadd.trans hrun, hrun.copy hcopy⟩

/-- The key of a migration's copy is no other task's. -/
theorem TaskKind.eq_migrate_of_key {x : TaskKind} {m n : Nat} (h : x.code + 8 * m = 4 + 8 * n) : x = .migrate := by
  cases x with
  | migrate => rfl
  | mirror | parityRead | parity | fp =>
    simp only [TaskKind.code] at h
    omega

/-- R230: the copy learns that a request of its own has failed. -/
theorem CopyWork.settleEnd {y : Xfer × XEnd} (howner : y.1.owner = .task c (4 + 8 * gen)) (hend : y.2 = .failed)
    (h : HasCopy c gen ps s) : CopyWork c gen ps s (s.settleEnd y.1 y.2) := by
  have htask : s.settleEnd y.1 y.2 = s.taskEnded c (4 + 8 * gen) .failed := by
    simp only [State.settleEnd, howner, hend, reduceCtorEq, if_false, ite_self]
  rw [htask, State.taskEnded]
  split
  · exact .refl s
  · next x hfind =>
    have hkey : x.kind.code + 8 * x.gen = 4 + 8 * gen := by simpa using List.find?_some hfind
    have hkind := TaskKind.eq_migrate_of_key hkey
    obtain ⟨hgen, hps⟩ := h.same x (List.mem_of_find?_eq_some hfind) hkind
    dsimp only
    rw [State.taskFailed, if_pos hkind]
    exact .putTask s hkind hgen hps

theorem CopyWork.flushN (h : HasCopy c gen ps s)
    (hended : ∀ y ∈ s.ended, y.1.owner = .task c (4 + 8 * gen) ∧ y.2 = .failed) (n : Nat) : CopyWork c gen ps s (s.flushN n) := by
  induction n generalizing s with
  | zero => exact .refl s
  | succ n ih =>
    unfold State.flushN
    split
    · exact .refl s
    · next y r heq =>
      rw [heq] at hended
      obtain ⟨⟨howner, hend⟩, hrest⟩ := List.forall_mem_cons.mp hended
      have hdrop : CopyWork c gen ps s { s with ended := r } :=
        ⟨rfl, rfl, rfl, .of_ctxs rfl, fun z hz => .inl (heq ▸ List.mem_cons_of_mem _ hz)⟩
      have hsettle := CopyWork.settleEnd howner hend (hdrop.copy h)
      refine hdrop.trans (hsettle.trans (ih (hsettle.copy (hdrop.copy h)) fun z hz => ?_))
      exact (hsettle.ended z hz).elim (hrest z) id

end

end Sys2Proof.Machine
end

section
/-!
PROOFS. MIGRATE (R229) and the statement RestoreMigrateAndImpose.
-/

namespace Sys2Proof.Machine

/-! ### An area laid whole -/

/-- Cells laid over an area change no byte outside it. -/
theorem memGet_memLay_outside {m : List Host.Cell} (hm : Memory.wf m = true) {a n b : Nat} (hb : b < a ∨ a + n ≤ b)
    {cs : List Host.Cell} (hcs : ∀ x ∈ cs, x.1 < n) : memGet (memLay m a n cs) b = memGet m b := by
  have hclear : memGet (memClear m a n) b = memGet m b := by
    rw [memGet_memClear, if_neg (by omega)]
  rw [← hclear, memLay]
  have hwf := memClear_wf hm a n
  generalize memClear m a n = v at hwf
  clear hclear
  induction cs generalizing v with
  | nil => rfl
  | cons x r ih =>
    obtain ⟨hx, hr⟩ := List.forall_mem_cons.mp hcs
    rw [List.foldl_cons, ih hr _ (memPut_wf hwf _ _), memGet_memPut_ne hwf (by omega)]

theorem cellsOf_lt {l : List Byte} {x : Host.Cell} (h : x ∈ cellsOf l) : x.1 < l.length :=
  List.mem_range.mp (List.of_mem_zip (List.mem_of_mem_filter h)).1

section
variable {s : State} {c : Nat} {f : Forme}

/-- R266: the context header changes no byte outside its area. -/
theorem State.putHeader_byte_outside (hf : (s.ctx c).forme = some f) (hmem : s.memOk) {a : Nat}
    (ha : a < f.header.base ∨ f.header.base + f.header.len ≤ a) : (s.putHeader c).byte a = s.byte a := by
  rw [State.putHeader, hf]
  refine memGet_memLay_outside hmem ?_ fun x hx => cellsOf_lt hx
  rw [List.length_map, List.length_range]
  exact ha

/-- What the context header's writing leaves. -/
theorem State.putHeader_frame (s : State) (c : Nat) : s.putHeader c = { s with
    free := (s.putHeader c).free, mem := (s.putHeader c).mem, ecc := (s.putHeader c).ecc, dies := (s.putHeader c).dies } := by
  unfold State.putHeader
  split
  · rfl
  · rfl

/-- Without an upset, an area laid whole changes memory and the die caches alone. -/
theorem State.layArea_frame (h : s.clean) (a : Nat) (l : List Byte) :
    ∃ d, s.layArea a l = { s with mem := memLay s.mem a l.length (cellsOf l), dies := d } := by
  have hdrop : ∀ p, s.ecc.dropIf p = s.ecc := fun p => by rw [h.1]; rfl
  unfold State.layArea
  rw [hdrop]
  exact ⟨_, rfl⟩

theorem State.putHeader_clean (h : s.clean) (c : Nat) : (s.putHeader c).clean := by
  unfold State.putHeader
  split
  · exact h
  · next f hf =>
    obtain ⟨d, heq⟩ := State.layArea_frame (s := { s with free := s.free + 1 }) h f.header.base
      ((List.range f.header.len).map fun i => Config.headerByte i s.free)
    rw [heq]
    exact h

end

/-! ### MIGRATE (R229) -/

/-- The peer table with the migration's target in it (R247). -/
def State.withPeer (s : State) (fab : Nat) : State :=
  if (s.peer fab).isNone ∧ s.peers.length < 4096 then { s with peers := s.peers ++ [Peer.new fab] } else s

/-- The pieces of a migration's copy (assumption 49). -/
def migrationPieces (fab : Nat) (f : Forme) : List Piece :=
  (f.windows.filter (·.write)).map (fun w => Piece.mk fab w.base (.mem w.base w.len))
    ++ ((List.range f.ownAreas.length).zip f.ownAreas).map (fun p => Piece.mk fab (migrationAt p.1) (.mem p.2.base p.2.len))

/-- A context that enters MIGRATING, its tasks stopped. -/
def State.migrating (s : State) (c r fab : Nat) : State :=
  (((s.withPeer fab).stopTasks c).begun c r).setCtxState c ctxMigrating

theorem State.peer_isSome_iff {s : State} {fab : Nat} : (s.peer fab).isSome = true ↔ fab ∈ s.peers.map Peer.fab := by
  rw [State.peer, List.find?_isSome, List.mem_map]
  simp

theorem State.withPeer_frame (s : State) (fab : Nat) : s.withPeer fab = { s with peers := (s.withPeer fab).peers } := by
  unfold State.withPeer
  split
  · rfl
  · rfl

theorem State.withPeer_peer {s : State} (h : s.peers.length < 4096) (fab : Nat) : ((s.withPeer fab).peer fab).isSome = true := by
  unfold State.withPeer
  split
  · rw [State.peer_isSome_iff, List.map_append]
    exact List.mem_append_right _ (List.mem_singleton_self fab)
  · next hin => exact Option.isSome_iff_ne_none.mpr fun hnone => hin ⟨Option.isNone_iff_eq_none.mpr hnone, h⟩

section
variable {s : State} {c : CtxId} {r : RingId} {k : Cmd} {f : Forme}

theorem State.stopTasks_no_copy (s : State) (c : Nat) : ∀ y ∈ ((s.stopTasks c).coll c).tasks, y.kind ≠ .migrate := by
  have htasks : ((s.stopTasks c).coll c).tasks = ((s.coll c).tasks.filter fun t => t.kind != TaskKind.migrate).map fun t =>
      { t with todo := t.pieces, fails := 0, out := false } := by
    rw [State.coll, State.stopTasks, State.modColl, State.ctx_modCtx_same]
    rfl
  rw [htasks]
  intro y hy
  obtain ⟨x, hx, rfl⟩ := List.mem_map.mp hy
  simpa using (List.mem_filter.mp hx).2

theorem State.stopTasks_forme (s : State) (c : Nat) : ((s.stopTasks c).ctx c).forme = (s.ctx c).forme := by
  rw [State.stopTasks, State.modColl, State.ctx_modCtx_same]
  rfl

/-- What stands before the copy of a migration starts. -/
structure Migrating (c : CtxId) (f : Forme) (fab : Nat) (s u : State) : Prop where
  state : u.ctxState c = ctxMigrating
  noCopy : ∀ y ∈ (u.coll c).tasks, y.kind ≠ .migrate
  clean : u.clean
  ended : u.ended = s.ended
  cores : u.cores = s.cores
  peer : (u.peer fab).isSome = true
  outside : ∀ a, a < f.header.base ∨ f.header.base + f.header.len ≤ a → u.byte a = s.byte a

theorem State.migrating_frame (s : State) (c r fab : Nat) : s.migrating c r fab = { s with
    regs := (s.migrating c r fab).regs, ctxs := (s.migrating c r fab).ctxs, peers := (s.withPeer fab).peers
    xfers := (s.migrating c r fab).xfers } := by
  have hframe := s.withPeer_frame fab
  unfold State.migrating
  generalize s.withPeer fab = t at hframe
  rw [hframe]
  rfl

theorem State.migrating_ctx (s : State) (c r fab : Nat) :
    ∃ l, (s.migrating c r fab).ctx c = { ((s.withPeer fab).stopTasks c).ctx c with rings := l } := by
  rw [State.migrating, State.ctx_setCtxState, State.begun, State.ctx_setStage]
  exact ⟨_, rfl⟩

theorem State.migrating_ready (hf : (s.ctx c).forme = some f) (hmem : s.memOk) (hclean : s.clean) (hpeers : s.peers.length < 4096)
    (fab : Nat) : Migrating c f fab s ((s.migrating c r fab).putHeader c) := by
  have hpeer := State.withPeer_peer hpeers fab
  have hctxs : (s.withPeer fab).ctxs = s.ctxs := by rw [s.withPeer_frame]
  have hforme : (((s.withPeer fab).stopTasks c).ctx c).forme = some f := by
    rw [State.stopTasks_forme, State.ctx_of_ctxs hctxs, hf]
  have hnone := (s.withPeer fab).stopTasks_no_copy c
  have hframe := s.migrating_frame c r fab
  have hstate : (s.migrating c r fab).ctxState c = ctxMigrating := State.setCtxState_same _ c (by decide)
  obtain ⟨l, hctx⟩ := s.migrating_ctx c r fab
  generalize s.migrating c r fab = t at *
  have htforme : (t.ctx c).forme = some f := by rw [hctx, hforme]
  have htclean : t.clean := by rw [hframe]; exact hclean
  have htmem : t.memOk := by rw [hframe]; exact hmem
  have hput := t.putHeader_frame c
  have houtside := fun a ha => State.putHeader_byte_outside (a := a) htforme htmem ha
  have hpclean := State.putHeader_clean htclean c
  generalize t.putHeader c = u at *
  have huctx : u.ctx c = t.ctx c := State.ctx_of_ctxs (by rw [hput]) c
  exact {
    state := (State.ctxState_of_regs (by rw [hput]) c).trans hstate
    noCopy := by rw [State.coll, huctx, hctx]; exact hnone
    clean := hpclean
    ended := by rw [hput, hframe]
    cores := by rw [hput, hframe]
    peer := by rw [State.peer, hput, hframe]; exact hpeer
    outside := fun a ha => (houtside a ha).trans (by rw [hframe]; rfl) }

theorem State.migrate_acts (h : CommandActs s c r 7 k) (hf : (s.ctx c).forme = some f) (hspan : s.spans c = false ∨ k.arg 11 1 = c) :
    s.migrate c r = ((s.migrating c r (k.arg 8 3)).putHeader c).startTask c .migrate (k.arg 11 1)
      (migrationPieces (k.arg 8 3) f) := by
  have hself : ¬ (s.spans c = true ∧ k.arg 11 1 ≠ c) := by
    rintro ⟨hspans, hne⟩
    exact hspan.elim (fun hno => absurd (hno.symm.trans hspans) (by decide)) hne
  rw [State.migrate, h.cmdRow]
  dsimp only
  rw [if_neg hself, hf]
  rfl

/-- R229: MIGRATE starts the copy. -/
theorem exec_migrate_copies (h : CommandActs s c r 7 k) (hf : (s.ctx c).forme = some f)
    (hspan : s.spans c = false ∨ k.arg 11 1 = c) (hended : s.ended = []) (hmem : s.memOk) (hclean : s.clean)
    (hpeers : s.peers.length < 4096) : ∃ u t, exec (.migrate c r) s = .next u ∧ u.ctxState c = ctxMigrating
      ∧ u.copyTask c = some t ∧ t.gen = k.arg 11 1 ∧ t.pieces = migrationPieces (k.arg 8 3) f
      ∧ (u.peer (k.arg 8 3)).isSome = true ∧ u.cores = s.cores
      ∧ ∀ a, a < f.header.base ∨ f.header.base + f.header.len ≤ a → u.byte a = s.byte a := by
  have hready := State.migrating_ready (r := r) hf hmem hclean hpeers (k.arg 8 3)
  have hexec : exec (.migrate c r) s = .next (s.migrate c r).flush := rfl
  rw [State.migrate_acts h hf hspan] at hexec
  generalize (s.migrating c r (k.arg 8 3)).putHeader c = t at hready hexec
  obtain ⟨hwork, hcopy⟩ := State.startTask_copy (gen := k.arg 11 1) (ps := migrationPieces (k.arg 8 3) f) hready.clean
    hready.noCopy
  have hback := Background.startTask (c := c) hready.clean .migrate (k.arg 11 1) (migrationPieces (k.arg 8 3) f)
  generalize t.startTask c .migrate (k.arg 11 1) (migrationPieces (k.arg 8 3) f) = v at hexec hwork hcopy hback
  have hfailed : ∀ y ∈ v.ended, y.1.owner = .task c (4 + 8 * k.arg 11 1) ∧ y.2 = .failed := fun y hy =>
    (hwork.ended y hy).resolve_left (by rw [hready.ended, hended]; exact List.not_mem_nil)
  have hsettled := CopyWork.flushN hcopy hfailed 4096
  have hkeeps := KeepsOthers.flushN (hback.clean hready.clean)
    (fun y hy => ⟨⟨_, (hfailed y hy).1⟩, (hfailed y hy).2⟩) 4096
  have hall := hwork.trans hsettled
  obtain ⟨x, hx, hgen, hps⟩ := (hsettled.copy hcopy).copyTask
  refine ⟨_, x, hexec, ?_, hx, hgen, hps, ?_, hall.cores.trans hready.cores, fun a ha => ?_⟩
  · exact (hkeeps.state c).trans ((hback.state c).trans hready.state)
  · exact State.peer_isSome_iff.mpr (hall.fabs ▸ State.peer_isSome_iff.mp hready.peer)
  · exact (congrArg (memGet · a) hall.mem).trans (hready.outside a ha)

end

/-! ### The statement -/

/-- Settles O26: a restore waits for its cores or takes them, a migration enters MIGRATING with its header written and its copy
started, and an imposition is pending or refused (assumptions 49, 50 and 31). -/
theorem restoreMigrateAndImpose : Obligations.RestoreMigrateAndImpose := by
  unfold Obligations.RestoreMigrateAndImpose
  intro c r s k
  refine ⟨?waits, ?empty, ?migrates, ?pends, ?refuses⟩
  case waits => exact exec_restore_waits
  case empty =>
    intro h hfits hnone himage hfree _ hclean hland hroom
    exact exec_restore_empty h hfits hnone himage hfree hclean hland hroom
  case migrates => exact fun f h hf hspan hended hmem hclean hpeers => exec_migrate_copies h hf hspan hended hmem hclean hpeers
  case pends =>
    intro f i v h hf hnone hended hclean hcheck hwait
    exact exec_setImposition_pends h hf hnone hended hclean hcheck hwait
  case refuses =>
    intro f i v code h hf hnone hended hcheck hcode hroom hclean
    exact exec_setImposition_refuses h hf hnone hended hclean hcheck hcode hroom

end Sys2Proof.Machine
end

section
/-!
PROOFS. Requests sent again, failed for want of an answer, or BUSY for too long (R228, R251, R252).
-/

namespace Sys2Proof.Machine

/-! ### Cells that a port serves -/

/-- What sending cells by ports changes: the links, the SEQs of the peer table, the times of the requests, and what leaves. -/
structure Transmits (s u : State) : Prop where
  frame : u = { s with links := u.links, peers := u.peers, xfers := u.xfers, out := u.out }
  ids : u.xfers.map Xfer.id = s.xfers.map Xfer.id

section
variable {s t u : State}

theorem Transmits.refl (s : State) : Transmits s s := ⟨rfl, rfl⟩

theorem Transmits.trans (h : Transmits s t) (h' : Transmits t u) : Transmits s u :=
  ⟨by rw [h'.frame, h.frame], h'.ids.trans h.ids⟩

theorem Transmits.mem (h : Transmits s u) : u.mem = s.mem := by rw [h.frame]

theorem Transmits.cores (h : Transmits s u) : u.cores = s.cores := by rw [h.frame]

theorem Transmits.ended (h : Transmits s u) : u.ended = s.ended := by rw [h.frame]

/-- The port of a cell depends on the routes and the registers (R253). -/
theorem Transmits.portFor (h : Transmits s u) (dst tc : Nat) : u.portFor dst tc = s.portFor dst tc := by
  rw [h.frame]
  rfl

end

section
variable (s : State)

theorem Transmits.linkSend (p tc : Nat) (l : List Byte) : Transmits s (s.linkSend p tc l) := by
  unfold State.linkSend
  split
  · refine ⟨rfl, ?_⟩
    dsimp only [State.emitOut, State.cellLeaves, State.modLink]
    rw [List.map_map]
    refine List.map_congr_left fun x _ => ?_
    dsimp only [Function.comp_apply]
    split
    · rfl
    · rfl
  · exact ⟨rfl, rfl⟩

theorem Transmits.nextSeq (fab tc : Nat) : Transmits s (s.nextSeq fab tc).1 := ⟨rfl, rfl⟩

theorem Transmits.resyncTx (fab tc : Nat) : Transmits s (s.resyncTx fab tc) := ⟨rfl, rfl⟩

/-- R253, R260: a cell that has a port leaves by it or is dropped by a fence. -/
theorem State.sendCell_served {x : Cell} (h : (s.portFor x.dst x.tc).isSome = true) :
    Transmits s (s.sendCell x).1 ∧ (s.sendCell x).2 = true := by
  obtain ⟨p, hp⟩ := Option.isSome_iff_exists.mp h
  unfold State.sendCell
  split
  · exact ⟨.refl s, rfl⟩
  · rw [hp]
    exact ⟨.linkSend s .., rfl⟩

theorem State.sendCells_served {x : Xfer} (h : (s.portFor x.fab x.tc).isSome = true) (first keep : Bool)
    (l : List (Nat × Nat × List Byte)) (i : Nat) :
    Transmits s (s.sendCells x first keep l i).1 ∧ (s.sendCells x first keep l i).2 = true := by
  induction l generalizing s i with
  | nil => exact ⟨.refl s, rfl⟩
  | cons e r ih =>
    obtain ⟨ty, a, pl⟩ := e
    have hgo : ∀ {t : State} {y : Cell}, Transmits s t → y.dst = x.fab → y.tc = x.tc →
        (t.sendCell y).2 = true ∧ Transmits s ((t.sendCell y).1.sendCells x first keep r (i + 1)).1
          ∧ ((t.sendCell y).1.sendCells x first keep r (i + 1)).2 = true := by
      intro t y ht hdst htc
      have hsent := State.sendCell_served t (x := y) (by rw [hdst, htc, ht.portFor]; exact h)
      have hrest := ih (t.sendCell y).1 (by rw [(ht.trans hsent.1).portFor]; exact h) (i + 1)
      exact ⟨hsent.2, (ht.trans hsent.1).trans hrest.1, hrest.2⟩
    cases keep with
    | true =>
      have hcell := fun y => hgo (t := s) (y := y) (.refl s)
      simp only [State.sendCells, if_true]
      rw [if_pos (hcell _ rfl rfl).1]
      exact (hcell _ rfl rfl).2
    | false =>
      have hcell := fun y => hgo (t := (s.nextSeq x.fab x.tc).1) (y := y) (.nextSeq s ..)
      simp only [State.sendCells, Bool.false_eq_true, if_false]
      rw [if_pos (hcell _ rfl rfl).1]
      exact (hcell _ rfl rfl).2

end

/-! ### A request sent again -/

section
variable {s : State} {x : Nat} {y : Xfer}

theorem State.xfer?_id (h : s.xfer? x = some y) : y.id = x := by simpa using List.find?_some h

/-- R228: a request that has a port is sent anew, the last of its flow. -/
theorem State.emit_served (hpeer : s.peerValid y.fab = true) (hport : (s.portFor y.fab y.tc).isSome = true) (resync : Bool) :
    ∃ t q n, Transmits s t ∧ s.emit y resync = { t with xfers := t.xfers.filter (fun z => z.id != y.id) ++
      [{ y with seq := q, cells := n, sentAt := s.timeUs, busy := false, resent := false, got := [] }] } := by
  have hsent := fun q n => State.sendCells_served s (x := { y with
    seq := q, cells := n, sentAt := s.timeUs, busy := false, resent := false, got := [] }) hport resync false y.cellList 0
  unfold State.emit
  rw [if_pos hpeer]
  dsimp only
  rw [if_pos (hsent _ _).2]
  exact ⟨_, _, _, (hsent _ _).1, rfl⟩

/-- R228: a request that met BUSY is sent again. -/
theorem exec_busyRetry_sends (hx : s.xfer? x = some y) (hbusy : y.busy = true) (hdue : y.sentAt + 2 ≤ s.timeUs)
    (hended : s.ended = []) (hpeer : s.peerValid y.fab = true) (hport : (s.portFor y.fab y.tc).isSome = true) :
    ∃ u z, exec (.busyRetry x) s = .next u ∧ u.xfer? x = some z ∧ z.busy = false ∧ z.sentAt = s.timeUs
      ∧ z.busySince = y.busySince ∧ z.data = y.data ∧ u.mem = s.mem ∧ u.cores = s.cores := by
  have hid := State.xfer?_id hx
  have hexec : exec (.busyRetry x) s = .next (s.emit y false).flush := by
    change Host.Outcome.next _ = _
    rw [hx]
    dsimp only
    rw [if_pos ⟨hbusy, hdue⟩]
  obtain ⟨t, q, n, ht, hemit⟩ := State.emit_served hpeer hport false
  have hnil : (s.emit y false).ended = [] := by rw [hemit]; exact ht.ended.trans hended
  rw [State.flush_of_ended_nil hnil, hemit] at hexec
  refine ⟨_, { y with seq := q, cells := n, sentAt := s.timeUs, busy := false, resent := false, got := [] }, hexec, ?_, rfl, rfl,
    rfl, rfl, ht.mem, ht.cores⟩
  have hgone : (t.xfers.filter fun z => z.id != y.id).find? (fun z => z.id == x) = none := by
    refine List.find?_eq_none.mpr fun z hz => ?_
    rw [← hid]
    simpa using (List.mem_filter.mp hz).2
  rw [State.xfer?, List.find?_append, hgone]
  simp [hid]

/-- The one request that has ended is settled. -/
theorem State.flush_of_ended_one {p : Xfer × XEnd} (h : s.ended = [p])
    (hnil : ({ s with ended := [] }.settleEnd p.1 p.2).ended = []) : s.flush = { s with ended := [] }.settleEnd p.1 p.2 := by
  change s.flushN (4095 + 1) = _
  rw [State.flushN, h]
  exact State.flushN_of_ended_nil hnil 4095

/-- A request as it is sent again at `t` under its own SEQs. -/
def Xfer.again (y : Xfer) (t : Nat) : Xfer := { y with resent := true, sentAt := t, got := [] }

/-- R251: the one request of a module that has a port is sent again under its own SEQs. -/
theorem State.resendOne_served (hport : (s.portFor y.fab y.tc).isSome = true) (hone : s.xfers = [y]) (prev : Option Nat) :
    ∃ t, Transmits s t ∧ s.resendOne y prev = { t with xfers := [y.again s.timeUs] } := by
  obtain ⟨hsent, hok⟩ := State.sendCells_served s (x := y.again s.timeUs) hport (prev != some y.seq) true
    (y.again s.timeUs).cellList 0
  have hresend : s.resendOne y prev =
      let p := s.sendCells (y.again s.timeUs) (prev != some y.seq) true (y.again s.timeUs).cellList 0
      if p.2 = true then { p.1 with xfers := p.1.xfers.map fun z => if z.id = y.id then y.again s.timeUs else z }
      else p.1.failXfer (y.again s.timeUs) := rfl
  rw [hresend]
  dsimp only
  rw [if_pos hok]
  generalize (s.sendCells (y.again s.timeUs) (prev != some y.seq) true (y.again s.timeUs).cellList 0).1 = t at hsent
  have hids := hsent.ids
  rw [hone] at hids
  obtain ⟨z, hz, hzid⟩ := List.map_eq_singleton_iff.mp hids
  refine ⟨t, hsent, ?_⟩
  rw [hz, List.map_singleton, if_pos hzid]

theorem State.resend_one (hfresh : y.resent = false) (hidle : y.busy = false) (hport : (s.portFor y.fab y.tc).isSome = true)
    (hone : s.xfers = [y]) : ∃ t, Transmits s t ∧ (s.resend y).xfers = [y.again s.timeUs] ∧ (s.resend y).mem = t.mem
      ∧ (s.resend y).cores = t.cores ∧ (s.resend y).ended = t.ended := by
  obtain ⟨t, ht, heq⟩ := State.resendOne_served hport hone none
  have hlist : (s.xfers.dropWhile fun z => z.id != y.id).filter (fun z => z.fab == y.fab && z.tc == y.tc && !z.resent && !z.busy) =
      [y] := by
    rw [hone]
    simp [hfresh, hidle]
  unfold State.resend
  rw [hfresh, hlist]
  simp only [Bool.false_eq_true, if_false, List.foldl_cons, List.foldl_nil, heq]
  split
  · exact ⟨t, ht, rfl, rfl, rfl, rfl⟩
  · exact ⟨t, ht, rfl, rfl, rfl, rfl⟩

variable (hx : s.xfer? x = some y) (hidle : y.busy = false) (hleft : s.waitsAtPort y = false) (hdue : y.sentAt + 50 ≤ s.timeUs)
  (hended : s.ended = [])
include hx hidle hleft hdue

theorem exec_requestTimeout_resends : exec (.requestTimeout x) s = .next (s.resend y).flush := by
  change Host.Outcome.next _ = _
  rw [hx]
  dsimp only
  rw [if_pos ⟨hidle, hleft, hdue⟩]

include hended

/-- R251: the one outstanding request is sent again under its own SEQs. -/
theorem exec_requestTimeout_again (hfresh : y.resent = false) (hport : (s.portFor y.fab y.tc).isSome = true)
    (hone : s.xfers = [y]) : ∃ u z, exec (.requestTimeout x) s = .next u ∧ u.xfers = [z] ∧ z.resent = true ∧ z.seq = y.seq
      ∧ z.sentAt = s.timeUs ∧ u.mem = s.mem ∧ u.cores = s.cores := by
  have hexec := exec_requestTimeout_resends hx hidle hleft hdue
  obtain ⟨t, ht, hxfers, hmem, hcores, hend⟩ := State.resend_one hfresh hidle hport hone
  rw [State.flush_of_ended_nil (hend.trans (ht.ended.trans hended))] at hexec
  exact ⟨_, _, hexec, hxfers, rfl, rfl, rfl, hmem.trans ht.mem, hcores.trans ht.cores⟩

/-- R251, R252: a quoin update that has been sent again fails. -/
theorem exec_requestTimeout_fails (hagain : y.resent = true) (howner : y.owner = .quoin) (hroom : s.eventRoom 1) :
    ∃ u, exec (.requestTimeout x) s = .next u ∧ u.xfer? x = none ∧ Raises s u [(0x0507, some y.ctx, 0, [y.fab])]
      ∧ u.mem = s.mem ∧ u.cores = s.cores := by
  have hexec := exec_requestTimeout_resends hx hidle hleft hdue
  have hfail : s.resend y = s.failXfer y := by rw [State.resend, if_pos hagain]
  rw [hfail, State.failXfer, State.failXferFor] at hexec
  have hcount : (s.fadd F.FAB_XFER_FAIL_COUNT 1).eventRoom 1 := State.eventRoom_of rfl rfl hroom
  have hraises : Raises s _ _ := (raises_raise hcount 0x0507 (some y.ctx) 0 [y.fab]).of_evq rfl
  have hframe := OnlyRegsCtxsEvents.raise (s.fadd F.FAB_XFER_FAIL_COUNT 1) 0x0507 (some y.ctx) 0 [y.fab]
  generalize (s.fadd F.FAB_XFER_FAIL_COUNT 1).raise 0x0507 (some y.ctx) 0 [y.fab] = t at hexec hraises hframe
  have hend : (t.endXfer y .failed).ended = [(y, .failed)] := by
    rw [State.endXfer, hframe]
    exact congrArg (· ++ _) hended
  have hsettle : { t.endXfer y .failed with ended := [] }.settleEnd y .failed = { t.endXfer y .failed with ended := [] } := by
    rw [State.settleEnd, howner]
    rfl
  have hflush := (State.flush_of_ended_one hend (by rw [hsettle])).trans hsettle
  rw [hflush] at hexec
  refine ⟨_, hexec, ?_, hraises, by rw [State.endXfer, hframe]; rfl, by rw [State.endXfer, hframe]; rfl⟩
  refine List.find?_eq_none.mpr fun z hz => ?_
  rw [← State.xfer?_id hx]
  simpa using (List.mem_filter.mp hz).2

end

/-! ### BUSY for the peer timeout (R228, R355) -/

theorem State.tellStraggler_holders (s : State) (c fab : Nat) : KeepsHolders s (s.tellStraggler c fab) := by
  unfold State.tellStraggler
  split
  · exact .refl s
  · exact (KeepsHolders.raise s ..).trans (.modCtx _ c _)

/-- R228: BUSY for the peer timeout raises event 0x0426. -/
theorem exec_peerTimeout_raises {s : State} {x t : Nat} {y : Xfer} (hx : s.xfer? x = some y) (hbusy : y.busySince = some t)
    (hdue : t + 1000 * s.fget (F.CTX_CFG_PEER_TO_MS y.ctx) ≤ s.timeUs) (hnew : (s.coll y.ctx).told.contains (2 ^ 41 + y.fab) = false)
    (hroom : s.eventRoom 2) : ∃ u, exec (.peerTimeout x) s = .next u
      ∧ (∃ e ∈ u.evq, e.says = (0x0426, some y.ctx, 0, [y.fab])) ∧ u.mem = s.mem ∧ u.cores = s.cores := by
  have hpeer : s.peerTimeout x = ((s.raise 0x0426 (some y.ctx) 0 [y.fab]).modColl y.ctx fun k =>
      { k with told := (2 ^ 41 + y.fab) :: k.told }).tellStraggler y.ctx y.fab := by
    rw [State.peerTimeout, hx]
    dsimp only
    rw [hbusy]
    dsimp only
    rw [if_neg]
    rintro (hearly | htold)
    · omega
    · exact absurd (hnew.symm.trans htold) (by decide)
  have hexec : exec (.peerTimeout x) s = .next (s.peerTimeout x) := rfl
  have hraises := raises_raise (Nat.le_of_succ_le hroom) 0x0426 (some y.ctx) 0 [y.fab]
  have hraise := KeepsHolders.raise s 0x0426 (some y.ctx) 0 [y.fab]
  rw [hpeer] at hexec
  generalize s.raise 0x0426 (some y.ctx) 0 [y.fab] = v at hexec hraises hraise
  have htell : KeepsHolders v ((v.modColl y.ctx fun k => { k with told := (2 ^ 41 + y.fab) :: k.told }).tellStraggler y.ctx y.fab) :=
    (KeepsHolders.modCtx v y.ctx _).trans (State.tellStraggler_holders _ ..)
  have hall := hraise.trans htell
  exact ⟨_, hexec, hraises.exists_says htell.evq, hall.mem, hall.cores⟩

end Sys2Proof.Machine
end

section
/-!
PROOFS. A slot torn down (R231), and the ends of teardowns and of migrations at their source (R229, R230).
-/

namespace Sys2Proof.Machine

/-! ### Registers at their reset values (R12) -/

theorem Tbl.find_dropIf_kept {α : Type} (t : Tbl α) {p : Nat → Bool} {k : Nat} (h : p k = false) :
    (t.dropIf p).find k = t.find k := by
  obtain ⟨l⟩ := t
  induction l with
  | nil => rfl
  | cons e r ih =>
    simp only [Tbl.find, Tbl.dropIf] at ih
    by_cases hp : p e.1 = true
    · have hne : e.1 ≠ k := fun heq => absurd (h.symm.trans (heq ▸ hp)) (by decide)
      simpa [Tbl.find, Tbl.dropIf, Tbl.findIn, hp, hne] using ih
    · have hfilter : (e :: r).filter (fun e => !p e.1) = e :: r.filter fun e => !p e.1 := List.filter_cons_of_pos (by simpa using hp)
      rw [Tbl.find, Tbl.dropIf, hfilter, Tbl.find, Tbl.findIn, Tbl.findIn, ih]

/-- A context's state at reset is FREE (R12). -/
theorem reset_ctxState (c : CtxId) : bits (regReset (R.CTX_STAT c)).toNat 31 28 = ctxFree := by
  have hreset : ∀ d : CtxId, bits (regReset (R.CTX_STAT d)).toNat 31 28 = ctxFree := by decide +kernel
  exact hreset c

section
variable (s : State) (c : CtxId)

theorem State.resetCtxRegs_ctxState : (s.resetCtxRegs c).ctxState c = ctxFree := by
  have hgone : (s.resetCtxRegs c).regs.find (R.CTX_STAT c) = none := Tbl.find_dropIf _ (by
    dsimp only [R.CTX_STAT, R.CTX_FAULT, R.CTX_TIME]
    simp)
  rw [State.ctxState, State.fget, State.rget, Tbl.get, hgone]
  exact reset_ctxState c

theorem State.resetCtxRegs_occupant (g : CoreId) : (s.resetCtxRegs c).occupant g = s.occupant g := by
  have hkept : (s.resetCtxRegs c).rget (R.CORE_RES g) = s.rget (R.CORE_RES g) := by
    have hfind : (s.resetCtxRegs c).regs.find (R.CORE_RES g) = s.regs.find (R.CORE_RES g) := Tbl.find_dropIf_kept _ (by
      have hc := c.isLt
      have hg := g.isLt
      simp only [R.CORE_RES, coreBase, R.CTX_FAULT, R.CTX_TIME, Bool.or_eq_false_iff, Bool.and_eq_false_iff, decide_eq_false_iff_not]
      omega)
    rw [State.rget, State.rget, Tbl.get, Tbl.get, hfind]
  rw [State.occupant, State.occupant, State.fget, State.fget, State.fget, State.fget, hkept]

theorem State.countOpen_holders : KeepsHolders s (s.countOpen c) := by
  have hstat : ∀ k, Elsewhere (R.RDX_STAT k) := fun k => .inr (by dsimp only [R.RDX_STAT, rdxBase]; omega)
  have hdrain : Elsewhere (R.RDX_DRAIN c) := .inr (by dsimp only [R.RDX_DRAIN]; omega)
  unfold State.countOpen
  refine KeepsHolders.trans ?_ (.fset _ hdrain _)
  exact foldl_rel .refl .trans (fun t k _ => .fset t (hstat k) _) s

end

/-! ### Teardown (R231) -/

/-- The slot is FREE, without forme and cores. -/
structure Freed (c : CtxId) (u : State) : Prop where
  state : u.ctxState c = ctxFree
  forme : (u.ctx c).forme = none
  cores : NoCores u c

section
variable {s u : State} {c : CtxId}

theorem Freed.of_holders (h : KeepsHolders s u) (hforme : (u.ctx c).forme = (s.ctx c).forme) (hs : Freed c s) : Freed c u where
  state := (h.state c).trans hs.state
  forme := hforme.trans hs.forme
  cores g := by rw [h.occupant]; exact hs.cores g

theorem State.countOpen_ctx (s : State) (c d : Nat) : (s.countOpen c).ctx d = s.ctx d := by
  have hfold : ∀ v : Nat → Nat, ((List.range 4).foldl (fun s k => s.fset (F.RDX_STAT_OPEN k) (v k)) s).ctxs = s.ctxs := fun v =>
    foldl_view_same (view := State.ctxs) (f := fun s k => s.fset (F.RDX_STAT_OPEN k) (v k)) (fun _ _ _ => rfl) s
  unfold State.countOpen
  dsimp only
  rw [State.fset_ctx']
  refine State.ctx_of_ctxs ?_ d
  exact hfold _

/-- A slot whose cores are released and whose context is set back to one without a forme is FREE once its registers are. -/
theorem State.resetCtxRegs_freed (hcores : NoCores s c) (hforme : (s.ctx c).forme = none) : Freed c (s.resetCtxRegs c) where
  state := s.resetCtxRegs_ctxState c
  forme := hforme
  cores g := by rw [State.resetCtxRegs_occupant]; exact hcores g

/-- Teardown's last part: what it makes of the state whose cores are released. -/
theorem State.tearNow_eq (s : State) (c : Nat) : ∃ (t : State) (x : Ctx) (xs : List Xfer) (es : List (Xfer × XEnd)) (named : List Nat), x.forme = none ∧
    s.tearNow c = ((((({ (t.releaseAll c).setCtx c x with xfers := xs, ended := es } : State).resetCtxRegs c).countOpen c).raise
      0x0422 (some c) 0 []).prunePeers named) := by
  unfold State.tearNow
  exact ⟨_, _, _, _, _, rfl, rfl⟩

/-- R231: teardown frees the slot. -/
theorem State.tearNow_freed (s : State) (c : CtxId) : Freed c (s.tearNow c) := by
  obtain ⟨t, x, xs, es, named, hforme, heq⟩ := s.tearNow_eq c
  have hreset : Freed c (({ (t.releaseAll c).setCtx c x with xfers := xs, ended := es } : State).resetCtxRegs c) :=
    State.resetCtxRegs_freed (t.releaseAll_gone c) (by
      change (((t.releaseAll c).setCtx c x).ctx c).forme = none
      rw [State.ctx_setCtx_same, hforme])
  generalize ({ (t.releaseAll c).setCtx c x with xfers := xs, ended := es } : State).resetCtxRegs c = v at hreset heq
  have hcount : Freed c (v.countOpen c) := hreset.of_holders (v.countOpen_holders c) (by rw [State.countOpen_ctx])
  generalize v.countOpen c = w at hcount heq
  have hraise : Freed c (w.raise 0x0422 (some c.val) 0 []) :=
    hcount.of_holders (.raise w ..) (by rw [State.ctx_of_ctxs (State.raise_ctxs ..)])
  rw [heq]
  exact ⟨hraise.state, hraise.forme, hraise.cores⟩

/-- R231: a teardown whose tick has come ends with the slot FREE. -/
theorem exec_teardownDone_frees (hstate : s.ctxState c = ctxTearing) (htick : (s.ctx c).tearing ≠ none)
    (hup : s.fget F.MGT_PLANE_STAT_MGMT_DOWN = 0) (hfree : s.captureOn c = false) :
    ∃ u, exec (.teardownDone c) s = .next u ∧ Freed c u := by
  have hacts : ¬ (s.ctxState c ≠ ctxTearing ∨ (s.ctx c).tearing = none ∨ s.fget F.MGT_PLANE_STAT_MGMT_DOWN = 1 ∨
      s.captureOn c = true) := by
    rw [hup, hfree]
    rintro (hs | ht | hd | hcap)
    · exact hs hstate
    · exact htick ht
    · exact absurd hd (by decide)
    · exact absurd hcap (by decide)
  have hexec : exec (.teardownDone c) s = .next (s.teardownDone c) := rfl
  rw [State.teardownDone, if_neg hacts] at hexec
  have hfreed := (s.cutStep c stTornDown).tearNow_freed c
  generalize (s.cutStep c stTornDown).tearNow c = t at hexec hfreed
  exact ⟨_, hexec, hfreed.of_holders (.completeAll t ..)
    (State.completeAll_ctx_view (view := Ctx.forme) t (fun _ _ => rfl) (fun _ _ => rfl) (fun _ => rfl) ..)⟩

/-! ### Migrations at their source (R229, R230) -/

/-- R229: the target's confirmation of a whole copy frees the source's slot. -/
theorem exec_migrateConfirm_frees {t : Task} (hstate : s.ctxState c = ctxMigrating) (hcopy : s.copyTask c = some t)
    (hidle : t.out = false) (hsent : t.todo = []) (hgood : t.fails = 0) : ∃ u, exec (.migrateConfirm c) s = .next u ∧ Freed c u := by
  have hwhole : ¬ (t.out = true ∨ t.todo ≠ [] ∨ t.fails ≠ 0) := by simp [hidle, hsent, hgood]
  have hexec : exec (.migrateConfirm c) s = .next (s.migrateConfirm c) := rfl
  rw [State.migrateConfirm, if_pos hstate, State.confirmSource, hcopy] at hexec
  dsimp only at hexec
  rw [if_neg hwhole] at hexec
  exact ⟨_, hexec, State.tearNow_freed _ c⟩

/-- R230: the MIGRATE commands under way complete with the cause of the failure. -/
def State.failMigrations (s : State) (c cause : Nat) : State :=
  (List.range 4).foldl (fun s r => match (s.ring c r).cur with
    | some k => if k.opc = 7 ∧ k.stage = .active then s.complete c r stMigrateFailed cause 0 else s
    | none => s) s

theorem State.failMigrations_keeps (s : State) (c cause : Nat) :
    KeepsHolders s (s.failMigrations c cause) ∧ (s.failMigrations c cause).coll c = s.coll c := by
  refine foldl_rel (rel := fun s u : State => KeepsHolders s u ∧ u.coll c = s.coll c) (fun s => ⟨.refl s, rfl⟩)
    (fun h h' => ⟨h.1.trans h'.1, h'.2.trans h.2⟩) (fun t r _ => ?_) s
  split
  · split
    · exact ⟨.complete t .., t.complete_ctx_view (view := fun x => x.coll) (fun _ _ => rfl) (fun _ _ => rfl) (fun _ => rfl) ..⟩
    · exact ⟨.refl t, rfl⟩
  · exact ⟨.refl t, rfl⟩

/-- R230: where the copy was the only task, none resumes. -/
theorem State.migrateFailed_eq {t : Task} (hone : (s.coll c).tasks = [t]) (hkind : t.kind = .migrate) (cause : Nat) :
    s.migrateFailed c cause = ((s.copyEnded c).raise 0x0428 (some c.val) 0 [cause]).failMigrations c cause := by
  have hresume : ((s.copyEnded c).raise 0x0428 (some c.val) 0 [cause]).resumeTasks c =
      (s.copyEnded c).raise 0x0428 (some c.val) 0 [cause] := State.resumeTasks_none (by
    rw [State.coll, State.ctx_of_ctxs (State.raise_ctxs ..)]
    exact s.copyEnded_tasks c)
  unfold State.migrateFailed
  dsimp only
  rw [State.stopTasks_copy (by rw [hone]; simpa using hkind), hresume]
  rfl

/-- R230: a copy that fails returns the source to SAVED. -/
theorem exec_migrateFailure_saves {t : Task} {cause : Fin 4} (hstate : s.ctxState c = ctxMigrating) (hone : (s.coll c).tasks = [t])
    (hkind : t.kind = .migrate) (hcause : cause.val ≠ 0) (hfailed : cause.val ≠ 1 ∨ t.fails ≠ 0) (hended : s.ended = [])
    (hroom : s.eventRoom 2) : ∃ u, exec (.migrateFailure c cause) s = .next u ∧ u.ctxState c = ctxSaved ∧ u.copyTask c = none
      ∧ (∃ e ∈ u.evq, e.says = (0x0428, some c.val, 0, [cause.val])) ∧ u.mem = s.mem ∧ u.cores = s.cores := by
  have hacts : s.migrateFailure c cause = s.migrateFailed c cause := by
    have hcopy : s.copyTask c = some t := by rw [State.copyTask, hone]; simp [hkind]
    rw [State.migrateFailure, hstate, hcopy]
    dsimp only
    rw [if_neg fun hin => hin.1.elim (by decide) (by decide), if_neg]
    rintro (hs | hz | ⟨h1, h0⟩)
    · exact hs rfl
    · exact hcause hz
    · exact hfailed.elim (absurd h1) (absurd h0)
  have hexec : exec (.migrateFailure c cause) s = .next (s.migrateFailure c cause).flush := rfl
  rw [hacts, State.migrateFailed_eq hone hkind] at hexec
  have hsaved : (s.copyEnded c).ctxState c = ctxSaved := State.setCtxState_same _ c (by decide)
  have htasks := s.copyEnded_tasks c
  have hraises : Raises s _ _ := (raises_raise (s := s.copyEnded c) (State.eventRoom_of rfl rfl (Nat.le_of_succ_le hroom)) 0x0428
    (some c.val) 0 [cause.val]).of_evq rfl
  have hraise := KeepsHolders.raise (s.copyEnded c) 0x0428 (some c.val) 0 [cause.val]
  have hcoll : ((s.copyEnded c).raise 0x0428 (some c.val) 0 [cause.val]).coll c = (s.copyEnded c).coll c :=
    congrArg Ctx.coll (State.ctx_of_ctxs (State.raise_ctxs ..) c)
  generalize (s.copyEnded c).raise 0x0428 (some c.val) 0 [cause.val] = v at hexec hraises hraise hcoll
  obtain ⟨hfail, hfailColl⟩ := v.failMigrations_keeps c cause
  have hall := hraise.trans hfail
  rw [State.flush_of_ended_nil (hall.ended.trans hended)] at hexec
  refine ⟨_, hexec, (hall.state c).trans hsaved, ?_, hraises.exists_says hfail.evq, hall.mem, hall.cores⟩
  rw [State.copyTask, hfailColl, hcoll, htasks]
  rfl

end

/-! ### The statement -/

/-- Settles O30: the end of a migration at its source, confirmed or failed, and the timers of requests that met BUSY or had no
answer (assumptions 36 and 31). -/
theorem migrationsAndRequestTimersEnd : Obligations.MigrationsAndRequestTimersEnd := by
  unfold Obligations.MigrationsAndRequestTimersEnd
  intro c s
  refine ⟨?confirmed, ?failed, ?busy, ?unanswered, ?peer⟩
  case confirmed =>
    intro t hstate hcopy hidle hsent hgood
    obtain ⟨u, hexec, hfreed⟩ := exec_migrateConfirm_frees hstate hcopy hidle hsent hgood
    exact ⟨u, hexec, hfreed.state, hfreed.forme, hfreed.cores⟩
  case failed =>
    exact fun t cause hstate hone hkind hcause hfailed hended hroom =>
      exec_migrateFailure_saves hstate hone hkind hcause hfailed hended hroom
  case busy => exact fun x y hx hbusy hdue hended hpeer hport => exec_busyRetry_sends hx hbusy hdue hended hpeer hport
  case unanswered =>
    intro x y hx hidle hleft hdue hended
    exact ⟨exec_requestTimeout_fails hx hidle hleft hdue hended, exec_requestTimeout_again hx hidle hleft hdue hended⟩
  case peer => exact fun x y t hx hbusy hdue hnew hroom => exec_peerTimeout_raises hx hbusy hdue hnew hroom

end Sys2Proof.Machine
end

section
/-!
PROOFS. The images of cores written (R222), and the end of a save.
-/

namespace Sys2Proof.Machine

theorem State.fget_raise_high (s : State) {p : Fld} (hp : p.lo ≤ p.hi) (ho : 0x1000 ≤ p.off) (code : Nat) (ctx : Option Nat)
    (unit : Nat) (data : List Nat) : (s.raise code ctx unit data).fget p = s.fget p :=
  s.fget_raise (p.apart_of_low hp ho (by decide)) (p.apart_of_low hp ho (by decide)) ..

theorem State.completeAll_fget_high (s : State) (c opc status : Nat) {p : Fld} (hp : p.lo ≤ p.hi) (ho : 0x1000 ≤ p.off) :
    (s.completeAll c opc status).fget p = s.fget p := by
  refine foldl_view_same (view := fun u : State => u.fget p) (fun t r _ => ?_) s
  split
  · split
    · exact t.complete_fget_high _ _ _ _ _ hp ho
    · rfl
  · rfl

/-! ### The image of a core (R222) -/

/-- Bytes have been laid in memory: registers, contexts, requests and events stand. -/
def Lays (s u : State) : Prop :=
  u = { s with mem := u.mem, dies := u.dies, cores := u.cores, free := u.free, bridgeAt := u.bridgeAt }

/-- Cores have been saved: requests and events stand. -/
def OnlySaved (s u : State) : Prop :=
  u = { s with regs := u.regs, mem := u.mem, dies := u.dies, ctxs := u.ctxs, cores := u.cores, free := u.free
               bridgeAt := u.bridgeAt }

/-- The cores `gs` of context `c` are saved, and released. -/
structure Saves (c : Nat) (gs : List Nat) (s u : State) : Prop where
  frame : OnlySaved s u
  occupant : ∀ h, u.occupant h = if h ∈ gs then none else s.occupant h
  saved : (u.ctx c).saved.map (·.core) = (s.ctx c).saved.map (·.core) ++ gs

section
variable {c g : Nat} {s t u : State} {f : Forme}

theorem Lays.trans (h : Lays s t) (h' : Lays t u) : Lays s u := by
  rw [Lays, h', h]

theorem Lays.clean (h : Lays s u) (hs : s.clean) : u.clean := by
  rw [h]
  exact hs

theorem Lays.memWrite (h : s.clean) (a : Nat) (l : List Byte) (x : Option Nat) : Lays s (s.memWrite a l x).1 := by
  obtain ⟨m, d, heq⟩ := State.memWrite_clean_frame h a l x
  rw [heq]
  rfl

theorem Lays.layArea (h : s.clean) (a : Nat) (l : List Byte) : Lays s (s.layArea a l) := by
  obtain ⟨d, heq⟩ := State.layArea_frame h a l
  rw [heq]
  rfl

theorem OnlySaved.trans (h : OnlySaved s t) (h' : OnlySaved t u) : OnlySaved s u := by
  rw [OnlySaved, h', h]

theorem Lays.onlySaved (h : Lays s u) : OnlySaved s u := by
  rw [OnlySaved, h]

theorem Saves.nil (c : Nat) (s : State) : Saves c [] s s := ⟨rfl, fun _ => rfl, (List.append_nil _).symm⟩

theorem Saves.trans {l l' : List Nat} (h : Saves c l s t) (h' : Saves c l' t u) : Saves c (l ++ l') s u where
  frame := h.frame.trans h'.frame
  occupant g := by
    rw [h'.occupant, h.occupant]
    by_cases h1 : g ∈ l'
    · rw [if_pos h1, if_pos (List.mem_append_right _ h1)]
    · simp [h1]
  saved := by rw [h'.saved, h.saved, List.append_assoc]

theorem Saves.clean {l : List Nat} (h : Saves c l s u) (hs : s.clean) : u.clean := by
  rw [h.frame]
  exact hs

theorem State.checkImage_clean (h : s.clean) (c g a n : Nat) : s.checkImage c g a n = (s, true) := by
  unfold State.checkImage
  rw [State.eccHits_clean h.1]
  rfl

/-- LS and OC of core `g` in its save area (R222). -/
def State.sramSaved (s : State) (f : Forme) (g : Nat) : State :=
  { s with
    mem := memLay (memLay s.mem (f.imageAt g) 0x400000 (memCells s.mem (lsBase g) 0x400000)) (f.imageAt g + 0x400000) 0x40000
      (memCells s.mem (ocBase g) 0x40000)
    ecc := s.ecc.dropIf fun x => decide (f.imageAt g ≤ x) && decide (x < f.imageAt g + 0x500000)
    free := s.free + 1 }

/-- The whole image of core `g` in its save area. -/
def State.imageSaved (s : State) (f : Forme) (g : Nat) : State :=
  ((s.sramSaved f g).memWrite (f.imageAt g + 0x440000) ((s.sramSaved f g).core g).accBytes none).1.layArea (f.imageAt g + 0x4C0000)
    (smallState g s.free)

/-- Core `g`, its state kept with its context, blank again. -/
def State.coreEmptied (s : State) (c g n a : Nat) : State :=
  (((s.modCtx c fun x => { x with saved := x.saved ++ [⟨g, s.core g, some n⟩] }).modCore g Core.blank).snoop a 0x500000).crossed none
    (some (g / 32)) (homeDie a)

theorem Lays.imageSaved (h : s.clean) (f : Forme) (g : Nat) : Lays s (s.imageSaved f g) := by
  have hsram : Lays s (s.sramSaved f g) := by
    have hdrop : ∀ p, s.ecc.dropIf p = s.ecc := fun p => by rw [h.1]; rfl
    rw [State.sramSaved, hdrop]
    rfl
  have hacc := hsram.trans (Lays.memWrite (hsram.clean h) (f.imageAt g + 0x440000) ((s.sramSaved f g).core g).accBytes none)
  exact hacc.trans (.layArea (hacc.clean h) ..)

theorem State.saveCore_eq (h : s.clean) (c : Nat) (f : Forme) (g : Nat) :
    s.saveCore c f g = (((s.imageSaved f g).coreEmptied c g s.free (f.imageAt g)).release g, true) := by
  unfold State.saveCore
  simp only [State.checkImage_clean h, Bool.and_self]
  rfl

theorem State.coreEmptied_frame (s : State) (c g n a : Nat) : OnlySaved s (s.coreEmptied c g n a) := rfl

theorem State.coreEmptied_saved (s : State) (c g n a : Nat) :
    ((s.coreEmptied c g n a).ctx c).saved.map (·.core) = (s.ctx c).saved.map (·.core) ++ [g] := by
  have hctx : (s.coreEmptied c g n a).ctx c = (s.modCtx c fun x => { x with saved := x.saved ++ [⟨g, s.core g, some n⟩] }).ctx c :=
    State.ctx_of_ctxs rfl c
  rw [hctx, State.ctx_modCtx_same, List.map_append]
  rfl

theorem State.release_onlySaved (s : State) (g : Nat) : OnlySaved s (s.release g) := rfl

theorem Saves.of_lays (hlays : Lays s t) (n a : Nat) : Saves c [g] s ((t.coreEmptied c g n a).release g) := by
  have hctx : t.ctx c = s.ctx c := State.ctx_of_ctxs (by rw [hlays]) c
  have hframe := t.coreEmptied_frame c g n a
  have hsaved := t.coreEmptied_saved c g n a
  have hregs : (t.coreEmptied c g n a).regs = t.regs := rfl
  generalize t.coreEmptied c g n a = v at hframe hsaved hregs
  have hocc : ∀ h, v.occupant h = s.occupant h := State.occupant_of_regs (hregs.trans (by rw [hlays]))
  refine ⟨hlays.onlySaved.trans (hframe.trans (v.release_onlySaved g)), fun h => ?_, ?_⟩
  · by_cases hg : h = g
    · rw [hg, v.release_occupant_same, if_pos (List.mem_singleton_self g)]
    · rw [v.release_occupant_ne (Ne.symm hg), hocc, if_neg (by simpa using hg)]
  · rw [State.ctx_of_ctxs (u := v.release g) (s := v) rfl, hsaved, hctx]

/-- R222: a core's image is written and the core released. -/
theorem Saves.saveCore (h : s.clean) (c : Nat) (f : Forme) (g : Nat) :
    Saves c [g] s (s.saveCore c f g).1 ∧ (s.saveCore c f g).2 = true := by
  rw [State.saveCore_eq h]
  exact ⟨.of_lays (.imageSaved h f g) .., rfl⟩

/-- R222: the images of cores are written, one after the other. -/
theorem Saves.saveCores (h : s.clean) (c : Nat) (f : Forme) (gs : List Nat) :
    Saves c gs s (s.saveCores c f gs).1 ∧ (s.saveCores c f gs).2 = none := by
  induction gs generalizing s with
  | nil => exact ⟨.nil c s, rfl⟩
  | cons g r ih =>
    obtain ⟨hone, hok⟩ := Saves.saveCore h c f g
    obtain ⟨hrest, hnone⟩ := ih (hone.clean h)
    have hstep : s.saveCores c f (g :: r) = (s.saveCore c f g).1.saveCores c f r := by
      rw [State.saveCores, List.foldl_cons]
      dsimp only
      rw [if_pos hok]
      rfl
    rw [hstep]
    exact ⟨hone.trans hrest, hnone⟩

end

/-! ### The end of a save (R222) -/

section
variable {s : State} {c : CtxId} {f : Forme}

/-- The state in which the images of context `c` are written, shown SAVED. -/
def State.imagesWritten (s : State) (c : Nat) (f : Forme) : State :=
  (((s.putHeader c).saveCores c f (s.occupied c)).1.fset (F.CTX_STAT_IMAGE c) 1).setCtxState c ctxSaved

/-- R222: what holds once the images are written. -/
structure SavedOf (c : CtxId) (s u : State) : Prop where
  state : u.ctxState c = ctxSaved
  image : u.fget (F.CTX_STAT_IMAGE c) = 1
  cores : NoCores u c
  saved : (u.ctx c).saved.map (·.core) = (s.ctx c).saved.map (·.core) ++ s.occupied c

theorem SavedOf.of_holders {t u : State} (h : KeepsHolders t u) (himage : u.fget (F.CTX_STAT_IMAGE c) = t.fget (F.CTX_STAT_IMAGE c))
    (hsaved : (u.ctx c).saved = (t.ctx c).saved) (ht : SavedOf c s t) : SavedOf c s u where
  state := (h.state c).trans ht.state
  image := himage.trans ht.image
  cores g := by rw [h.occupant]; exact ht.cores g
  saved := by rw [hsaved]; exact ht.saved

theorem SavedOf.completeAll {t : State} (opc status : Nat) (ht : SavedOf c s t) : SavedOf c s (t.completeAll c opc status) :=
  ht.of_holders (.completeAll t ..) (t.completeAll_fget_high _ _ _ (show 27 ≤ 27 by decide) (by dsimp only [R.CTX_STAT]; omega))
    (State.completeAll_ctx_view (view := Ctx.saved) t (fun _ _ => rfl) (fun _ _ => rfl) (fun _ => rfl) ..)

theorem State.imagesWritten_saved (h : s.clean) (f : Forme) : SavedOf c s (s.imagesWritten c f) ∧
    (s.imagesWritten c f).evq = s.evq ∧ (s.imagesWritten c f).hpt = s.hpt ∧ (s.imagesWritten c f).ended = s.ended := by
  have hput := s.putHeader_frame c
  have hclean := State.putHeader_clean h c
  unfold State.imagesWritten
  generalize s.putHeader c = t at hput hclean
  obtain ⟨hsaves, -⟩ := Saves.saveCores hclean c f (s.occupied c)
  generalize (t.saveCores c f (s.occupied c)).1 = v at hsaves
  have hocc : ∀ g, ((v.fset (F.CTX_STAT_IMAGE c) 1).setCtxState c ctxSaved).occupant g = v.occupant g := fun g =>
    (State.setCtxState_occupant _ c.isLt _ g).trans ((KeepsHolders.fset_ctxStat v c.isLt (by decide) 1).occupant g)
  have hctx : t.ctx c = s.ctx c := State.ctx_of_ctxs (by rw [hput]) c
  refine ⟨⟨?_, ?_, fun g => ?_, ?_⟩, ?_, ?_, ?_⟩
  · exact State.setCtxState_same _ c (by decide)
  · exact (State.fget_fset_apart _ _ (by decide)).trans (State.fget_fset_self _ (by decide) (by decide))
  · rw [hocc, hsaves.occupant]
    split
    · exact nofun
    · next hnot =>
      have hregs : t.regs = s.regs := by rw [hput]
      rw [State.occupant_of_regs hregs]
      exact fun hin => hnot ((s.mem_occupied c).mpr ⟨g.isLt, hin⟩)
  · rw [← hctx]
    exact hsaves.saved
  · change v.evq = s.evq
    rw [hsaves.frame, hput]
  · change v.hpt = s.hpt
    rw [hsaves.frame, hput]
  · change v.ended = s.ended
    rw [hsaves.frame, hput]

theorem State.saveComplete_acts (hf : (s.ctx c).forme = some f) (hstate : s.ctxState c = ctxSaving)
    (hlive : (s.ctx c).faultStop = false) (hclean : s.clean) : ∃ n, s.saveComplete c =
      (((((s.imagesWritten c f).fset (F.CTX_TIME_SAVE_US c) n).raise 0x0423 (some c.val) 0 []).completeAll c 4 stOk).completeAll c 5
        stOk) := by
  obtain ⟨-, hnone⟩ := Saves.saveCores (State.putHeader_clean hclean c) c f (s.occupied c)
  rw [State.saveComplete, hf]
  dsimp only
  rw [if_neg (by rw [hlive, hstate]; rintro (hs | hs); exact hs rfl; exact absurd hs (by decide)), hnone]
  exact ⟨_, rfl⟩

/-- R222: the last image makes a SAVING context SAVED. -/
theorem exec_saveComplete_saves (hf : (s.ctx c).forme = some f) (hstate : s.ctxState c = ctxSaving)
    (hlive : (s.ctx c).faultStop = false) (hclean : s.clean) (hended : s.ended = []) (hroom : s.eventRoom 3) :
    ∃ u, exec (.saveComplete c) s = .next u ∧ SavedOf c s u ∧ ∃ e ∈ u.evq, e.says = (0x0423, some c.val, 0, []) := by
  obtain ⟨n, hacts⟩ := State.saveComplete_acts hf hstate hlive hclean
  obtain ⟨hsaved, hevq, hhpt, hend⟩ := State.imagesWritten_saved (c := c) hclean f
  have hexec : exec (.saveComplete c) s = .next (s.saveComplete c).flush := rfl
  rw [hacts] at hexec
  generalize s.imagesWritten c f = t at hexec hsaved hevq hhpt hend
  have htime : Elsewhere (F.CTX_TIME_SAVE_US c).off := by simp [Elsewhere]
  have hne : R.CTX_STAT c ≠ R.CTX_TIME c := by dsimp only [R.CTX_STAT, R.CTX_TIME]; omega
  have htimed : SavedOf c s (t.fset (F.CTX_TIME_SAVE_US c) n) :=
    hsaved.of_holders (.fset t htime n) (t.fget_fset_reg (p := F.CTX_STAT_IMAGE c) hne n) (congrArg Ctx.saved (State.fset_ctx' ..))
  have hraised : SavedOf c s ((t.fset (F.CTX_TIME_SAVE_US c) n).raise 0x0423 (some c.val) 0 []) :=
    htimed.of_holders (.raise ..) (State.fget_raise_high _ (show 27 ≤ 27 by decide) (by dsimp only [R.CTX_STAT]; omega) ..)
      (congrArg Ctx.saved (State.ctx_of_ctxs (State.raise_ctxs ..) c))
  have hraises := raises_raise (s := t.fset (F.CTX_TIME_SAVE_US c) n) (State.eventRoom_of hevq hhpt
    (Nat.le_trans (Nat.add_le_add_left (show 1 ≤ 3 by decide) _) hroom)) 0x0423 (some c.val) 0 []
  have hkeeps := (KeepsHolders.fset t htime n).trans (.raise _ 0x0423 (some c.val) 0 [])
  generalize (t.fset (F.CTX_TIME_SAVE_US c) n).raise 0x0423 (some c.val) 0 [] = v at hexec hraised hraises hkeeps
  have hall := (KeepsHolders.completeAll v c 4 stOk).trans (.completeAll _ c 5 stOk)
  rw [State.flush_of_ended_nil (hall.ended.trans (hkeeps.ended.trans (hend.trans hended)))] at hexec
  exact ⟨_, hexec, (hraised.completeAll 4 stOk).completeAll 5 stOk, hraises.exists_says hall.evq⟩

end

end Sys2Proof.Machine
end

section
/-!
PROOFS. The images of cores read back (R223), the wait for cores (R213) and the statement SavesRestoresAndTeardownsEnd.
-/

namespace Sys2Proof.Machine

/-! ### A core's restore begins (R213, R223) -/

section
variable {s t : State} {c : Nat}

theorem State.copyProgram_lays (h : s.clean) (c g : Nat) : Lays s (s.copyProgram c g).1 ∧ (s.copyProgram c g).1.cores = s.cores
    ∧ (s.copyProgram c g).2 = true := by
  unfold State.copyProgram
  split
  · exact ⟨rfl, rfl, rfl⟩
  · split
    · exact ⟨rfl, rfl, rfl⟩
    · split
      · exact ⟨rfl, rfl, rfl⟩
      · rw [State.checkRead_clean h.1 h.2]
        dsimp only
        rw [if_pos rfl]
        refine ⟨.memWrite h .., ?_, rfl⟩
        obtain ⟨m, d, heq⟩ := State.memWrite_clean_frame h _ _ _
        rw [heq]

/-- Core `g` taken for its restore; once all of the context's are, its RESTORE is under way. -/
def State.restoreTakes (s : State) (c g r a : Nat) : State :=
  let t := ((s.crossed none (homeDie a) (some (g / 32))).occupy c g).setCtxState c ctxRestoring
  if (t.chaseCoresOf c).all (fun h => t.occupant h == some c) then t.setStage c r .active else t

/-- LS, OC and the small state of core `g` as its save area holds them (R223). -/
def State.imageBack (s : State) (g a : Nat) (x : SavedCore Core) : State :=
  State.modCore { s with
    mem := memLay (memLay s.mem (lsBase g) 0x400000 (memCells s.mem a 0x400000)) (ocBase g) 0x40000
      (memCells s.mem (a + 0x400000) 0x40000)
    ecc := s.ecc.dropIf fun x => sramOf x == some (Sram.core g) } g fun k => { x.small with
      stopped := true, restored := false, mxeMiss := k.mxeMiss, vxeMiss := k.vxeMiss, vxeUpset := k.vxeUpset }

theorem Lays.imageBack (h : s.clean) (g a : Nat) (x : SavedCore Core) : Lays s (s.imageBack g a x) := by
  have hdrop : ∀ p, s.ecc.dropIf p = s.ecc := fun p => by rw [h.1]; rfl
  rw [State.imageBack, hdrop]
  rfl

theorem State.imageBack_core (s : State) (g a : Nat) (x : SavedCore Core) : (s.imageBack g a x).core g = { x.small with
    stopped := true, restored := false, mxeMiss := (s.core g).mxeMiss, vxeMiss := (s.core g).vxeMiss
    vxeUpset := (s.core g).vxeUpset } := by
  rw [State.imageBack, State.core_modCore_same]
  rfl

/-- A core taken for its restore: memory and cores stand. -/
structure Takes (c g : Nat) (s u : State) : Prop where
  occupant : u.occupant g = some c
  state : u.ctxState c = ctxRestoring
  mem : u.mem = s.mem
  cores : u.cores = s.cores
  clean : s.clean → u.clean
  forme : (u.ctx c).forme = (s.ctx c).forme

theorem State.restoreTakes_takes (s : State) {c : Nat} (hc : c < 8) (g r a : Nat) : Takes c g s (s.restoreTakes c g r a) := by
  have hframe := (s.crossed none (homeDie a) (some (g / 32))).occupy_frame c g
  have hocc := (s.crossed none (homeDie a) (some (g / 32))).occupy_occupant_same c g hc
  unfold State.restoreTakes
  generalize (s.crossed none (homeDie a) (some (g / 32))).occupy c g = t at hframe hocc
  have hstate : (t.setCtxState c ctxRestoring).ctxState c = ctxRestoring := State.setCtxState_same _ c (by decide)
  have htaken := (State.setCtxState_occupant t hc ctxRestoring g).trans hocc
  have hmem : (t.setCtxState c ctxRestoring).mem = s.mem := by rw [State.setCtxState, State.fset_mem, hframe]; rfl
  have hcores : (t.setCtxState c ctxRestoring).cores = s.cores := by rw [State.setCtxState, State.fset_cores, hframe]; rfl
  have hclean : s.clean → (t.setCtxState c ctxRestoring).clean := fun hs =>
    ⟨by rw [State.setCtxState, State.fset_ecc, hframe]; exact hs.1,
      by rw [State.setCtxState, State.fset_badSeg, hframe]; exact hs.2⟩
  have hforme : ((t.setCtxState c ctxRestoring).ctx c).forme = (s.ctx c).forme := by
    rw [State.ctx_setCtxState, State.ctx_of_ctxs (u := t) (s := s) (by rw [hframe]; rfl)]
  generalize t.setCtxState c ctxRestoring = v at hstate htaken hmem hcores hclean hforme
  dsimp only
  split
  · have hkeeps := KeepsHolders.setStage v c r .active
    exact ⟨(hkeeps.occupant g).trans htaken, (hkeeps.state c).trans hstate, hkeeps.mem.trans hmem, hkeeps.cores.trans hcores,
      fun hs => hkeeps.clean (hclean hs), by rw [State.ctx_setStage]; exact hforme⟩
  · exact ⟨htaken, hstate, hmem, hcores, hclean, hforme⟩

variable {g : Nat} {f : Forme} {sv : SavedCore Core}

/-- R223: a core's image is written back as far as its program. -/
theorem State.restoreCoreStart_acts {l : Launch} (hf : (s.ctx c).forme = some f) (hl : (s.ctx c).launch = some l)
    (hrestore : l.restore = true) (hin : f.coreList.contains g = true) (hfree : s.occupant g = none)
    (hstate : s.ctxState c = ctxRestoring ∨ (s.ctxState c = ctxSaved ∧ s.fget F.MGT_PLANE_STAT_MGMT_DOWN = 0))
    (hlive : (s.ctx c).faultStop = false) (hsaved : (s.ctx c).saved.find? (fun x => x.core == g) = some sv)
    (hgood : s.digestOk (f.imageAt g) sv = true) (hclean : s.clean) (hc : c < 8) :
    s.restoreCoreStart c g = (((s.restoreTakes c g l.ring (f.imageAt g)).imageBack g (f.imageAt g) sv).copyProgram c g).1 := by
  have htakes := s.restoreTakes_takes hc g l.ring (f.imageAt g)
  have hdigest : ¬ (true = false ∨ (s.restoreTakes c g l.ring (f.imageAt g)).digestOk (f.imageAt g) sv = false) := by
    have hsame : (s.restoreTakes c g l.ring (f.imageAt g)).digestOk (f.imageAt g) sv = s.digestOk (f.imageAt g) sv := by
      unfold State.digestOk State.bytes
      rw [htakes.mem]
    rw [hsame, hgood]
    decide
  have hgo : ¬ (l.restore = false ∨ f.coreList.contains g = false ∨ s.occupant g ≠ none
      ∨ (s.ctxState c ≠ ctxSaved ∧ s.ctxState c ≠ ctxRestoring)
      ∨ (s.ctxState c = ctxSaved ∧ s.fget F.MGT_PLANE_STAT_MGMT_DOWN = 1) ∨ (s.ctx c).faultStop = true) := by
    rw [hrestore, hin, hlive, hfree]
    rintro (h | h | h | ⟨hs, hr⟩ | ⟨hs, hdown⟩ | h)
    · exact absurd h (by decide)
    · exact absurd h (by decide)
    · exact h rfl
    · exact hstate.elim hr fun hsav => hs hsav.1
    · exact hstate.elim (fun hr => absurd (hs.symm.trans hr) (by decide)) fun hsav => absurd (hdown.symm.trans hsav.2) (by decide)
    · exact absurd h (by decide)
  rw [State.restoreCoreStart, hf, hl]
  dsimp only
  rw [if_neg hgo, hsaved, State.checkRead_clean hclean.1 hclean.2]
  refine (if_neg hdigest).trans ?_
  have hread : ∀ p : State × Bool, p.2 = true → (match p with | (s, true) => s | (s, false) => s.saveError c g) = p.1 := by
    rintro ⟨t, ok⟩ rfl
    rfl
  have hback := (Lays.imageBack (htakes.clean hclean) g (f.imageAt g) sv).clean (htakes.clean hclean)
  exact hread _ (State.copyProgram_lays hback c g).2.2

/-- R213, R223: a core of a restore is taken and holds its saved state. -/
theorem exec_restoreCoreStart_takes {s : State} {c : CtxId} {g : CoreId} {f : Forme} {sv : SavedCore Core} {l : Launch}
    (hf : (s.ctx c).forme = some f) (hl : (s.ctx c).launch = some l)
    (hrestore : l.restore = true) (hin : f.coreList.contains g.val = true) (hfree : s.occupant g = none)
    (hstate : s.ctxState c = ctxRestoring ∨ (s.ctxState c = ctxSaved ∧ s.fget F.MGT_PLANE_STAT_MGMT_DOWN = 0))
    (hlive : (s.ctx c).faultStop = false) (hsaved : (s.ctx c).saved.find? (fun x => x.core == g.val) = some sv)
    (hgood : s.digestOk (f.imageAt g) sv = true) (hclean : s.clean) : ∃ u, exec (.restoreCoreStart c g) s = .next u
      ∧ u.occupant g = some c.val ∧ u.ctxState c = ctxRestoring ∧ u.core g = { sv.small with
        stopped := true, restored := false, mxeMiss := (s.core g).mxeMiss, vxeMiss := (s.core g).vxeMiss
        vxeUpset := (s.core g).vxeUpset } := by
  have hexec : exec (.restoreCoreStart c g) s = .next (s.restoreCoreStart c g) := rfl
  have htakes := s.restoreTakes_takes c.isLt g l.ring (f.imageAt g)
  rw [State.restoreCoreStart_acts hf hl hrestore hin hfree hstate hlive hsaved hgood hclean c.isLt] at hexec
  generalize s.restoreTakes c g l.ring (f.imageAt g) = t at hexec htakes
  have htclean := htakes.clean hclean
  have hback := Lays.imageBack htclean g (f.imageAt g) sv
  have hcore := t.imageBack_core g (f.imageAt g) sv
  generalize t.imageBack g (f.imageAt g) sv = v at hexec hback hcore
  obtain ⟨hprog, hcores, -⟩ := State.copyProgram_lays (hback.clean htclean) c g
  have hall := hback.trans hprog
  generalize (v.copyProgram c g).1 = u at hexec hprog hcores hall
  have hregs : u.regs = t.regs := by rw [hall]
  refine ⟨u, hexec, (State.occupant_of_regs hregs g).trans htakes.occupant, (State.ctxState_of_regs hregs c).trans htakes.state, ?_⟩
  have htcore : t.core g = s.core g := by rw [State.core, State.core, htakes.cores]
  rw [State.core, hcores, ← htcore]
  exact hcore

end

/-! ### A core's restore ends (R223, R227) -/

section
variable {s : State} {c : CtxId} {g : CoreId}

/-- Core `g` restored, with nothing in the landing buffer to replay. -/
def State.coreBack (s : State) (c g : Nat) : State :=
  (((s.modCtx c fun x => { x with saved := x.saved.filter fun y => y.core != g }).replayCore c g).modCore g fun k =>
    { k with restored := true })

/-- A core restored: no state of it is kept, and neither holders nor memory nor events are others. -/
structure Restores (c g : Nat) (s u : State) : Prop where
  frame : ∃ t, KeepsHolders s t ∧ t.evq = s.evq ∧ u = t.modCore g fun k => { k with restored := true }
  ctx : u.ctx c = { s.ctx c with saved := (s.ctx c).saved.filter fun y => y.core != g }

theorem State.coreBack_restores (hland : (s.ctx c).landing = []) (g : Nat) : Restores c g s (s.coreBack c g) := by
  have hctx : (s.modCtx c fun x => { x with saved := x.saved.filter fun y => y.core != g }).ctx c = _ := s.ctx_modCtx_same c _
  have hmod := KeepsHolders.modCtx s c fun x => { x with saved := x.saved.filter fun y => y.core != g }
  have hevq : (s.modCtx c fun x => { x with saved := x.saved.filter fun y => y.core != g }).evq = s.evq := rfl
  unfold State.coreBack
  generalize (s.modCtx c fun x => { x with saved := x.saved.filter fun y => y.core != g }) = t at hctx hmod hevq
  have hreplay := State.replayCore_nothing (s := t) (c := c) (by rw [hctx]; exact hland) g
  exact ⟨⟨_, hmod.trans hreplay.toKeepsHolders, hreplay.evqSame.trans hevq, rfl⟩, hreplay.ctx.trans hctx⟩

/-- A restore that has ended, shown in the context's registers. -/
def State.restoreShown (s : State) (c n : Nat) : State :=
  ((s.fset (F.CTX_TIME_RESTORE_US c) n).fset (F.CTX_STAT_IMAGE c) 0).fset (F.CTX_STAT_BP c) 0

theorem State.restoreShown_holders (s : State) (c : CtxId) (n : Nat) : KeepsHolders s (s.restoreShown c n) := by
  have htime : Elsewhere (F.CTX_TIME_RESTORE_US c).off := by simp [Elsewhere]
  exact (KeepsHolders.fset s htime n).trans ((KeepsHolders.fset_ctxStat _ c.isLt (by decide) 0).trans
    (.fset_ctxStat _ c.isLt (by decide) 0))

theorem State.restoreShown_image (s : State) (c n : Nat) : (s.restoreShown c n).fget (F.CTX_STAT_IMAGE c) = 0 :=
  (State.fget_fset_apart _ _ (by decide)).trans (State.fget_fset_self _ (by decide) (by decide))

variable (hstate : s.ctxState c = ctxRestoring) (hocc : s.occupant g = some c.val) (hkept : ∃ x ∈ (s.ctx c).saved, x.core = g.val)
  (hlive : (s.ctx c).faultStop = false) (hland : (s.ctx c).landing = []) (hclean : s.clean)
  (hlast : ∀ h ∈ s.chaseCoresOf c, s.occupant h = some c.val ∧ (h = g.val ∨ (s.core h).restored = true))
include hstate hocc hkept hlive hland hclean hlast

theorem State.coreRestoreDone_last : ∃ n, s.coreRestoreDone c g = ((s.coreBack c g).restoreShown c n).raise 0x0424
    (some c.val) 0 [] := by
  have hgo : ¬ (s.ctxState c ≠ ctxRestoring ∨ s.occupant g ≠ some c.val ∨ (s.ctx c).saved.all (fun x => x.core != g.val) = true
      ∨ (s.ctx c).faultStop = true) := by
    obtain ⟨x, hx, hcore⟩ := hkept
    rw [hstate, hocc, hlive]
    rintro (h | h | h | h)
    · exact h rfl
    · exact h rfl
    · exact absurd hcore (by simpa using List.all_eq_true.mp h x hx)
    · exact absurd h (by decide)
  obtain ⟨⟨t, hkeeps, -, heq⟩, hctx⟩ := State.coreBack_restores hland g
  have hchase : (s.coreBack c g).chaseCoresOf c = s.chaseCoresOf c := State.chaseCoresOf_of_forme (by rw [hctx])
  have hall : ((s.coreBack c g).chaseCoresOf c).all (fun h => (s.coreBack c g).occupant h == some c.val &&
      ((s.coreBack c g).core h).restored) = true := by
    rw [hchase]
    refine List.all_eq_true.mpr fun h hh => ?_
    obtain ⟨hown, hdone⟩ := hlast h hh
    have hhold : (s.coreBack c g).occupant h = some c.val := by
      rw [heq, State.modCore_occupant', hkeeps.occupant, hown]
    have hback : ((s.coreBack c g).core h).restored = true := by
      rw [heq]
      by_cases hg : h = g.val
      · rw [hg, State.core_modCore_same]
      · rw [State.core_modCore_ne _ hg, State.core, hkeeps.cores]
        exact hdone.resolve_left hg
    rw [hhold, hback]
    simp
  have hback : (s.coreBack c g).clean := by
    have ht := hkeeps.clean hclean
    exact ⟨by rw [heq]; exact ht.1, by rw [heq]; exact ht.2⟩
  rw [State.coreRestoreDone, if_neg hgo]
  exact ⟨_, (if_pos hall).trans (by rw [show State.modCore _ g _ = s.coreBack c g from rfl, State.readHeader_clean hback]; rfl)⟩

/-- R223: the last core's restore raises event 0x0424 and clears IMAGE. -/
theorem exec_coreRestoreDone_last (hended : s.ended = []) (hroom : s.eventRoom 1) : ∃ u, exec (.coreRestoreDone c g) s = .next u
    ∧ (u.core g).restored = true ∧ u.fget (F.CTX_STAT_IMAGE c) = 0 ∧ Raises s u [(0x0424, some c.val, 0, [])]
    ∧ (∀ x ∈ (u.ctx c).saved, x.core ≠ g.val) ∧ u.mem = s.mem := by
  obtain ⟨n, hacts⟩ := State.coreRestoreDone_last hstate hocc hkept hlive hland hclean hlast
  obtain ⟨⟨t, hkeeps, hevq, heq⟩, hctx⟩ := State.coreBack_restores hland g
  have hexec : exec (.coreRestoreDone c g) s = .next (s.coreRestoreDone c g).flush := rfl
  rw [hacts] at hexec
  generalize s.coreBack c g = v at hexec heq hctx
  have hcore : (v.core g).restored = true := by rw [heq, State.core_modCore_same]
  have hmem : v.mem = s.mem := by rw [heq]; exact hkeeps.mem
  have hend : v.ended = s.ended := by rw [heq]; exact hkeeps.ended
  have hevq' : v.evq = s.evq := by rw [heq]; exact hevq
  have hhpt : v.hpt = s.hpt := by rw [heq, hkeeps.frame]; rfl
  have hset := v.restoreShown_holders c n
  have himage := v.restoreShown_image c n
  have hshown : (v.restoreShown c n).evq = v.evq ∧ (v.restoreShown c n).hpt = v.hpt ∧ (v.restoreShown c n).ctxs = v.ctxs :=
    ⟨rfl, rfl, rfl⟩
  generalize v.restoreShown c n = w at hexec hset himage hshown
  obtain ⟨hwevq, hwhpt, hwctxs⟩ := hshown
  have hraise := KeepsHolders.raise w 0x0424 (some c.val) 0 []
  have hall := hset.trans hraise
  have hraises := (raises_raise (State.eventRoom_of (hwevq.trans hevq') (hwhpt.trans hhpt) hroom) 0x0424 (some c.val) 0 []).of_evq
    (hwevq.trans hevq')
  rw [State.flush_of_ended_nil (hall.ended.trans (hend.trans hended))] at hexec
  refine ⟨_, hexec, ?_, ?_, hraises, ?_, hall.mem.trans hmem⟩
  · rw [State.core, hall.cores]
    exact hcore
  · rw [State.fget_raise_high _ (show 27 ≤ 27 by decide) (by dsimp only [R.CTX_STAT]; omega), himage]
  · rw [State.ctx_of_ctxs (State.raise_ctxs ..), State.ctx_of_ctxs hwctxs, hctx]
    exact fun x hx => by simpa using (List.mem_filter.mp hx).2

end

/-! ### The wait for cores (R213) -/

section
variable {s : State} {c : CtxId} {r : RingId} {k : Cmd} (hk : (s.ring c r).cur = some k) (hwait : k.stage = .waitCores)
  (hdue : k.since + 2000 ≤ s.timeUs) (hbusy : s.coresFree c = false)
include hk hwait hdue hbusy

theorem State.coresBusyTimeout_acts : s.coresBusyTimeout c r = (if k.opc = 6 then
    (s.modCtx c fun x => { x with launch := none }).unrestore c else s).complete c r stCoresBusy 0 0 := by
  rw [State.coresBusyTimeout, hk]
  exact if_pos ⟨hwait, hdue, hbusy⟩

/-- R213: a launch's wait for cores ends in CORES_BUSY. -/
theorem exec_coresBusyTimeout_launch (hop : k.opc = 3) : ∃ u, exec (.coresBusyTimeout c r) s = .next u
    ∧ Completes s u c r k stCoresBusy 0 0 ∧ u.mem = s.mem ∧ u.cores = s.cores := by
  have hexec : exec (.coresBusyTimeout c r) s = .next (s.coresBusyTimeout c r) := rfl
  rw [State.coresBusyTimeout_acts hk hwait hdue hbusy, if_neg (by rw [hop]; decide)] at hexec
  have hframe := s.complete_frame c r stCoresBusy 0 0
  exact ⟨_, hexec, State.complete_completes _ _ _ hk, hframe.mem, hframe.cores⟩

/-- R213: a context that waits to be restored stays SAVED. -/
theorem exec_coresBusyTimeout_restore {f : Forme} (hf : (s.ctx c).forme = some f) (hop : k.opc = 6) (hnone : s.occupied c = []) :
    ∃ u, exec (.coresBusyTimeout c r) s = .next u ∧ Completes s u c r k stCoresBusy 0 0 ∧ u.ctxState c = ctxSaved
      ∧ (u.ctx c).launch = none ∧ u.mem = s.mem := by
  have hexec : exec (.coresBusyTimeout c r) s = .next (s.coresBusyTimeout c r) := rfl
  have hctx : (s.modCtx c fun x => { x with launch := none }).ctx c = _ := s.ctx_modCtx_same c _
  have hunrestore : (s.modCtx c fun x => { x with launch := none }).unrestore c =
      (s.modCtx c fun x => { x with launch := none }).setCtxState c ctxSaved := by
    have hnone' : (s.modCtx c fun x => { x with launch := none }).occupied c = [] := hnone
    rw [State.unrestore, hctx]
    dsimp only
    rw [hf, hnone']
    rfl
  rw [State.coresBusyTimeout_acts hk hwait hdue hbusy, if_pos hop, hunrestore] at hexec
  have hback : ((s.modCtx c fun x => { x with launch := none }).setCtxState c ctxSaved).ctx c = _ :=
    (State.ctx_setCtxState ..).trans hctx
  have hsaved : ((s.modCtx c fun x => { x with launch := none }).setCtxState c ctxSaved).ctxState c = ctxSaved :=
    State.setCtxState_same _ c (by decide)
  have hmem : ((s.modCtx c fun x => { x with launch := none }).setCtxState c ctxSaved).mem = s.mem := rfl
  have htick : ((s.modCtx c fun x => { x with launch := none }).setCtxState c ctxSaved).tick = s.tick := rfl
  generalize (s.modCtx c fun x => { x with launch := none }).setCtxState c ctxSaved = t at hexec hback hsaved hmem htick
  have hcur : (t.ring c r).cur = some k := by rw [State.ring_of_rings (s := s) (by rw [hback]), hk]
  have hkeeps := KeepsHolders.complete t c r stCoresBusy 0 0
  refine ⟨_, hexec, (State.complete_completes _ _ _ hcur).of_before (by rw [hback]) htick, (hkeeps.state c).trans hsaved, ?_,
    hkeeps.mem.trans hmem⟩
  rw [t.complete_ctx_view (view := Ctx.launch) (fun _ _ => rfl) (fun _ _ => rfl) (fun _ => rfl), hback]

end

/-! ### The statement -/

/-- Settles O29: the last image of a save, the first and last steps of a restore, the wait for cores, and the end of a teardown
(assumption 50). -/
theorem savesRestoresAndTeardownsEnd : Obligations.SavesRestoresAndTeardownsEnd := by
  unfold Obligations.SavesRestoresAndTeardownsEnd
  intro c s
  refine ⟨?saved, ?starts, ?restored, ?launch, ?restore, ?torn⟩
  case saved =>
    intro f hf hstate hlive hclean hended hroom
    obtain ⟨u, hexec, hsaved, hevent⟩ := exec_saveComplete_saves hf hstate hlive hclean hended hroom
    exact ⟨u, hexec, hsaved.state, hsaved.image, hsaved.cores, hsaved.saved, hevent⟩
  case starts =>
    exact fun g f l sv hf hl hrestore hin hfree hstate hlive hsaved hgood hclean =>
      exec_restoreCoreStart_takes hf hl hrestore hin hfree hstate hlive hsaved hgood hclean
  case restored =>
    exact fun g hstate hocc hkept hlive hland hended hclean hroom hlast =>
      exec_coreRestoreDone_last hstate hocc hkept hlive hland hclean hlast hended hroom
  case launch => exact fun r k hk hwait hop hdue hbusy => exec_coresBusyTimeout_launch hk hwait hdue hbusy hop
  case restore =>
    exact fun r k f hf hk hwait hop hdue hbusy hnone => exec_coresBusyTimeout_restore hk hwait hdue hbusy hf hop hnone
  case torn =>
    intro hstate htick hup hfree
    obtain ⟨u, hexec, hfreed⟩ := exec_teardownDone_frees hstate htick hup hfree
    exact ⟨u, hexec, hfreed.state, hfreed.forme, hfreed.cores⟩

end Sys2Proof.Machine
end
